-- ==== Sys2Proof/Word.lean ====
section
/-!
DEFINITION. The words of the machine and their plainest arithmetic (R2, R3).
-/

namespace Sys2Proof

/-- A byte. -/
abbrev Byte := BitVec 8
/-- A general register, a CSR and an address are 64 bits wide (R94, R127). -/
abbrev Word := BitVec 64
/-- A vector register of 256 bits (R94); element `i` of width `w` holds the bits from `w * i` upwards (R172). -/
abbrev VReg := BitVec 256
/-- A segment descriptor of 128 bits (R147). -/
abbrev SegWord := BitVec 128

end Sys2Proof
end

