-- ==== Sys2Proof/Config.lean ====
section
/-!
DEFINITION. What the spec leaves open as a value: opaque constants without a body, so that nothing can be proved about
the value they take.
-/

namespace Sys2Proof.Config

/-- The floor of an elementary function's value where the enclosure of Machine/Elementary.lean does not decide it (log 10). -/
opaque freeFloor : Nat → Nat

/-- Which entry of a full TLB or cluster cache a new one replaces; the spec names no order (log 11). -/
opaque freeVictim : Nat → Nat

/-- The n-th free 64-bit value: what a result that the spec calls open takes, in the order of `State.free` (log 4). -/
opaque freeWord : Nat → BitVec 64

/-- The routes that Hjelec sets in the port dies at bring-up: the peer link by which packets to a device leave, if any does (R326,
log 16). -/
opaque routeLink : Nat → Option Nat

/-- How many messages of one core that wait for full queues the mesh holds before the core's send port takes no more (R163, log 108). -/
opaque meshDepth : Nat

/-- MBASE of a task entry, by context and index: where Hjelec keeps the memory mailbox (R284, log 114). -/
opaque mailboxBase : Nat → Nat → BitVec 64

/-- PTAB of a context, where Hjelec keeps the party records (R307), and where it keeps the copy of a scope's bitmap, by context and scope
id (R251): numbers that `Machine.reservedPa` brings into populated memory (log 114). -/
opaque partyBase : Nat → Nat
opaque scopeBase : Nat → Nat → Nat

/-- The hash of an image slot's image, and that of the identity's public key, which the part fixes (R427, log 106). -/
opaque imageHash : Nat → BitVec 256
opaque keyHash : BitVec 256

end Sys2Proof.Config
end

