-- ==== Sys2Proof/Syntax.lean ====
section
/-!
DEFINITION. The instruction set and the steps of the device, one constructor for each row of spec/opcode_table.json.

An encoded row carries the operand fields that the table gives it, as bit vectors of the table's widths, from the low
bits of the word upwards. A row without an encoding is a step of an engine, a unit, Hjelec, the host or a peer (95):
it carries the numbers that say where the step takes place and what the outside supplies.
-/

namespace Sys2Proof

/-- Where an uncorrectable error is found (R417). -/
inductive ErrorSite where
  /-- A clean line of a cluster cache, by its number PA / 64. -/
  | cacheLine (cluster number : Nat)
  /-- An entry of a cluster's first-level TLB, by its key. -/
  | tlbEntry (cluster key : Nat)
  /-- An entry of a die's second-level TLB, by its key. -/
  | dieTlb (die key : Nat)
  /-- A scratchpad granule of a core. -/
  | granule (core : Nat) (granule : Nat)
  /-- A line of main memory, by its number PA / 64. -/
  | line (number : Nat)
  /-- An accumulator of a slot. -/
  | accumulator (core slot acc : Nat)
  /-- A latch of a slot: 0 the A latch, 1 the B latch. -/
  | latch (core slot which : Nat)
  /-- A slot's registers or control state, with the pool offset of the error. -/
  | slotState (core slot offset : Nat)
  /-- A structure of a context (Hamper, Fuller, handle table, slot table, queues, wait table). -/
  | contextState (ctx : Nat)
deriving DecidableEq, Repr

/-- The rows of spec/opcode_table.json. -/
inductive Instr where
  /-- MZERO_EXEC (R193): Matrix engine executes a queued MZERO. -/
  | mzeroExec (core : Nat)
  /-- MLDA_EXEC (R196): Matrix engine gathers image rows into the A latch. -/
  | mldaExec (core : Nat)
  /-- MLDB_EXEC (R196): Matrix engine gathers image rows into the B latch. -/
  | mldbExec (core : Nat)
  /-- MMA_EXEC (R197): Matrix engine accumulates the latch product in fixed order. -/
  | mmaExec (core : Nat)
  /-- MGANG_BARRIER (R198): Four engines of a cluster row offer equal tags and the barrier is met. -/
  | mgangBarrier (core : Nat)
  /-- MGANG_EXEC (R198): Ganged MMA proceeds after leave is granted, sharing the leader's A latch. -/
  | mgangExec (core : Nat)
  /-- MDRAIN_EXEC (R199): Engine rounds an accumulator into a tile image, fills granules and resolves the guard. -/
  | mdrainExec (core : Nat)
  /-- MDRAINR_EXEC (R199): Engine sends drained rows to a target core. -/
  | mdrainrExec (core : Nat)
  /-- MDRAINR_WRITE (R199): Target core checks SP and writes drained rows and full bits. -/
  | mdrainrWrite (msg : Nat)
  /-- LEAVE_GRANT (R201): Power leave is granted FIFO to a waiting command head. -/
  | leaveGrant (cluster : Nat)
  /-- COPY_CHUNK (R207): Copy engine serves one chunk of a command in round-robin turn. -/
  | copyChunk (core : Nat)
  /-- COPY_CHUNK_ARRIVAL (R215): Target core performs a chunk's writes and full bits. -/
  | copyChunkArrival (msg : Nat)
  /-- CWAIT_RESOLVE (R212): CWAIT starts after earlier copies and resolves its guard. -/
  | cwaitResolve (core : Nat)
  /-- RESET (R420): Release from reset starts CYCLE counters and bring-up. -/
  | reset
  /-- THERMAL_SHUTDOWN (R423): 115 C junction removes package power within 1 ms. -/
  | thermalShutdown
  /-- GOVERNOR_LEVEL (R422): Die governor publishes a new level from droop or temperature. -/
  | governorLevel (die : Nat) (level : BitVec 4)
  /-- TAIL (R281): Host write of a queue tail word posts records or sets OVERRUN. -/
  | tail (queue : Nat) (value : BitVec 32)
  /-- ENABLE (R281): Host write of a host queue's ENABLE bit starts or stops consumption. -/
  | enable (queue : Nat) (on : Bool)
  /-- REGISTER_WRITE (R325): Host write to a BAR 0 register field without its own row, including RW1C bits. -/
  | registerWrite (offset : Nat) (value : BitVec 32)
  /-- RETRAIN (R327): Host sets RETRAIN to request peer-link training. -/
  | retrain (link : Nat)
  /-- WAITOVF (R323): Host write clears a slice's WAITOVF counter. -/
  | waitovf (slice : Nat)
  /-- CORRECTED_ERROR_COUNT (R417): Host write clears a die's corrected-error count. -/
  | correctedErrorCount (unit : Nat)
  /-- ATTESTATION_REQUEST (R427): Host DOE request with a nonce yields a signed report. -/
  | attestationRequest (nonce : BitVec 256)
  /-- HOST_ACCESS (R23): Host CXL.mem access to device memory served at the home slice. -/
  | hostAccess (write : Bool) (pa : Nat) (size : Nat) (value : Nat)
  /-- CONTEXT_CREATE (R252): Hjelec checks a new context record and moves it to IDLE or DESTROYED. -/
  | contextCreate (record : BitVec 1024)
  /-- LAUNCH_RECORD_READ (R297): Hjelec reads a launch record, assigns a launch id and copies it. -/
  | launchRecordRead (ctx : Nat) (queue : Nat)
  /-- PLACE_LAUNCH (R297): Hjelec places a waiting launch once placement rules are met. -/
  | placeLaunch (ctx : Nat) (launch : Nat) (cores : List Nat)
  /-- DISPATCH (R300): Dispatch loads initial state from a bind record and the slot goes to RUN. -/
  | dispatch (core : Nat) (slot : Nat)
  /-- COUNTER_UP (R301): Completion-tree up message arrives at a parent. -/
  | counterUp (msg : Nat)
  /-- COUNTER_DONE (R301): Completion-tree done message with status word arrives at a parent. -/
  | counterDone (msg : Nat)
  /-- DEADLINE_CHECK (R304): Periodic deadline check of RUNNING cycles. -/
  | deadlineCheck (ctx : Nat)
  /-- PREEMPTION_REQUEST (R252): Hjelec moves a context to HALTING. -/
  | preemptionRequest (ctx : Nat)
  /-- HALT_SIGNAL (R418): Halt signal reaches a core; issue stops at the next rotation start. -/
  | haltSignal (core : Nat)
  /-- HALTING_COMPLETE (R253): All cores halted and network drained; context HALTED. -/
  | haltingComplete (ctx : Nat)
  /-- RESUME (R252): Halted context returns to RUNNING. -/
  | resume (ctx : Nat)
  /-- SAVE (R254): Cluster images are written and map entries cleared. -/
  | save (ctx : Nat)
  /-- RESTORE (R255): Cluster image restored into a free cluster and map reloaded. -/
  | restore (ctx : Nat) (places : List Nat)
  /-- RESIZE (R255): Removed clusters saved, remapped and restored. -/
  | resize (ctx : Nat) (removed : List Nat)
  /-- DUMP (R304): Dump completes and the context becomes FAULTED. -/
  | dump (ctx : Nat)
  /-- DESTROY (R256): Context destroyed, slots emptied and resources freed. -/
  | destroy (ctx : Nat)
  /-- REPLY (R104): Reply arrives for a parked thread and completes its instruction. -/
  | reply (msg : Nat)
  /-- ACKNOWLEDGEMENT (R163): Acknowledgement of a posted CORE write decrements the slot count. -/
  | acknowledgement (msg : Nat)
  /-- MESSAGE_ARRIVAL (R163): A message enters a core's inbound queue. -/
  | messageArrival (msg : Nat)
  /-- HANDLER_START (R165): Message slot starts a handler for a pending message. -/
  | handlerStart (core : Nat)
  /-- LOAD (R169): Built-in load message performed at the owning core. -/
  | load (core : Nat)
  /-- STORE (R169): Built-in posted store performed at the owning core. -/
  | store (core : Nat)
  /-- SYNC_LOAD (R169): Built-in synchronising load performed or deferred. -/
  | syncLoad (core : Nat)
  /-- FILL (R169): Built-in fill performed or deferred. -/
  | fill (core : Nat)
  /-- FE (R169): Built-in full/empty operation. -/
  | fe (core : Nat)
  /-- ATOMIC (R169): Built-in atomic on a scratchpad. -/
  | atomic (core : Nat)
  /-- DEFERRED_RESEND (R151): A refused request is resent after 256 cycles. -/
  | deferredResend (msg : Nat)
  /-- CHAIN_WORD (R170): A pushed chain word arrives in the downstream queue. -/
  | chainWord (msg : Nat)
  /-- MIGRATION_ARRIVAL (R122): A migrating thread takes a target slot and resumes. -/
  | migrationArrival (msg : Nat)
  /-- TIMER_EXPIRY (R291): Slot timer steps from 1 to 0. -/
  | timerExpiry (core : Nat) (slot : Nat)
  /-- ASYNC_TRAP (R413): A pending MSG_LOST or TIMER trap is taken before the next instruction. -/
  | asyncTrap (core : Nat) (slot : Nat)
  /-- TASK_MESSAGE_VERDICT (R285): Task's home slice decides forward, append or bounce. -/
  | taskMessageVerdict (msg : Nat)
  /-- FORWARD_DELIVERY (R288): Forwarded message enters a slot mailbox, waking a sleeper. -/
  | forwardDelivery (msg : Nat)
  /-- BOUNCE (R289): A bounce arrives at the sending thread's bounce queue. -/
  | bounce (msg : Nat)
  /-- TASK_ENTRY_RECLAIM (R286): Hjelec reclaims an EXITED task entry to FREE. -/
  | taskEntryReclaim (ctx : Nat) (index : Nat)
  /-- MUSTER_STEP (R316): A muster step request arrives at the owning core. -/
  | musterStep (core : Nat)
  /-- MUSTER_ANSWER (R318): A held muster answer reaches its waiter. -/
  | musterAnswer (msg : Nat)
  /-- POLL_REISSUE (R323): Poll-mode waiter reissues every 1024 cycles. -/
  | pollReissue (core : Nat) (slot : Nat)
  /-- STEAL_ROUND (R344): Parked taker makes a new round of steals every 1024 cycles. -/
  | stealRound (core : Nat) (slot : Nat)
  /-- STEAL_ARRIVAL (R346): A stolen pair arrives at the thief and is held. -/
  | stealArrival (msg : Nat)
  /-- TRAVERSAL_COUNT_MESSAGE (R347): Member cluster reports up or done to the home cluster. -/
  | traversalCountMessage (msg : Nat)
  /-- TRAVERSAL_END (R347): END reaches members; parked TAKEPs answer false. -/
  | traversalEnd (cluster : Nat) (index : Nat)
  /-- COMMIT_STEP (R385): Home slice commits the accepted drafts in one step. -/
  | commitStep (ctx : Nat) (descriptor : Nat)
  /-- FAULT_SERVICE (R271): Hjelec services a fault record it owns. -/
  | faultService (die : Nat)
  /-- FAULT_BUFFER_CAPACITY (R271): Hjelec sets a die's fault-buffer capacity. -/
  | faultBufferCapacity (die : Nat) (capacity : Nat)
  /-- EVICTION_SELECT (R272): Eviction engine sets a page EVICTING. -/
  | evictionSelect (ctx : Nat) (va : Nat)
  /-- COMMIT_POINT (R272): Eviction commit point: shootdown and drain. -/
  | commitPoint (ctx : Nat) (va : Nat)
  /-- COPY_OUT_COMPLETE (R272): Evicted page copied out; BASKET or HOST. -/
  | copyOutComplete (ctx : Nat) (va : Nat) (quarters : List Nat)
  /-- RECALL (R272): Away page restored to a new frame and made RESIDENT. -/
  | recall (ctx : Nat) (va : Nat) (frame : Nat)
  /-- DUPLICATE (R274): Hjelec replicates a page to all groups. -/
  | duplicate (ctx : Nat) (va : Nat)
  /-- TRAIL_PAGE_MAP (R360): Hjelec maps the next Trail page for a parked recorded atomic. -/
  | trailPageMap (ctx : Nat) (frame : Option Nat)
  /-- PACKET_RECEIVED (R332): Peer packet lands in a window or is returned. -/
  | packetReceived (ctx : Nat) (window : Nat) (offset : Nat) (payload : List (BitVec 8))
  /-- PACKET_RETURNED (R332): A returned packet reaches the sender. -/
  | packetReturned (ctx : Nat) (arm : Nat) (packet : Nat) (reason : Nat)
  /-- BACKOFF_RESEND (R332): Returned packet is resent after its back-off. -/
  | backoffResend (ctx : Nat) (arm : Nat) (packet : Nat)
  /-- SEND_COMPLETE (R331): All packets accepted; SCTR updated; entry FREE. -/
  | sendComplete (ctx : Nat) (arm : Nat) (packet : Nat)
  /-- LINK_TRAINED (R327): Peer-link training ends in UP8, UP4 or FAILED. -/
  | linkTrained (link : Nat) (lanes : Nat)
  /-- LINK_LOSS (R327): Loss of signal or replay burst sends the link to TRAIN. -/
  | linkLoss (link : Nat)
  /-- LINK_DISABLE (R327): Hjelec disables a peer link. -/
  | linkDisable (link : Nat)
  /-- DIE_LINK_FAILURE (R336): UCIe link exhausts retries; contexts halt with LINK_FATAL. -/
  | dieLinkFailure (link : Nat)
  /-- UNCORRECTABLE_ERROR (R417): ECC uncorrectable error poisons or halts. -/
  | uncorrectableError (site : ErrorSite)
  /-- CORRECTED_ERROR (R417): ECC corrected error increments the die count. -/
  | correctedError (unit : Nat)
  /-- SCRUB (R424): Background scrub of SRAM or module lines. -/
  | scrub (core : Nat)
  /-- TELEMETRY_UPDATE (R425): Telemetry words updated every 2^16 cycles. -/
  | telemetryUpdate (unit : Nat) (power : BitVec 16) (temp : BitVec 8)
  /-- PRIMITIVE_ARRIVAL (R407): A primitive copy arrives at an owner and is HELD. -/
  | primitiveArrival (msg : Nat)
  /-- WATERMARK_FLIT (R401): Watermark flit updates an owner's global watermark. -/
  | watermarkFlit (msg : Nat)
  /-- FRAGMENT_START (R403): Owner binds a fragment thread for a quad. -/
  | fragmentStart (ctx : Nat) (owner : Nat) (core : Nat) (slot : Nat)
  /-- BLEND (R404): Blend unit applies a quad result in SEQ order. -/
  | blend (ctx : Nat) (owner : Nat)
  /-- FRAME_CLOSE_COMPLETE (R406): All tiles settled; FSTAT written and CLOSE resolves. -/
  | frameCloseComplete (ctx : Nat)
  /-- FLIT_REPLAY (R326): A peer-link flit that fails its CRC or goes unacknowledged is replayed and the link's REPLAYS count rises. -/
  | flitReplay (link : Nat)
  /-- CB4_LEAVE_END (R422): A cb4 leave grant ends once 16 cycles pass with no cb4 MMA on that engine, freeing cluster budget. -/
  | cb4LeaveEnd (core : Nat)
  /-- ANTI_ROLLBACK_RAISE (R421): On the host's explicit request Hjelec raises the anti-rollback value held in fuses. -/
  | antiRollbackRaise (value : Nat)
  /-- ADD (R131): x[d] := x[a] + x[b] modulo 2^64. -/
  | add (d : BitVec 5) (a : BitVec 5) (b : BitVec 5)
  /-- SUB (R131): x[d] := x[a] - x[b]. -/
  | sub (d : BitVec 5) (a : BitVec 5) (b : BitVec 5)
  /-- AND (R131): Bitwise AND of x[a] and x[b]. -/
  | and (d : BitVec 5) (a : BitVec 5) (b : BitVec 5)
  /-- OR (R131): Bitwise OR of x[a] and x[b]. -/
  | or (d : BitVec 5) (a : BitVec 5) (b : BitVec 5)
  /-- XOR (R131): Bitwise XOR of x[a] and x[b]. -/
  | xor (d : BitVec 5) (a : BitVec 5) (b : BitVec 5)
  /-- ANDN (R131): x[a] AND NOT x[b]. -/
  | andn (d : BitVec 5) (a : BitVec 5) (b : BitVec 5)
  /-- ORN (R131): x[a] OR NOT x[b]. -/
  | orn (d : BitVec 5) (a : BitVec 5) (b : BitVec 5)
  /-- SLL (R131): Logical left shift by x[b][5:0]. -/
  | sll (d : BitVec 5) (a : BitVec 5) (b : BitVec 5)
  /-- SRL (R131): Logical right shift by x[b][5:0]. -/
  | srl (d : BitVec 5) (a : BitVec 5) (b : BitVec 5)
  /-- SRA (R131): Arithmetic right shift by x[b][5:0]. -/
  | sra (d : BitVec 5) (a : BitVec 5) (b : BitVec 5)
  /-- ROL (R131): Rotate x[a] left by x[b][5:0]. -/
  | rol (d : BitVec 5) (a : BitVec 5) (b : BitVec 5)
  /-- ROR (R131): Rotate x[a] right by x[b][5:0]. -/
  | ror (d : BitVec 5) (a : BitVec 5) (b : BitVec 5)
  /-- MIN (R131): Signed minimum. -/
  | min (d : BitVec 5) (a : BitVec 5) (b : BitVec 5)
  /-- MAX (R131): Signed maximum. -/
  | max (d : BitVec 5) (a : BitVec 5) (b : BitVec 5)
  /-- MINU (R131): Unsigned minimum. -/
  | minu (d : BitVec 5) (a : BitVec 5) (b : BitVec 5)
  /-- MAXU (R131): Unsigned maximum. -/
  | maxu (d : BitVec 5) (a : BitVec 5) (b : BitVec 5)
  /-- ADDW (R131): 32-bit add, sign-extended. -/
  | addw (d : BitVec 5) (a : BitVec 5) (b : BitVec 5)
  /-- SUBW (R131): 32-bit subtract, sign-extended. -/
  | subw (d : BitVec 5) (a : BitVec 5) (b : BitVec 5)
  /-- SLLW (R131): 32-bit left shift, sign-extended. -/
  | sllw (d : BitVec 5) (a : BitVec 5) (b : BitVec 5)
  /-- SRLW (R131): 32-bit logical right shift, sign-extended. -/
  | srlw (d : BitVec 5) (a : BitVec 5) (b : BitVec 5)
  /-- SRAW (R131): 32-bit arithmetic right shift. -/
  | sraw (d : BitVec 5) (a : BitVec 5) (b : BitVec 5)
  /-- CLZ (R131): Count leading zeros of x[a]. -/
  | clz (d : BitVec 5) (a : BitVec 5)
  /-- CTZ (R131): Count trailing zeros of x[a]. -/
  | ctz (d : BitVec 5) (a : BitVec 5)
  /-- POPC (R131): Count one bits of x[a]. -/
  | popc (d : BitVec 5) (a : BitVec 5)
  /-- BREV (R131): Reverse the bits of x[a]. -/
  | brev (d : BitVec 5) (a : BitVec 5)
  /-- BSWAP (R131): Reverse the bytes of x[a]. -/
  | bswap (d : BitVec 5) (a : BitVec 5)
  /-- SEXT (R132): Sign-extend x[a] from the width coded in b. -/
  | sext (d : BitVec 5) (a : BitVec 5) (w : BitVec 5)
  /-- ZEXT (R132): Zero-extend x[a] from the width coded in b. -/
  | zext (d : BitVec 5) (a : BitVec 5) (w : BitVec 5)
  /-- LEA (R131): x[a] + (x[b] << s), s 0-7. -/
  | lea (d : BitVec 5) (a : BitVec 5) (b : BitVec 5) (h : BitVec 3)
  /-- MUL (R133): Low 64 bits of the product. -/
  | mul (d : BitVec 5) (a : BitVec 5) (b : BitVec 5)
  /-- MULH (R133): High half of signed product. -/
  | mulh (d : BitVec 5) (a : BitVec 5) (b : BitVec 5)
  /-- MULHU (R133): High half of unsigned product. -/
  | mulhu (d : BitVec 5) (a : BitVec 5) (b : BitVec 5)
  /-- MULHSU (R133): High half of signed by unsigned product. -/
  | mulhsu (d : BitVec 5) (a : BitVec 5) (b : BitVec 5)
  /-- DIV (R134): Signed quotient, never traps. -/
  | div (d : BitVec 5) (a : BitVec 5) (b : BitVec 5)
  /-- DIVU (R134): Unsigned quotient. -/
  | divu (d : BitVec 5) (a : BitVec 5) (b : BitVec 5)
  /-- REM (R134): Signed remainder. -/
  | rem (d : BitVec 5) (a : BitVec 5) (b : BitVec 5)
  /-- REMU (R134): Unsigned remainder. -/
  | remu (d : BitVec 5) (a : BitVec 5) (b : BitVec 5)
  /-- MULW (R133): 32-bit product, sign-extended. -/
  | mulw (d : BitVec 5) (a : BitVec 5) (b : BitVec 5)
  /-- DIVW (R134): 32-bit signed quotient. -/
  | divw (d : BitVec 5) (a : BitVec 5) (b : BitVec 5)
  /-- DIVUW (R134): 32-bit unsigned quotient. -/
  | divuw (d : BitVec 5) (a : BitVec 5) (b : BitVec 5)
  /-- REMW (R134): 32-bit signed remainder. -/
  | remw (d : BitVec 5) (a : BitVec 5) (b : BitVec 5)
  /-- REMUW (R134): 32-bit unsigned remainder. -/
  | remuw (d : BitVec 5) (a : BitVec 5) (b : BitVec 5)
  /-- ADDI (R135): x[a] + sign-extended immediate. -/
  | addi (d : BitVec 5) (a : BitVec 5) (i : BitVec 15)
  /-- ANDI (R135): x[a] AND sign-extended immediate. -/
  | andi (d : BitVec 5) (a : BitVec 5) (i : BitVec 15)
  /-- ORI (R135): x[a] OR sign-extended immediate. -/
  | ori (d : BitVec 5) (a : BitVec 5) (i : BitVec 15)
  /-- XORI (R135): x[a] XOR sign-extended immediate. -/
  | xori (d : BitVec 5) (a : BitVec 5) (i : BitVec 15)
  /-- SLLI (R136): Left shift by immediate. -/
  | slli (d : BitVec 5) (a : BitVec 5) (h : BitVec 6)
  /-- SRLI (R136): Logical right shift by immediate. -/
  | srli (d : BitVec 5) (a : BitVec 5) (h : BitVec 6)
  /-- SRAI (R136): Arithmetic right shift by immediate. -/
  | srai (d : BitVec 5) (a : BitVec 5) (h : BitVec 6)
  /-- RORI (R136): Rotate right by immediate. -/
  | rori (d : BitVec 5) (a : BitVec 5) (h : BitVec 6)
  /-- SLLIW (R136): 32-bit left shift by immediate. -/
  | slliw (d : BitVec 5) (a : BitVec 5) (h : BitVec 5)
  /-- SRLIW (R136): 32-bit logical right shift by immediate. -/
  | srliw (d : BitVec 5) (a : BitVec 5) (h : BitVec 5)
  /-- SRAIW (R136): 32-bit arithmetic right shift by immediate. -/
  | sraiw (d : BitVec 5) (a : BitVec 5) (h : BitVec 5)
  /-- BEXT (R137): Extract bit field, zero-extended. -/
  | bext (d : BitVec 5) (a : BitVec 5) (l : BitVec 6) (p : BitVec 6)
  /-- BEXTS (R137): Extract bit field, sign-extended. -/
  | bexts (d : BitVec 5) (a : BitVec 5) (l : BitVec 6) (p : BitVec 6)
  /-- BINS (R137): Insert low bits of x[a] into a field of x[d]. -/
  | bins (d : BitVec 5) (a : BitVec 5) (l : BitVec 6) (p : BitVec 6)
  /-- LUI (R138): x[d] := sext(imm20) x 4096. -/
  | lui (d : BitVec 5) (i : BitVec 20)
  /-- ADDPC (R138): x[d] := PC + sext(imm20) x 4096. -/
  | addpc (d : BitVec 5) (i : BitVec 20)
  /-- CMP_EQ (R112): Compare equal and write or combine a guard. -/
  | cmpEq (g : BitVec 3) (k : BitVec 2) (a : BitVec 5) (b : BitVec 5)
  /-- CMP_NE (R112): Compare not equal into a guard. -/
  | cmpNe (g : BitVec 3) (k : BitVec 2) (a : BitVec 5) (b : BitVec 5)
  /-- CMP_LT (R112): Signed less-than into a guard. -/
  | cmpLt (g : BitVec 3) (k : BitVec 2) (a : BitVec 5) (b : BitVec 5)
  /-- CMP_GE (R112): Signed greater-or-equal into a guard. -/
  | cmpGe (g : BitVec 3) (k : BitVec 2) (a : BitVec 5) (b : BitVec 5)
  /-- CMP_LTU (R112): Unsigned less-than into a guard. -/
  | cmpLtu (g : BitVec 3) (k : BitVec 2) (a : BitVec 5) (b : BitVec 5)
  /-- CMP_GEU (R112): Unsigned greater-or-equal into a guard. -/
  | cmpGeu (g : BitVec 3) (k : BitVec 2) (a : BitVec 5) (b : BitVec 5)
  /-- CMP_TST (R112): (a AND b) nonzero into a guard. -/
  | cmpTst (g : BitVec 3) (k : BitVec 2) (a : BitVec 5) (b : BitVec 5)
  /-- CMP_TSTZ (R112): (a AND b) zero into a guard. -/
  | cmpTstz (g : BitVec 3) (k : BitVec 2) (a : BitVec 5) (b : BitVec 5)
  /-- CMP_FEQ_S (R113): FP32 equal into a guard. -/
  | cmpFeqS (g : BitVec 3) (k : BitVec 2) (a : BitVec 5) (b : BitVec 5)
  /-- CMP_FLT_S (R113): FP32 less-than into a guard. -/
  | cmpFltS (g : BitVec 3) (k : BitVec 2) (a : BitVec 5) (b : BitVec 5)
  /-- CMP_FLE_S (R113): FP32 less-or-equal into a guard. -/
  | cmpFleS (g : BitVec 3) (k : BitVec 2) (a : BitVec 5) (b : BitVec 5)
  /-- CMP_FUN_S (R113): FP32 unordered into a guard. -/
  | cmpFunS (g : BitVec 3) (k : BitVec 2) (a : BitVec 5) (b : BitVec 5)
  /-- CMP_FEQ_D (R113): FP64 equal into a guard (F64). -/
  | cmpFeqD (g : BitVec 3) (k : BitVec 2) (a : BitVec 5) (b : BitVec 5)
  /-- CMP_FLT_D (R113): FP64 less-than into a guard (F64). -/
  | cmpFltD (g : BitVec 3) (k : BitVec 2) (a : BitVec 5) (b : BitVec 5)
  /-- CMP_FLE_D (R113): FP64 less-or-equal into a guard (F64). -/
  | cmpFleD (g : BitVec 3) (k : BitVec 2) (a : BitVec 5) (b : BitVec 5)
  /-- CMP_FUN_D (R113): FP64 unordered into a guard (F64). -/
  | cmpFunD (g : BitVec 3) (k : BitVec 2) (a : BitVec 5) (b : BitVec 5)
  /-- CMPI_EQ (R112): Compare x[a] with immediate, equal. -/
  | cmpiEq (g : BitVec 3) (k : BitVec 2) (a : BitVec 5) (i : BitVec 12)
  /-- CMPI_NE (R112): Compare with immediate, not equal. -/
  | cmpiNe (g : BitVec 3) (k : BitVec 2) (a : BitVec 5) (i : BitVec 12)
  /-- CMPI_LT (R112): Compare with immediate, signed less. -/
  | cmpiLt (g : BitVec 3) (k : BitVec 2) (a : BitVec 5) (i : BitVec 12)
  /-- CMPI_GE (R112): Compare with immediate, signed greater-or-equal. -/
  | cmpiGe (g : BitVec 3) (k : BitVec 2) (a : BitVec 5) (i : BitVec 12)
  /-- CMPI_LTU (R112): Compare with immediate, unsigned less. -/
  | cmpiLtu (g : BitVec 3) (k : BitVec 2) (a : BitVec 5) (i : BitVec 12)
  /-- CMPI_GEU (R112): Compare with immediate, unsigned greater-or-equal. -/
  | cmpiGeu (g : BitVec 3) (k : BitVec 2) (a : BitVec 5) (i : BitVec 12)
  /-- CMPI_TST (R112): Test bits against immediate, nonzero. -/
  | cmpiTst (g : BitVec 3) (k : BitVec 2) (a : BitVec 5) (i : BitVec 12)
  /-- CMPI_TSTZ (R112): Test bits against immediate, zero. -/
  | cmpiTstz (g : BitVec 3) (k : BitVec 2) (a : BitVec 5) (i : BitVec 12)
  /-- GAND (R114): Guard mask AND. -/
  | gand (d : BitVec 3) (a : BitVec 3) (b : BitVec 3)
  /-- GOR (R114): Guard mask OR. -/
  | gor (d : BitVec 3) (a : BitVec 3) (b : BitVec 3)
  /-- GXOR (R114): Guard mask XOR. -/
  | gxor (d : BitVec 3) (a : BitVec 3) (b : BitVec 3)
  /-- GANDN (R114): Guard mask AND NOT. -/
  | gandn (d : BitVec 3) (a : BitVec 3) (b : BitVec 3)
  /-- GNOT (R114): Guard mask NOT. -/
  | gnot (d : BitVec 3) (a : BitVec 3)
  /-- GSET (R114): Guard := RESOLVED with x[a][7:0]. -/
  | gset (d : BitVec 3) (a : BitVec 5)
  /-- GGET (R114): Read a guard's mask or PENDING state without parking. -/
  | gget (d : BitVec 5) (a : BitVec 3)
  /-- GWAIT (R114): Park until a guard is RESOLVED. -/
  | gwait (a : BitVec 3)
  /-- SEL (R114): Select x[a] or x[b] by bit 0 of guard g. -/
  | sel (d : BitVec 5) (a : BitVec 5) (b : BitVec 5) (g : BitVec 3)
  /-- FMADD_S (R144): FP32 fused a*b + c, one rounding. -/
  | fmaddS (d : BitVec 5) (a : BitVec 5) (b : BitVec 5) (c : BitVec 5)
  /-- FMSUB_S (R144): FP32 fused a*b - c. -/
  | fmsubS (d : BitVec 5) (a : BitVec 5) (b : BitVec 5) (c : BitVec 5)
  /-- FNMADD_S (R144): FP32 fused -(a*b) - c. -/
  | fnmaddS (d : BitVec 5) (a : BitVec 5) (b : BitVec 5) (c : BitVec 5)
  /-- FNMSUB_S (R144): FP32 fused -(a*b) + c. -/
  | fnmsubS (d : BitVec 5) (a : BitVec 5) (b : BitVec 5) (c : BitVec 5)
  /-- FMADD_D (R144): FP64 fused a*b + c (F64). -/
  | fmaddD (d : BitVec 5) (a : BitVec 5) (b : BitVec 5) (c : BitVec 5)
  /-- FMSUB_D (R144): FP64 fused a*b - c (F64). -/
  | fmsubD (d : BitVec 5) (a : BitVec 5) (b : BitVec 5) (c : BitVec 5)
  /-- FNMADD_D (R144): FP64 fused -(a*b) - c (F64). -/
  | fnmaddD (d : BitVec 5) (a : BitVec 5) (b : BitVec 5) (c : BitVec 5)
  /-- FNMSUB_D (R144): FP64 fused -(a*b) + c (F64). -/
  | fnmsubD (d : BitVec 5) (a : BitVec 5) (b : BitVec 5) (c : BitVec 5)
  /-- FADD_S (R140): FP32 add, correctly rounded under RND. -/
  | faddS (d : BitVec 5) (a : BitVec 5) (b : BitVec 5)
  /-- FSUB_S (R140): FP32 subtract. -/
  | fsubS (d : BitVec 5) (a : BitVec 5) (b : BitVec 5)
  /-- FMUL_S (R140): FP32 multiply. -/
  | fmulS (d : BitVec 5) (a : BitVec 5) (b : BitVec 5)
  /-- FDIV_S (R140): FP32 divide. -/
  | fdivS (d : BitVec 5) (a : BitVec 5) (b : BitVec 5)
  /-- FSQRT_S (R140): FP32 square root. -/
  | fsqrtS (d : BitVec 5) (a : BitVec 5)
  /-- FMIN_S (R141): FP32 minimum without rounding. -/
  | fminS (d : BitVec 5) (a : BitVec 5) (b : BitVec 5)
  /-- FMAX_S (R141): FP32 maximum without rounding. -/
  | fmaxS (d : BitVec 5) (a : BitVec 5) (b : BitVec 5)
  /-- FSGNJ_S (R142): FP32 copy with sign of x[b]. -/
  | fsgnjS (d : BitVec 5) (a : BitVec 5) (b : BitVec 5)
  /-- FSGNJN_S (R142): FP32 copy with inverted sign of x[b]. -/
  | fsgnjnS (d : BitVec 5) (a : BitVec 5) (b : BitVec 5)
  /-- FSGNJX_S (R142): FP32 copy with XOR of signs. -/
  | fsgnjxS (d : BitVec 5) (a : BitVec 5) (b : BitVec 5)
  /-- FCLASS_S (R143): FP32 class mask. -/
  | fclassS (d : BitVec 5) (a : BitVec 5)
  /-- FADD_D (R140): FP64 add (F64). -/
  | faddD (d : BitVec 5) (a : BitVec 5) (b : BitVec 5)
  /-- FSUB_D (R140): FP64 subtract (F64). -/
  | fsubD (d : BitVec 5) (a : BitVec 5) (b : BitVec 5)
  /-- FMUL_D (R140): FP64 multiply (F64). -/
  | fmulD (d : BitVec 5) (a : BitVec 5) (b : BitVec 5)
  /-- FDIV_D (R140): FP64 divide (F64). -/
  | fdivD (d : BitVec 5) (a : BitVec 5) (b : BitVec 5)
  /-- FSQRT_D (R140): FP64 square root (F64). -/
  | fsqrtD (d : BitVec 5) (a : BitVec 5)
  /-- FMIN_D (R141): FP64 minimum (F64). -/
  | fminD (d : BitVec 5) (a : BitVec 5) (b : BitVec 5)
  /-- FMAX_D (R141): FP64 maximum (F64). -/
  | fmaxD (d : BitVec 5) (a : BitVec 5) (b : BitVec 5)
  /-- FSGNJ_D (R142): FP64 sign copy (F64). -/
  | fsgnjD (d : BitVec 5) (a : BitVec 5) (b : BitVec 5)
  /-- FSGNJN_D (R142): FP64 inverted sign copy (F64). -/
  | fsgnjnD (d : BitVec 5) (a : BitVec 5) (b : BitVec 5)
  /-- FSGNJX_D (R142): FP64 XOR sign (F64). -/
  | fsgnjxD (d : BitVec 5) (a : BitVec 5) (b : BitVec 5)
  /-- FCLASS_D (R143): FP64 class mask (F64). -/
  | fclassD (d : BitVec 5) (a : BitVec 5)
  /-- FCVT_D_S (R145): Convert FP32 to FP64 (F64). -/
  | fcvtDS (d : BitVec 5) (a : BitVec 5)
  /-- FCVT_S_D (R145): Convert FP64 to FP32 (F64). -/
  | fcvtSD (d : BitVec 5) (a : BitVec 5)
  /-- FCVT_S_H (R145): Convert FP16 to FP32. -/
  | fcvtSH (d : BitVec 5) (a : BitVec 5)
  /-- FCVT_H_S (R145): Convert FP32 to FP16. -/
  | fcvtHS (d : BitVec 5) (a : BitVec 5)
  /-- FCVT_S_B (R145): Convert BF16 to FP32. -/
  | fcvtSB (d : BitVec 5) (a : BitVec 5)
  /-- FCVT_B_S (R145): Convert FP32 to BF16. -/
  | fcvtBS (d : BitVec 5) (a : BitVec 5)
  /-- FCVT_D_H (R145): Convert FP16 to FP64 (F64). -/
  | fcvtDH (d : BitVec 5) (a : BitVec 5)
  /-- FCVT_H_D (R145): Convert FP64 to FP16 (F64). -/
  | fcvtHD (d : BitVec 5) (a : BitVec 5)
  /-- FCVT_W_S (R145): FP32 to i32. -/
  | fcvtWS (d : BitVec 5) (a : BitVec 5)
  /-- FCVT_WU_S (R145): FP32 to n32. -/
  | fcvtWuS (d : BitVec 5) (a : BitVec 5)
  /-- FCVT_L_S (R145): FP32 to i64. -/
  | fcvtLS (d : BitVec 5) (a : BitVec 5)
  /-- FCVT_LU_S (R145): FP32 to n64. -/
  | fcvtLuS (d : BitVec 5) (a : BitVec 5)
  /-- FCVT_W_D (R145): FP64 to i32 (F64). -/
  | fcvtWD (d : BitVec 5) (a : BitVec 5)
  /-- FCVT_WU_D (R145): FP64 to n32 (F64). -/
  | fcvtWuD (d : BitVec 5) (a : BitVec 5)
  /-- FCVT_L_D (R145): FP64 to i64 (F64). -/
  | fcvtLD (d : BitVec 5) (a : BitVec 5)
  /-- FCVT_LU_D (R145): FP64 to n64 (F64). -/
  | fcvtLuD (d : BitVec 5) (a : BitVec 5)
  /-- FCVT_W_S_SAT (R145): FP32 to i32, saturating. -/
  | fcvtWSSat (d : BitVec 5) (a : BitVec 5)
  /-- FCVT_WU_S_SAT (R145): FP32 to n32, saturating. -/
  | fcvtWuSSat (d : BitVec 5) (a : BitVec 5)
  /-- FCVT_L_S_SAT (R145): FP32 to i64, saturating. -/
  | fcvtLSSat (d : BitVec 5) (a : BitVec 5)
  /-- FCVT_LU_S_SAT (R145): FP32 to n64, saturating. -/
  | fcvtLuSSat (d : BitVec 5) (a : BitVec 5)
  /-- FCVT_W_D_SAT (R145): FP64 to i32, saturating (F64). -/
  | fcvtWDSat (d : BitVec 5) (a : BitVec 5)
  /-- FCVT_WU_D_SAT (R145): FP64 to n32, saturating (F64). -/
  | fcvtWuDSat (d : BitVec 5) (a : BitVec 5)
  /-- FCVT_L_D_SAT (R145): FP64 to i64, saturating (F64). -/
  | fcvtLDSat (d : BitVec 5) (a : BitVec 5)
  /-- FCVT_LU_D_SAT (R145): FP64 to n64, saturating (F64). -/
  | fcvtLuDSat (d : BitVec 5) (a : BitVec 5)
  /-- FCVT_S_W (R145): i32 to FP32. -/
  | fcvtSW (d : BitVec 5) (a : BitVec 5)
  /-- FCVT_S_WU (R145): n32 to FP32. -/
  | fcvtSWu (d : BitVec 5) (a : BitVec 5)
  /-- FCVT_S_L (R145): i64 to FP32. -/
  | fcvtSL (d : BitVec 5) (a : BitVec 5)
  /-- FCVT_S_LU (R145): n64 to FP32. -/
  | fcvtSLu (d : BitVec 5) (a : BitVec 5)
  /-- FCVT_D_W (R145): i32 to FP64 (F64). -/
  | fcvtDW (d : BitVec 5) (a : BitVec 5)
  /-- FCVT_D_WU (R145): n32 to FP64 (F64). -/
  | fcvtDWu (d : BitVec 5) (a : BitVec 5)
  /-- FCVT_D_L (R145): i64 to FP64 (F64). -/
  | fcvtDL (d : BitVec 5) (a : BitVec 5)
  /-- FCVT_D_LU (R145): n64 to FP64 (F64). -/
  | fcvtDLu (d : BitVec 5) (a : BitVec 5)
  /-- BC_EQ (R115): Branch PC-relative if equal. -/
  | bcEq (a : BitVec 5) (b : BitVec 5) (o : BitVec 12)
  /-- BC_NE (R115): Branch if not equal. -/
  | bcNe (a : BitVec 5) (b : BitVec 5) (o : BitVec 12)
  /-- BC_LT (R115): Branch if signed less. -/
  | bcLt (a : BitVec 5) (b : BitVec 5) (o : BitVec 12)
  /-- BC_GE (R115): Branch if signed greater-or-equal. -/
  | bcGe (a : BitVec 5) (b : BitVec 5) (o : BitVec 12)
  /-- BC_LTU (R115): Branch if unsigned less. -/
  | bcLtu (a : BitVec 5) (b : BitVec 5) (o : BitVec 12)
  /-- BC_GEU (R115): Branch if unsigned greater-or-equal. -/
  | bcGeu (a : BitVec 5) (b : BitVec 5) (o : BitVec 12)
  /-- JAL (R116): Jump PC-relative and link. -/
  | jal (d : BitVec 5) (o : BitVec 20)
  /-- JALR (R116): Jump to register plus offset and link. -/
  | jalr (d : BitVec 5) (a : BitVec 5) (i : BitVec 15)
  /-- PTB (R117): Load a tb register PC-relative. -/
  | ptb (t : BitVec 2) (o : BitVec 20)
  /-- BT (R118): Branch through tb if guard bit 0 is 1. -/
  | bt (t : BitVec 2) (g : BitVec 3)
  /-- BTN (R118): Branch through tb if guard bit 0 is 0. -/
  | btn (t : BitVec 2) (g : BitVec 3)
  /-- BTA (R118): Branch through tb always. -/
  | bta (t : BitVec 2)
  /-- PTBR (R118): Load a tb register from x[a]. -/
  | ptbr (t : BitVec 2) (a : BitVec 5)
  /-- CALLT (R118): Call through tb, linking into x[d]. -/
  | callt (d : BitVec 5) (t : BitVec 2)
  /-- LD_B (R152): Load signed byte through a segment. -/
  | ldB (d : BitVec 5) (a : BitVec 5) (s : BitVec 3) (i : BitVec 9)
  /-- LD_BU (R152): Load unsigned byte. -/
  | ldBu (d : BitVec 5) (a : BitVec 5) (s : BitVec 3) (i : BitVec 9)
  /-- LD_H (R152): Load signed halfword. -/
  | ldH (d : BitVec 5) (a : BitVec 5) (s : BitVec 3) (i : BitVec 9)
  /-- LD_HU (R152): Load unsigned halfword. -/
  | ldHu (d : BitVec 5) (a : BitVec 5) (s : BitVec 3) (i : BitVec 9)
  /-- LD_W (R152): Load signed word. -/
  | ldW (d : BitVec 5) (a : BitVec 5) (s : BitVec 3) (i : BitVec 9)
  /-- LD_WU (R152): Load unsigned word. -/
  | ldWu (d : BitVec 5) (a : BitVec 5) (s : BitVec 3) (i : BitVec 9)
  /-- LD_D (R152): Load doubleword. -/
  | ldD (d : BitVec 5) (a : BitVec 5) (s : BitVec 3) (i : BitVec 9)
  /-- ST (R152): Store 1, 2, 4 or 8 bytes of x[d]. -/
  | st (d : BitVec 5) (a : BitVec 5) (s : BitVec 3) (w : BitVec 2) (i : BitVec 9)
  /-- LDS_K (R153): Wait for a full granule and read it, leaving it full. -/
  | ldsK (d : BitVec 5) (a : BitVec 5) (s : BitVec 3) (z : BitVec 1) (i : BitVec 9)
  /-- LDS_C (R153): Wait for a full granule, read it and clear it empty. -/
  | ldsC (d : BitVec 5) (a : BitVec 5) (s : BitVec 3) (z : BitVec 1) (i : BitVec 9)
  /-- STF (R154): Store and set the granule full; release at segment scope. -/
  | stf (d : BitVec 5) (a : BitVec 5) (s : BitVec 3) (z : BitVec 1) (i : BitVec 9)
  /-- STF_E (R154): Wait for empty, then store and fill. -/
  | stfE (d : BitVec 5) (a : BitVec 5) (s : BitVec 3) (z : BitVec 1) (i : BitVec 9)
  /-- FESET (R156): Set a full/empty bit; release. -/
  | feset (a : BitVec 5) (s : BitVec 3)
  /-- FECLR (R156): Clear a full/empty bit. -/
  | feclr (a : BitVec 5) (s : BitVec 3)
  /-- FETEST (R156): Read a full/empty bit into x[d]. -/
  | fetest (d : BitVec 5) (a : BitVec 5) (s : BitVec 3)
  /-- FEWAIT (R156): Park until a full/empty bit is full. -/
  | fewait (a : BitVec 5) (s : BitVec 3)
  /-- LDV (R157): Load 32 bytes into v[d]. -/
  | ldv (d : BitVec 5) (a : BitVec 5) (s : BitVec 3) (i : BitVec 9)
  /-- STV (R157): Store 32 bytes of v[d]. -/
  | stv (d : BitVec 5) (a : BitVec 5) (s : BitVec 3) (i : BitVec 9)
  /-- LDVS (R157): Wait for two full granules and load them. -/
  | ldvs (d : BitVec 5) (a : BitVec 5) (s : BitVec 3) (i : BitVec 9)
  /-- STVF (R157): Store 32 bytes and fill both granules. -/
  | stvf (d : BitVec 5) (a : BitVec 5) (s : BitVec 3) (i : BitVec 9)
  /-- LDVH (R157): Load 16 bytes into the low half of v[d]. -/
  | ldvh (d : BitVec 5) (a : BitVec 5) (s : BitVec 3) (i : BitVec 9)
  /-- STVH (R157): Store the low 16 bytes of v[d]. -/
  | stvh (d : BitVec 5) (a : BitVec 5) (s : BitVec 3) (i : BitVec 9)
  /-- LDVB (R157): Broadcast 4 bytes to every lane. -/
  | ldvb (d : BitVec 5) (a : BitVec 5) (s : BitVec 3) (i : BitVec 9)
  /-- LDX (R160): Decode 8 formatted-page elements to FP32 lanes. -/
  | ldx (d : BitVec 5) (a : BitVec 5) (s : BitVec 3) (g : BitVec 3) (n : BitVec 1)
  /-- LDXB (R160): Decode 16 formatted-page elements to BF16 lanes. -/
  | ldxb (d : BitVec 5) (a : BitVec 5) (s : BitVec 3) (g : BitVec 3) (n : BitVec 1)
  /-- STBLK (R161): Encode one 32-element block with its scale. -/
  | stblk (d : BitVec 3) (a : BitVec 5) (s : BitVec 3) (g : BitVec 3) (n : BitVec 1)
  /-- PREF (R162): Prefetch a line into the cluster cache. -/
  | pref (a : BitVec 5) (s : BitVec 3) (g : BitVec 3) (n : BitVec 1)
  /-- AMSEND (R168): Send an active message to a core. -/
  | amsend (d : BitVec 5) (a : BitVec 5) (b : BitVec 4) (g : BitVec 3) (n : BitVec 1)
  /-- AMRET (R168): End a handler, replying to RFETCH if needed. -/
  | amret (a : BitVec 5) (g : BitVec 3) (n : BitVec 1)
  /-- RFETCH (R168): Send an active message and park for its reply. -/
  | rfetch (d : BitVec 5) (a : BitVec 5) (b : BitVec 4) (g : BitVec 3) (n : BitVec 1)
  /-- ATOM_ADD (R241): 64-bit atomic add at the execution point. -/
  | atomAdd (d : BitVec 5) (a : BitVec 5) (b : BitVec 5) (c : BitVec 5) (r : BitVec 2)
  /-- ATOM_AND (R241): 64-bit atomic AND. -/
  | atomAnd (d : BitVec 5) (a : BitVec 5) (b : BitVec 5) (c : BitVec 5) (r : BitVec 2)
  /-- ATOM_OR (R241): 64-bit atomic OR. -/
  | atomOr (d : BitVec 5) (a : BitVec 5) (b : BitVec 5) (c : BitVec 5) (r : BitVec 2)
  /-- ATOM_XOR (R241): 64-bit atomic XOR. -/
  | atomXor (d : BitVec 5) (a : BitVec 5) (b : BitVec 5) (c : BitVec 5) (r : BitVec 2)
  /-- ATOM_XCHG (R241): 64-bit atomic exchange. -/
  | atomXchg (d : BitVec 5) (a : BitVec 5) (b : BitVec 5) (c : BitVec 5) (r : BitVec 2)
  /-- ATOM_MIN (R241): 64-bit atomic signed minimum. -/
  | atomMin (d : BitVec 5) (a : BitVec 5) (b : BitVec 5) (c : BitVec 5) (r : BitVec 2)
  /-- ATOM_MAX (R241): 64-bit atomic signed maximum. -/
  | atomMax (d : BitVec 5) (a : BitVec 5) (b : BitVec 5) (c : BitVec 5) (r : BitVec 2)
  /-- ATOM_CAS (R241): 64-bit compare and swap. -/
  | atomCas (d : BitVec 5) (a : BitVec 5) (b : BitVec 4) (c : BitVec 5) (r : BitVec 2)
  /-- ATOMW_ADD (R241): 32-bit atomic add. -/
  | atomwAdd (d : BitVec 5) (a : BitVec 5) (b : BitVec 5) (c : BitVec 5) (r : BitVec 2)
  /-- ATOMW_AND (R241): 32-bit atomic AND. -/
  | atomwAnd (d : BitVec 5) (a : BitVec 5) (b : BitVec 5) (c : BitVec 5) (r : BitVec 2)
  /-- ATOMW_OR (R241): 32-bit atomic OR. -/
  | atomwOr (d : BitVec 5) (a : BitVec 5) (b : BitVec 5) (c : BitVec 5) (r : BitVec 2)
  /-- ATOMW_XOR (R241): 32-bit atomic XOR. -/
  | atomwXor (d : BitVec 5) (a : BitVec 5) (b : BitVec 5) (c : BitVec 5) (r : BitVec 2)
  /-- ATOMW_XCHG (R241): 32-bit atomic exchange. -/
  | atomwXchg (d : BitVec 5) (a : BitVec 5) (b : BitVec 5) (c : BitVec 5) (r : BitVec 2)
  /-- ATOMW_MIN (R241): 32-bit atomic signed minimum. -/
  | atomwMin (d : BitVec 5) (a : BitVec 5) (b : BitVec 5) (c : BitVec 5) (r : BitVec 2)
  /-- ATOMW_MAX (R241): 32-bit atomic signed maximum. -/
  | atomwMax (d : BitVec 5) (a : BitVec 5) (b : BitVec 5) (c : BitVec 5) (r : BitVec 2)
  /-- ATOMW_CAS (R241): 32-bit compare and swap. -/
  | atomwCas (d : BitVec 5) (a : BitVec 5) (b : BitVec 4) (c : BitVec 5) (r : BitVec 2)
  /-- ATOMX_MINU (R241): 64-bit atomic unsigned minimum. -/
  | atomxMinu (d : BitVec 5) (a : BitVec 5) (b : BitVec 5) (c : BitVec 5) (r : BitVec 2)
  /-- ATOMX_MAXU (R241): 64-bit atomic unsigned maximum. -/
  | atomxMaxu (d : BitVec 5) (a : BitVec 5) (b : BitVec 5) (c : BitVec 5) (r : BitVec 2)
  /-- ATOMX_FMIN_S (R242): Atomic FP32 minimum in memory. -/
  | atomxFminS (d : BitVec 5) (a : BitVec 5) (b : BitVec 5) (c : BitVec 5) (r : BitVec 2)
  /-- ATOMX_FMAX_S (R242): Atomic FP32 maximum in memory. -/
  | atomxFmaxS (d : BitVec 5) (a : BitVec 5) (b : BitVec 5) (c : BitVec 5) (r : BitVec 2)
  /-- ATOMX_FMIN_D (R242): Atomic FP64 minimum in memory. -/
  | atomxFminD (d : BitVec 5) (a : BitVec 5) (b : BitVec 5) (c : BitVec 5) (r : BitVec 2)
  /-- ATOMX_FMAX_D (R242): Atomic FP64 maximum in memory. -/
  | atomxFmaxD (d : BitVec 5) (a : BitVec 5) (b : BitVec 5) (c : BitVec 5) (r : BitVec 2)
  /-- XSET (R244): Clear an exact cell and set its anchor. -/
  | xset (a : BitVec 5) (b : BitVec 5)
  /-- XADD_S (R244): Add an FP32 value to an exact cell. -/
  | xaddS (a : BitVec 5) (b : BitVec 5)
  /-- XADD_D (R244): Add an FP64 value to an exact cell. -/
  | xaddD (a : BitVec 5) (b : BitVec 5)
  /-- XADD_B (R244): Add a block-form value s x 2^e to an exact cell. -/
  | xaddB (a : BitVec 5) (b : BitVec 5) (c : BitVec 5)
  /-- XRD_S (R245): Read an exact cell rounded to FP32. -/
  | xrdS (d : BitVec 5) (a : BitVec 5)
  /-- XRD_D (R245): Read an exact cell rounded to FP64. -/
  | xrdD (d : BitVec 5) (a : BitVec 5)
  /-- XMAXE (R246): Raise an empty cell's anchor and report it. -/
  | xmaxe (d : BitVec 5) (a : BitVec 5) (b : BitVec 5)
  /-- FENCE_ACQ (R232): Acquire fence at a scope. -/
  | fenceAcq (a : BitVec 5)
  /-- FENCE_REL (R232): Release fence: park until earlier writes are performed at scope. -/
  | fenceRel (a : BitVec 5)
  /-- FENCE_AR (R232): Acquire-release fence in the single AR order. -/
  | fenceAr (a : BitVec 5)
  /-- VADD (R176): Integer lane add. -/
  | vadd (d : BitVec 5) (a : BitVec 5) (b : BitVec 5) (m : BitVec 3) (t : BitVec 2)
  /-- VSUB (R176): Integer lane subtract. -/
  | vsub (d : BitVec 5) (a : BitVec 5) (b : BitVec 5) (m : BitVec 3) (t : BitVec 2)
  /-- VMUL (R176): Integer lane multiply, low half. -/
  | vmul (d : BitVec 5) (a : BitVec 5) (b : BitVec 5) (m : BitVec 3) (t : BitVec 2)
  /-- VMULH (R176): Signed lane multiply, high half. -/
  | vmulh (d : BitVec 5) (a : BitVec 5) (b : BitVec 5) (m : BitVec 3) (t : BitVec 2)
  /-- VMULHN (R176): Unsigned lane multiply, high half. -/
  | vmulhn (d : BitVec 5) (a : BitVec 5) (b : BitVec 5) (m : BitVec 3) (t : BitVec 2)
  /-- VAND (R176): Lane AND. -/
  | vand (d : BitVec 5) (a : BitVec 5) (b : BitVec 5) (m : BitVec 3) (t : BitVec 2)
  /-- VOR (R176): Lane OR. -/
  | vor (d : BitVec 5) (a : BitVec 5) (b : BitVec 5) (m : BitVec 3) (t : BitVec 2)
  /-- VXOR (R176): Lane XOR. -/
  | vxor (d : BitVec 5) (a : BitVec 5) (b : BitVec 5) (m : BitVec 3) (t : BitVec 2)
  /-- VANDN (R176): Lane AND NOT. -/
  | vandn (d : BitVec 5) (a : BitVec 5) (b : BitVec 5) (m : BitVec 3) (t : BitVec 2)
  /-- VSHL (R176): Lane left shift. -/
  | vshl (d : BitVec 5) (a : BitVec 5) (b : BitVec 5) (m : BitVec 3) (t : BitVec 2)
  /-- VSHR (R176): Lane logical right shift. -/
  | vshr (d : BitVec 5) (a : BitVec 5) (b : BitVec 5) (m : BitVec 3) (t : BitVec 2)
  /-- VSRA (R176): Lane arithmetic right shift. -/
  | vsra (d : BitVec 5) (a : BitVec 5) (b : BitVec 5) (m : BitVec 3) (t : BitVec 2)
  /-- VMIN (R176): Lane signed minimum. -/
  | vmin (d : BitVec 5) (a : BitVec 5) (b : BitVec 5) (m : BitVec 3) (t : BitVec 2)
  /-- VMAX (R176): Lane signed maximum. -/
  | vmax (d : BitVec 5) (a : BitVec 5) (b : BitVec 5) (m : BitVec 3) (t : BitVec 2)
  /-- VMINN (R176): Lane unsigned minimum. -/
  | vminn (d : BitVec 5) (a : BitVec 5) (b : BitVec 5) (m : BitVec 3) (t : BitVec 2)
  /-- VMAXN (R176): Lane unsigned maximum. -/
  | vmaxn (d : BitVec 5) (a : BitVec 5) (b : BitVec 5) (m : BitVec 3) (t : BitVec 2)
  /-- VABS (R176): Lane absolute value. -/
  | vabs (d : BitVec 5) (a : BitVec 5) (m : BitVec 3) (t : BitVec 2)
  /-- VNEG (R176): Lane negate. -/
  | vneg (d : BitVec 5) (a : BitVec 5) (m : BitVec 3) (t : BitVec 2)
  /-- VADDS (R176): Lane saturating add. -/
  | vadds (d : BitVec 5) (a : BitVec 5) (b : BitVec 5) (m : BitVec 3) (t : BitVec 2)
  /-- VSUBS (R176): Lane saturating subtract. -/
  | vsubs (d : BitVec 5) (a : BitVec 5) (b : BitVec 5) (m : BitVec 3) (t : BitVec 2)
  /-- VADDF (R178): Floating lane add. -/
  | vaddf (d : BitVec 5) (a : BitVec 5) (b : BitVec 5) (m : BitVec 3) (p : BitVec 1)
  /-- VSUBF (R178): Floating lane subtract. -/
  | vsubf (d : BitVec 5) (a : BitVec 5) (b : BitVec 5) (m : BitVec 3) (p : BitVec 1)
  /-- VMULF (R178): Floating lane multiply. -/
  | vmulf (d : BitVec 5) (a : BitVec 5) (b : BitVec 5) (m : BitVec 3) (p : BitVec 1)
  /-- VDIVF (R178): Floating lane divide. -/
  | vdivf (d : BitVec 5) (a : BitVec 5) (b : BitVec 5) (m : BitVec 3) (p : BitVec 1)
  /-- VMINF (R178): Floating lane minimum. -/
  | vminf (d : BitVec 5) (a : BitVec 5) (b : BitVec 5) (m : BitVec 3) (p : BitVec 1)
  /-- VMAXF (R178): Floating lane maximum. -/
  | vmaxf (d : BitVec 5) (a : BitVec 5) (b : BitVec 5) (m : BitVec 3) (p : BitVec 1)
  /-- VABSF (R178): Clear lane sign bits. -/
  | vabsf (d : BitVec 5) (a : BitVec 5) (m : BitVec 3) (p : BitVec 1)
  /-- VNEGF (R178): Invert lane sign bits. -/
  | vnegf (d : BitVec 5) (a : BitVec 5) (m : BitVec 3) (p : BitVec 1)
  /-- VSQRT (R178): Lane square root. -/
  | vsqrt (d : BitVec 5) (a : BitVec 5) (m : BitVec 3) (p : BitVec 1)
  /-- VRCP (R43): Correctly rounded lane reciprocal. -/
  | vrcp (d : BitVec 5) (a : BitVec 5) (m : BitVec 3) (p : BitVec 1)
  /-- VRSQ (R43): Correctly rounded reciprocal square root. -/
  | vrsq (d : BitVec 5) (a : BitVec 5) (m : BitVec 3) (p : BitVec 1)
  /-- VEXP2 (R43): Correctly rounded 2^x per lane. -/
  | vexp2 (d : BitVec 5) (a : BitVec 5) (m : BitVec 3) (p : BitVec 1)
  /-- VLOG2 (R43): Correctly rounded log2 per lane. -/
  | vlog2 (d : BitVec 5) (a : BitVec 5) (m : BitVec 3) (p : BitVec 1)
  /-- VSINPI (R43): Correctly rounded sin(pi x). -/
  | vsinpi (d : BitVec 5) (a : BitVec 5) (m : BitVec 3) (p : BitVec 1)
  /-- VCOSPI (R43): Correctly rounded cos(pi x). -/
  | vcospi (d : BitVec 5) (a : BitVec 5) (m : BitVec 3) (p : BitVec 1)
  /-- VFLOOR (R178): Round lanes to integral toward -inf. -/
  | vfloor (d : BitVec 5) (a : BitVec 5) (m : BitVec 3) (p : BitVec 1)
  /-- VCEIL (R178): Round lanes to integral toward +inf. -/
  | vceil (d : BitVec 5) (a : BitVec 5) (m : BitVec 3) (p : BitVec 1)
  /-- VTRUNC (R178): Round lanes to integral toward zero. -/
  | vtrunc (d : BitVec 5) (a : BitVec 5) (m : BitVec 3) (p : BitVec 1)
  /-- VRINT (R178): Round lanes to integral under RND. -/
  | vrint (d : BitVec 5) (a : BitVec 5) (m : BitVec 3) (p : BitVec 1)
  /-- VCLASS (R178): Lane class mask. -/
  | vclass (d : BitVec 5) (a : BitVec 5) (m : BitVec 3) (p : BitVec 1)
  /-- VADDD (R178): FP64 lane add (F64). -/
  | vaddd (d : BitVec 5) (a : BitVec 5) (b : BitVec 5) (m : BitVec 3)
  /-- VSUBD (R178): FP64 lane subtract (F64). -/
  | vsubd (d : BitVec 5) (a : BitVec 5) (b : BitVec 5) (m : BitVec 3)
  /-- VMULD (R178): FP64 lane multiply (F64). -/
  | vmuld (d : BitVec 5) (a : BitVec 5) (b : BitVec 5) (m : BitVec 3)
  /-- VDIVD (R178): FP64 lane divide (F64). -/
  | vdivd (d : BitVec 5) (a : BitVec 5) (b : BitVec 5) (m : BitVec 3)
  /-- VMIND (R178): FP64 lane minimum (F64). -/
  | vmind (d : BitVec 5) (a : BitVec 5) (b : BitVec 5) (m : BitVec 3)
  /-- VMAXD (R178): FP64 lane maximum (F64). -/
  | vmaxd (d : BitVec 5) (a : BitVec 5) (b : BitVec 5) (m : BitVec 3)
  /-- VSQRTD (R178): FP64 lane square root (F64). -/
  | vsqrtd (d : BitVec 5) (a : BitVec 5) (m : BitVec 3)
  /-- VFMAD (R178): FP64 lane fused multiply-add into v[d] (F64). -/
  | vfmad (d : BitVec 5) (a : BitVec 5) (b : BitVec 5) (m : BitVec 3)
  /-- VFMA (R179): FP32 lane fused a*b + c. -/
  | vfma (d : BitVec 5) (a : BitVec 5) (b : BitVec 5) (c : BitVec 5) (m : BitVec 3)
  /-- VFMS (R179): FP32 lane fused a*b - c. -/
  | vfms (d : BitVec 5) (a : BitVec 5) (b : BitVec 5) (c : BitVec 5) (m : BitVec 3)
  /-- VFNMA (R179): FP32 lane fused -(a*b) - c. -/
  | vfnma (d : BitVec 5) (a : BitVec 5) (b : BitVec 5) (c : BitVec 5) (m : BitVec 3)
  /-- VFNMS (R179): FP32 lane fused -(a*b) + c. -/
  | vfnms (d : BitVec 5) (a : BitVec 5) (b : BitVec 5) (c : BitVec 5) (m : BitVec 3)
  /-- VFMAH (R180): FP16 lane fused multiply-add. -/
  | vfmah (d : BitVec 5) (a : BitVec 5) (b : BitVec 5) (c : BitVec 5) (m : BitVec 3)
  /-- VDOT4I (R180): Signed 8-bit four-way dot product into 32-bit lanes. -/
  | vdot4i (d : BitVec 5) (a : BitVec 5) (b : BitVec 5) (c : BitVec 5) (m : BitVec 3)
  /-- VDOT4N (R180): Unsigned 8-bit four-way dot product. -/
  | vdot4n (d : BitVec 5) (a : BitVec 5) (b : BitVec 5) (c : BitVec 5) (m : BitVec 3)
  /-- VDOT2BF (R180): BF16 pair dot product into FP32, one rounding. -/
  | vdot2bf (d : BitVec 5) (a : BitVec 5) (b : BitVec 5) (c : BitVec 5) (m : BitVec 3)
  /-- VCMP_EQ (R181): Lane equal compare into a guard. -/
  | vcmpEq (g : BitVec 3) (k : BitVec 2) (a : BitVec 5) (b : BitVec 5) (m : BitVec 3)
  /-- VCMP_NE (R181): Lane not-equal compare into a guard. -/
  | vcmpNe (g : BitVec 3) (k : BitVec 2) (a : BitVec 5) (b : BitVec 5) (m : BitVec 3)
  /-- VCMP_LT (R181): Lane signed less compare. -/
  | vcmpLt (g : BitVec 3) (k : BitVec 2) (a : BitVec 5) (b : BitVec 5) (m : BitVec 3)
  /-- VCMP_GE (R181): Lane signed greater-or-equal compare. -/
  | vcmpGe (g : BitVec 3) (k : BitVec 2) (a : BitVec 5) (b : BitVec 5) (m : BitVec 3)
  /-- VCMP_LTU (R181): Lane unsigned less compare. -/
  | vcmpLtu (g : BitVec 3) (k : BitVec 2) (a : BitVec 5) (b : BitVec 5) (m : BitVec 3)
  /-- VCMP_GEU (R181): Lane unsigned greater-or-equal compare. -/
  | vcmpGeu (g : BitVec 3) (k : BitVec 2) (a : BitVec 5) (b : BitVec 5) (m : BitVec 3)
  /-- VCMP_FEQ (R181): Lane FP32 equal compare. -/
  | vcmpFeq (g : BitVec 3) (k : BitVec 2) (a : BitVec 5) (b : BitVec 5) (m : BitVec 3)
  /-- VCMP_FLT (R181): Lane FP32 less compare. -/
  | vcmpFlt (g : BitVec 3) (k : BitVec 2) (a : BitVec 5) (b : BitVec 5) (m : BitVec 3)
  /-- VCMP_FLE (R181): Lane FP32 less-or-equal compare. -/
  | vcmpFle (g : BitVec 3) (k : BitVec 2) (a : BitVec 5) (b : BitVec 5) (m : BitVec 3)
  /-- VCMP_FUN (R181): Lane FP32 unordered compare. -/
  | vcmpFun (g : BitVec 3) (k : BitVec 2) (a : BitVec 5) (b : BitVec 5) (m : BitVec 3)
  /-- VSEL (R182): Select lanes of v[a] or v[b] by a guard mask. -/
  | vsel (d : BitVec 5) (a : BitVec 5) (b : BitVec 5) (m : BitVec 3)
  /-- VBCAST (R182): Broadcast x[a][31:0] to enabled lanes. -/
  | vbcast (d : BitVec 5) (a : BitVec 5) (m : BitVec 3)
  /-- VINS (R182): Insert x[a] into one lane. -/
  | vins (d : BitVec 5) (a : BitVec 5) (b : BitVec 5) (m : BitVec 3)
  /-- VEXT (R182): Extract one lane into x[d]. -/
  | vext (d : BitVec 5) (a : BitVec 5) (b : BitVec 5)
  /-- VPERM (R182): Permute lanes by index vector. -/
  | vperm (d : BitVec 5) (a : BitVec 5) (b : BitVec 5) (m : BitVec 3)
  /-- VSHUF (R182): Shuffle lanes from v[a] and old v[d]. -/
  | vshuf (d : BitVec 5) (a : BitVec 5) (b : BitVec 5) (m : BitVec 3)
  /-- VREDADDF (R183): Ordered FP32 sum of enabled lanes. -/
  | vredaddf (d : BitVec 5) (a : BitVec 5) (m : BitVec 3)
  /-- VREDMAXF (R183): FP32 maximum of enabled lanes. -/
  | vredmaxf (d : BitVec 5) (a : BitVec 5) (m : BitVec 3)
  /-- VREDMINF (R183): FP32 minimum of enabled lanes. -/
  | vredminf (d : BitVec 5) (a : BitVec 5) (m : BitVec 3)
  /-- VREDADDI (R183): Exact integer sum of enabled lanes. -/
  | vredaddi (d : BitVec 5) (a : BitVec 5) (m : BitVec 3)
  /-- VMOV (R182): Copy enabled lanes. -/
  | vmov (d : BitVec 5) (a : BitVec 5) (m : BitVec 3)
  /-- VIOTA (R182): Lane i := x[a] + i. -/
  | viota (d : BitVec 5) (a : BitVec 5) (m : BitVec 3)
  /-- VCVT (R184): Convert lanes between formats. -/
  | vcvt (d : BitVec 5) (a : BitVec 5) (m : BitVec 3) (t : BitVec 1) (dst : BitVec 3) (src : BitVec 3)
  /-- MZERO (R191): Queue a command that zeroes an accumulator. -/
  | mzero (d : BitVec 2) (g : BitVec 3) (n : BitVec 1)
  /-- MLDA (R196): Check and queue a gathered load of the A latch. -/
  | mlda (d : BitVec 5) (a : BitVec 5) (b : BitVec 5) (g : BitVec 3) (n : BitVec 1)
  /-- MLDB (R196): Check and queue a gathered load of the B latch. -/
  | mldb (d : BitVec 5) (a : BitVec 5) (b : BitVec 5) (g : BitVec 3) (n : BitVec 1)
  /-- MMA (R191): Queue a multiply-accumulate into accD. -/
  | mma (d : BitVec 2) (g : BitVec 3) (n : BitVec 1)
  /-- MGANG (R198): Queue a ganged MMA with the cluster row. -/
  | mgang (d : BitVec 2) (a : BitVec 5) (g : BitVec 3) (n : BitVec 1)
  /-- MDRAIN (R199): Check and queue a drain of an accumulator to the own scratchpad. -/
  | mdrain (d : BitVec 3) (a : BitVec 2) (b : BitVec 5) (g : BitVec 3) (n : BitVec 1)
  /-- MDRAINR (R199): Check and queue a drain to another core's scratchpad. -/
  | mdrainr (d : BitVec 3) (a : BitVec 2) (b : BitVec 4) (g : BitVec 3) (n : BitVec 1)
  /-- MLDCB (R200): Load a codebook slot from scratchpad; release at DEVICE. -/
  | mldcb (a : BitVec 5) (b : BitVec 5) (g : BitVec 3) (n : BitVec 1)
  /-- MFMT (R194): Set the load formats and codebook slots in MATST. -/
  | mfmt (a : BitVec 5)
  /-- MSTAT (R195): Read matrix queue state; a count of 0 acquires. -/
  | mstat (d : BitVec 5)
  /-- CPY (R206): Check and queue a byte copy. -/
  | cpy (d : BitVec 5) (a : BitVec 5) (b : BitVec 5) (g : BitVec 3) (n : BitVec 1)
  /-- CPYT (R208): Queue a tensor copy by descriptor. -/
  | cpyt (a : BitVec 5) (g : BitVec 3) (n : BitVec 1)
  /-- CPYM (R210): Queue a multicast copy. -/
  | cpym (d : BitVec 5) (a : BitVec 5) (b : BitVec 5) (g : BitVec 3) (n : BitVec 1)
  /-- CPYB (R211): Queue a copy bound to a muster. -/
  | cpyb (d : BitVec 5) (a : BitVec 5) (b : BitVec 4) (g : BitVec 3) (n : BitVec 1)
  /-- CWAIT (R212): Queue a wait on earlier copy commands, guard PENDING. -/
  | cwait (d : BitVec 3) (g : BitVec 3) (n : BitVec 1)
  /-- CPYH (R217): Queue a copy to or from a handle's buffer. -/
  | cpyh (d : BitVec 5) (a : BitVec 5) (b : BitVec 5) (g : BitVec 3) (n : BitVec 1)
  /-- HALLOC (R218): Allocate an ownership handle. -/
  | halloc (d : BitVec 5) (a : BitVec 5) (b : BitVec 5)
  /-- HFREE (R218): Free a handle, or mark it FREEING while pinned. -/
  | hfree (a : BitVec 5)
  /-- HPASS (R218): Pass handle ownership into another slot's inbox. -/
  | hpass (a : BitVec 5) (b : BitVec 5)
  /-- HOPEN (R218): Pop a reference from the slot's handle inbox. -/
  | hopen (d : BitVec 5)
  /-- PJOIN (R313): Join a party and get a rank. -/
  | pjoin (d : BitVec 5) (a : BitVec 5)
  /-- PLEAVE (R313): Leave a party; release at DEVICE. -/
  | pleave (a : BitVec 5)
  /-- PSIZE (R313): Read a party's size. -/
  | psize (d : BitVec 5) (a : BitVec 5)
  /-- PRANK (R313): Read the own rank in a party. -/
  | prank (d : BitVec 5) (a : BitVec 5)
  /-- PMASK (R313): Read which cluster cores hold members. -/
  | pmask (d : BitVec 5) (a : BitVec 5)
  /-- MINIT (R319): Initialise a muster record. -/
  | minit (a : BitVec 5) (b : BitVec 5) (g : BitVec 3) (n : BitVec 1)
  /-- MARRIVE (R319): Arrive at a muster adding debt. -/
  | marrive (a : BitVec 5) (b : BitVec 5) (g : BitVec 3) (n : BitVec 1)
  /-- MWAIT (R319): Wait for a muster phase parity to pass. -/
  | mwait (d : BitVec 3) (a : BitVec 5) (b : BitVec 5) (g : BitVec 3) (n : BitVec 1)
  /-- MSYNC (R319): Arrive and wait as one muster step. -/
  | msync (d : BitVec 3) (a : BitVec 5) (g : BitVec 3) (n : BitVec 1)
  /-- MDEBT (R319): Change a muster's debt. -/
  | mdebt (a : BitVec 5) (b : BitVec 5) (g : BitVec 3) (n : BitVec 1)
  /-- FORKP (R350): Offer a child pair to the cluster's Hamper. -/
  | forkp (d : BitVec 3) (a : BitVec 5) (b : BitVec 4) (g : BitVec 3) (n : BitVec 1)
  /-- TAKEP (R351): Complete the held pair and park for another. -/
  | takep (d : BitVec 3) (a : BitVec 5) (b : BitVec 3) (g : BitVec 3) (n : BitVec 1)
  /-- PTEST (R353): Classify a pair as far, near or split. -/
  | ptest (d : BitVec 3) (a : BitVec 5) (b : BitVec 4) (g : BitVec 3) (n : BitVec 1)
  /-- PNODE (R354): Copy a node record into eight registers. -/
  | pnode (d : BitVec 2) (a : BitVec 5) (b : BitVec 5) (g : BitVec 3) (n : BitVec 1)
  /-- PDONE (R352): Complete the held pair; release at DEVICE. -/
  | pdone (g : BitVec 3) (n : BitVec 1)
  /-- TOPEN (R349): Open a traversal and seed its root pair. -/
  | topen (d : BitVec 5) (a : BitVec 5) (g : BitVec 3) (n : BitVec 1)
  /-- FORK (R371): Start a child thread in a new revision. -/
  | fork (d : BitVec 5) (a : BitVec 5) (b : BitVec 5)
  /-- JOIN (R372): Wait for a child and merge its revision. -/
  | join (d : BitVec 5) (a : BitVec 5)
  /-- JOINALL (R372): Merge all unjoined children in stamp order. -/
  | joinall (d : BitVec 5)
  /-- RDECL (R373): Declare a revision region. -/
  | rdecl (d : BitVec 5) (a : BitVec 5) (b : BitVec 5)
  /-- RSTAT (R374): Read a revision's state word. -/
  | rstat (d : BitVec 5) (a : BitVec 5)
  /-- TSEND (R291): Send a 16-byte message to a task's home slice. -/
  | tsend (a : BitVec 5) (b : BitVec 4)
  /-- TRECV (R291): Pop a mailbox or bounce entry. -/
  | trecv (d : BitVec 3) (b : BitVec 5)
  /-- RQPUSH (R291): Append a task id to the ready queue. -/
  | rqpush (a : BitVec 5) (b : BitVec 5)
  /-- RQPOP (R291): Pop the highest-priority ready task id. -/
  | rqpop (d : BitVec 5)
  /-- YIELD (R120): Give away the next home cycle. -/
  | yield
  /-- SLEEP (R291): Enter a task in the sleep table and park. -/
  | sleep (a : BitVec 5) (b : BitVec 5)
  /-- WFE (R121): Wait for and clear the slot event flag. -/
  | wfe
  /-- LAUNCH (R306): Copy a launch record into the device launch queue. -/
  | launch (d : BitVec 5) (a : BitVec 5)
  /-- DONE (R306): Drain, join children, record status and retire. -/
  | done
  /-- TIMER (R291): Swap the slot timer value. -/
  | timer (d : BitVec 5) (a : BitVec 5)
  /-- MIGRATE (R122): Move the thread to another core. -/
  | migrate (a : BitVec 5)
  /-- SPECOPEN (R387): Open a speculative window of n drafts. -/
  | specopen (a : BitVec 5) (b : BitVec 5)
  /-- SPECTAG (R387): Set the draft tag or leave the window. -/
  | spectag (a : BitVec 5)
  /-- SPECCOMMIT (R387): Leave and mark the window COMMITTING with k kept. -/
  | speccommit (d : BitVec 3) (a : BitVec 5) (b : BitVec 5)
  /-- SPECABORT (R387): Leave and commit zero drafts. -/
  | specabort (d : BitVec 3) (a : BitVec 5)
  /-- KVPOS (R388): Resolve a position to its row address. -/
  | kvpos (d : BitVec 3) (a : BitVec 5) (b : BitVec 4)
  /-- KVADV (R389): Publish n rows written without a window. -/
  | kvadv (a : BitVec 5) (b : BitVec 5)
  /-- BALLOC (R390): Take a block from the pool, tentatively in a window. -/
  | balloc (d : BitVec 5) (a : BitVec 5) (b : BitVec 5)
  /-- BFREE (R390): Release a block reference. -/
  | bfree (a : BitVec 5) (b : BitVec 5)
  /-- PXLOOK (R392): Look up a prefix in the index. -/
  | pxlook (d : BitVec 3) (a : BitVec 5) (b : BitVec 4)
  /-- PXINS (R392): Insert a prefix candidate; first wins. -/
  | pxins (d : BitVec 3) (a : BitVec 5) (b : BitVec 5)
  /-- SPECENTER (R387): Enter an open window as a member. -/
  | specenter (a : BitVec 5)
  /-- EMITP (R406): Emit a primitive record to the geometry die's binner. -/
  | emitp (a : BitVec 5) (g : BitVec 3) (n : BitVec 1)
  /-- SEQWM (R406): Raise the thread's sequence floor. -/
  | seqwm (a : BitVec 5) (g : BitVec 3) (n : BitVec 1)
  /-- SEQWM_HOLD (R406): Raise the die's HOLD. -/
  | seqwmHold (a : BitVec 5) (g : BitVec 3) (n : BitVec 1)
  /-- FOUT (R406): Send a quad's colours to the blend unit. -/
  | fout (a : BitVec 5) (b : BitVec 4) (g : BitVec 3) (n : BitVec 1)
  /-- FQUAD (R406): Read the fragment's quad description and weights. -/
  | fquad (d : BitVec 3) (b : BitVec 5) (g : BitVec 3) (n : BitVec 1)
  /-- RFRAME_OPEN (R406): Open a frame from a descriptor. -/
  | rframeOpen (d : BitVec 3) (a : BitVec 5) (g : BitVec 3) (n : BitVec 1)
  /-- RFRAME_LIFT (R406): Set every geometry die's HOLD to all ones. -/
  | rframeLift (g : BitVec 3) (n : BitVec 1)
  /-- RFRAME_CLOSE (R406): Begin closing the frame, guard PENDING. -/
  | rframeClose (d : BitVec 3) (g : BitVec 3) (n : BitVec 1)
  /-- RCVPOST (R330): Post or close a peer-link landing window. -/
  | rcvpost (a : BitVec 5) (b : BitVec 4) (g : BitVec 3) (n : BitVec 1)
  /-- TSARM (R331): Arm a triggered send from a descriptor. -/
  | tsarm (d : BitVec 5) (a : BitVec 5) (g : BitVec 3) (n : BitVec 1)
  /-- TSCAN (R333): Read an arm entry's state. -/
  | tscan (d : BitVec 5) (a : BitVec 5) (g : BitVec 3) (n : BitVec 1)
  /-- CTRRD (R334): Read a link counter; acquire at DEVICE. -/
  | ctrrd (d : BitVec 5) (a : BitVec 5) (g : BitVec 3) (n : BitVec 1)
  /-- CTRADD (R334): Add to a link counter, possibly firing arms. -/
  | ctradd (a : BitVec 5) (b : BitVec 5) (g : BitVec 3) (n : BitVec 1)
  /-- CSRR (R125): Read a CSR. -/
  | csrr (d : BitVec 5) (c : BitVec 12)
  /-- CSRW (R125): Write a CSR, returning the old value. -/
  | csrw (d : BitVec 5) (a : BitVec 5) (c : BitVec 12)
  /-- CSRS (R125): Set CSR bits. -/
  | csrs (d : BitVec 5) (a : BitVec 5) (c : BitVec 12)
  /-- CSRC (R125): Clear CSR bits. -/
  | csrc (d : BitVec 5) (a : BitVec 5) (c : BitVec 12)
  /-- TRAP (R415): Raise SYSCALL n with TRAPVAL := x[a]. -/
  | trap (a : BitVec 5) (t : BitVec 4)
  /-- ERET (R415): Return from a trap handler. -/
  | eret
  /-- BRK (R415): Raise BREAKPOINT. -/
  | brk
  /-- SEGLD (R258): Load a segment register from the segment table. -/
  | segld (s : BitVec 3) (a : BitVec 5)
  /-- PWR (R415): Set matrix-engine power gating and read the level. -/
  | pwr (d : BitVec 5) (a : BitVec 5)
  /-- FBPOP (R276): Pop the oldest fault record of the context on a die. -/
  | fbpop (d : BitVec 3) (a : BitVec 5)
  /-- REPLAY (R277): Clear the pending set and wake page-faulted agents on a die. -/
  | replay (a : BitVec 5)
  /-- TLBINV (R278): Remove translations and wait for acknowledgement. -/
  | tlbinv (a : BitVec 5) (b : BitVec 5)
  /-- PGPIN (R279): Pin a page. -/
  | pgpin (d : BitVec 5) (a : BitVec 5)
  /-- PGUNPIN (R279): Unpin a page. -/
  | pgunpin (d : BitVec 5) (a : BitVec 5)
  /-- NOP (R415): No effect. -/
  | nop
  /-- MOV_C (R82): Compact OR x[d] := x[s]. -/
  | movC (d : BitVec 5) (s : BitVec 5)
  /-- VMOV_C (R82): Compact VMOV of all lanes. -/
  | vmovC (d : BitVec 5) (s : BitVec 5)
  /-- ADD_C (R82): Compact x[d] += x[s]. -/
  | addC (d : BitVec 5) (s : BitVec 5)
  /-- VADD_C (R82): Compact VADD.i32 all lanes. -/
  | vaddC (d : BitVec 5) (s : BitVec 5)
  /-- SUB_C (R82): Compact x[d] -= x[s]. -/
  | subC (d : BitVec 5) (s : BitVec 5)
  /-- VSUB_C (R82): Compact VSUB.i32 all lanes. -/
  | vsubC (d : BitVec 5) (s : BitVec 5)
  /-- AND_C (R82): Compact AND. -/
  | andC (d : BitVec 5) (s : BitVec 5)
  /-- VAND_C (R82): Compact VAND.i32. -/
  | vandC (d : BitVec 5) (s : BitVec 5)
  /-- OR_C (R82): Compact OR. -/
  | orC (d : BitVec 5) (s : BitVec 5)
  /-- VOR_C (R82): Compact VOR.i32. -/
  | vorC (d : BitVec 5) (s : BitVec 5)
  /-- XOR_C (R82): Compact XOR. -/
  | xorC (d : BitVec 5) (s : BitVec 5)
  /-- VXOR_C (R82): Compact VXOR.i32. -/
  | vxorC (d : BitVec 5) (s : BitVec 5)
  /-- ADDI_C (R82): Compact x[d] += imm6. -/
  | addiC (d : BitVec 5) (i : BitVec 6)
  /-- LI (R146): x[d] := sign-extended imm6. -/
  | li (d : BitVec 5) (i : BitVec 6)
  /-- SLLI_C (R82): Compact left shift by sh. -/
  | slliC (d : BitVec 5) (h : BitVec 6)
  /-- SRLI_C (R82): Compact logical right shift. -/
  | srliC (d : BitVec 5) (h : BitVec 6)
  /-- SRAI_C (R82): Compact arithmetic right shift. -/
  | sraiC (d : BitVec 5) (h : BitVec 6)
  /-- LDD (R82): Compact LD.D through seg0 at x[s]. -/
  | ldd (d : BitVec 5) (s : BitVec 5)
  /-- STD (R82): Compact 8-byte store through seg0 at x[s]. -/
  | std (d : BitVec 5) (s : BitVec 5)
  /-- VADDF_F32_C (R82): Compact VADDF.f32 all lanes. -/
  | vaddfF32C (d : BitVec 5) (s : BitVec 5)
  /-- VADDF_F16_C (R82): Compact VADDF.f16 all lanes. -/
  | vaddfF16C (d : BitVec 5) (s : BitVec 5)
  /-- VMULF_F32_C (R82): Compact VMULF.f32 all lanes. -/
  | vmulfF32C (d : BitVec 5) (s : BitVec 5)
  /-- VMULF_F16_C (R82): Compact VMULF.f16 all lanes. -/
  | vmulfF16C (d : BitVec 5) (s : BitVec 5)
  /-- BT_C (R82): Compact BT through tb on a guard. -/
  | btC (t : BitVec 2) (g : BitVec 3)
  /-- BTN_C (R82): Compact BTN through tb on a guard. -/
  | btnC (t : BitVec 2) (g : BitVec 3)
deriving DecidableEq, Repr

end Sys2Proof
end

