-- ==== Sys2Proof/WellFormed.lean ====
section
/-!
DEFINITION. Which instructions the encoding admits: the operand values that R91 rejects as a reserved field or function
value although the field has room for them. Every other operand value of every field is an instruction.
-/

namespace Sys2Proof

/-- The VCVT conversions that R184 defines: the two element formats differ, and saturation (`sat` = 1) is for
integer destinations and for float sources only: a conversion from an integer (codes 5 to 7) to a float takes none. -/
def vcvtOk (src dst sat : Nat) : Bool :=
  src ≠ dst && !(5 ≤ src && dst < 5 && sat == 1)

/-- Well-formed instructions (R78, R80, R84, R86, R91). A step of the device that is no instruction has no encoding
to be ill-formed in. -/
def Instr.wf : Instr → Bool
  | .sext _ _ w => w.toNat ≤ 2
  | .zext _ _ w => w.toNat ≤ 2
  | .bext _ _ l p => p.toNat + l.toNat < 64
  | .bexts _ _ l p => p.toNat + l.toNat < 64
  | .bins _ _ l p => p.toNat + l.toNat < 64
  | .vadd _ _ _ _ t => t.toNat < 3
  | .vsub _ _ _ _ t => t.toNat < 3
  | .vmul _ _ _ _ t => t.toNat < 3
  | .vmulh _ _ _ _ t => t.toNat < 3
  | .vmulhn _ _ _ _ t => t.toNat < 3
  | .vand _ _ _ _ t => t.toNat < 3
  | .vor _ _ _ _ t => t.toNat < 3
  | .vxor _ _ _ _ t => t.toNat < 3
  | .vandn _ _ _ _ t => t.toNat < 3
  | .vshl _ _ _ _ t => t.toNat < 3
  | .vshr _ _ _ _ t => t.toNat < 3
  | .vsra _ _ _ _ t => t.toNat < 3
  | .vmin _ _ _ _ t => t.toNat < 3
  | .vmax _ _ _ _ t => t.toNat < 3
  | .vminn _ _ _ _ t => t.toNat < 3
  | .vmaxn _ _ _ _ t => t.toNat < 3
  | .vabs _ _ _ t => t.toNat < 3
  | .vneg _ _ _ t => t.toNat < 3
  | .vadds _ _ _ _ t => t.toNat < 3
  | .vsubs _ _ _ _ t => t.toNat < 3
  | .vcvt _ _ _ t dst src => vcvtOk src.toNat dst.toNat t.toNat
  | .trecv _ b => b.toNat ≤ 2
  | .movC d s => !(d == 0 && s == 0)
  | _ => true

end Sys2Proof
end

