-- ==== Sys2Proof/Decode.lean ====
section
/-!
DEFINITION. Decoding: from the bytes of an instruction to the instruction, or the cause of R91 that refuses them, total
on any bytes; then the encoder, from the same formats (R74 to R92). Decoding has two parts: the fixed bits of a word
name the row of the table (`decodeOp`), and the row says where its operand fields lie (`Op.build`).
-/

namespace Sys2Proof

/-- The three causes by which a bit pattern is no instruction, in the order R91 checks them. -/
inductive Illegal where
  /-- ILLEGAL_OPCODE: the halfword 0x0000 or a reserved major opcode. -/
  | opcode
  /-- ILLEGAL_FUNCTION: a reserved function or sub-field value. -/
  | func
  /-- ILLEGAL_FIELD: nonzero bits where the encoding has none. -/
  | field
deriving DecidableEq, Repr

/-- The encoded rows of the table by name: what the fixed bits of a word say. -/
inductive Op where
  | add
  | sub
  | and
  | or
  | xor
  | andn
  | orn
  | sll
  | srl
  | sra
  | rol
  | ror
  | min
  | max
  | minu
  | maxu
  | addw
  | subw
  | sllw
  | srlw
  | sraw
  | clz
  | ctz
  | popc
  | brev
  | bswap
  | sext
  | zext
  | lea
  | mul
  | mulh
  | mulhu
  | mulhsu
  | div
  | divu
  | rem
  | remu
  | mulw
  | divw
  | divuw
  | remw
  | remuw
  | addi
  | andi
  | ori
  | xori
  | slli
  | srli
  | srai
  | rori
  | slliw
  | srliw
  | sraiw
  | bext
  | bexts
  | bins
  | lui
  | addpc
  | cmpEq
  | cmpNe
  | cmpLt
  | cmpGe
  | cmpLtu
  | cmpGeu
  | cmpTst
  | cmpTstz
  | cmpFeqS
  | cmpFltS
  | cmpFleS
  | cmpFunS
  | cmpFeqD
  | cmpFltD
  | cmpFleD
  | cmpFunD
  | cmpiEq
  | cmpiNe
  | cmpiLt
  | cmpiGe
  | cmpiLtu
  | cmpiGeu
  | cmpiTst
  | cmpiTstz
  | gand
  | gor
  | gxor
  | gandn
  | gnot
  | gset
  | gget
  | gwait
  | sel
  | fmaddS
  | fmsubS
  | fnmaddS
  | fnmsubS
  | fmaddD
  | fmsubD
  | fnmaddD
  | fnmsubD
  | faddS
  | fsubS
  | fmulS
  | fdivS
  | fsqrtS
  | fminS
  | fmaxS
  | fsgnjS
  | fsgnjnS
  | fsgnjxS
  | fclassS
  | faddD
  | fsubD
  | fmulD
  | fdivD
  | fsqrtD
  | fminD
  | fmaxD
  | fsgnjD
  | fsgnjnD
  | fsgnjxD
  | fclassD
  | fcvtDS
  | fcvtSD
  | fcvtSH
  | fcvtHS
  | fcvtSB
  | fcvtBS
  | fcvtDH
  | fcvtHD
  | fcvtWS
  | fcvtWuS
  | fcvtLS
  | fcvtLuS
  | fcvtWD
  | fcvtWuD
  | fcvtLD
  | fcvtLuD
  | fcvtWSSat
  | fcvtWuSSat
  | fcvtLSSat
  | fcvtLuSSat
  | fcvtWDSat
  | fcvtWuDSat
  | fcvtLDSat
  | fcvtLuDSat
  | fcvtSW
  | fcvtSWu
  | fcvtSL
  | fcvtSLu
  | fcvtDW
  | fcvtDWu
  | fcvtDL
  | fcvtDLu
  | bcEq
  | bcNe
  | bcLt
  | bcGe
  | bcLtu
  | bcGeu
  | jal
  | jalr
  | ptb
  | bt
  | btn
  | bta
  | ptbr
  | callt
  | ldB
  | ldBu
  | ldH
  | ldHu
  | ldW
  | ldWu
  | ldD
  | st
  | ldsK
  | ldsC
  | stf
  | stfE
  | feset
  | feclr
  | fetest
  | fewait
  | ldv
  | stv
  | ldvs
  | stvf
  | ldvh
  | stvh
  | ldvb
  | ldx
  | ldxb
  | stblk
  | pref
  | amsend
  | amret
  | rfetch
  | atomAdd
  | atomAnd
  | atomOr
  | atomXor
  | atomXchg
  | atomMin
  | atomMax
  | atomCas
  | atomwAdd
  | atomwAnd
  | atomwOr
  | atomwXor
  | atomwXchg
  | atomwMin
  | atomwMax
  | atomwCas
  | atomxMinu
  | atomxMaxu
  | atomxFminS
  | atomxFmaxS
  | atomxFminD
  | atomxFmaxD
  | xset
  | xaddS
  | xaddD
  | xaddB
  | xrdS
  | xrdD
  | xmaxe
  | fenceAcq
  | fenceRel
  | fenceAr
  | vadd
  | vsub
  | vmul
  | vmulh
  | vmulhn
  | vand
  | vor
  | vxor
  | vandn
  | vshl
  | vshr
  | vsra
  | vmin
  | vmax
  | vminn
  | vmaxn
  | vabs
  | vneg
  | vadds
  | vsubs
  | vaddf
  | vsubf
  | vmulf
  | vdivf
  | vminf
  | vmaxf
  | vabsf
  | vnegf
  | vsqrt
  | vrcp
  | vrsq
  | vexp2
  | vlog2
  | vsinpi
  | vcospi
  | vfloor
  | vceil
  | vtrunc
  | vrint
  | vclass
  | vaddd
  | vsubd
  | vmuld
  | vdivd
  | vmind
  | vmaxd
  | vsqrtd
  | vfmad
  | vfma
  | vfms
  | vfnma
  | vfnms
  | vfmah
  | vdot4i
  | vdot4n
  | vdot2bf
  | vcmpEq
  | vcmpNe
  | vcmpLt
  | vcmpGe
  | vcmpLtu
  | vcmpGeu
  | vcmpFeq
  | vcmpFlt
  | vcmpFle
  | vcmpFun
  | vsel
  | vbcast
  | vins
  | vext
  | vperm
  | vshuf
  | vredaddf
  | vredmaxf
  | vredminf
  | vredaddi
  | vmov
  | viota
  | vcvt
  | mzero
  | mlda
  | mldb
  | mma
  | mgang
  | mdrain
  | mdrainr
  | mldcb
  | mfmt
  | mstat
  | cpy
  | cpyt
  | cpym
  | cpyb
  | cwait
  | cpyh
  | halloc
  | hfree
  | hpass
  | hopen
  | pjoin
  | pleave
  | psize
  | prank
  | pmask
  | minit
  | marrive
  | mwait
  | msync
  | mdebt
  | forkp
  | takep
  | ptest
  | pnode
  | pdone
  | topen
  | fork
  | join
  | joinall
  | rdecl
  | rstat
  | tsend
  | trecv
  | rqpush
  | rqpop
  | yield
  | sleep
  | wfe
  | launch
  | done
  | timer
  | migrate
  | specopen
  | spectag
  | speccommit
  | specabort
  | kvpos
  | kvadv
  | balloc
  | bfree
  | pxlook
  | pxins
  | specenter
  | emitp
  | seqwm
  | seqwmHold
  | fout
  | fquad
  | rframeOpen
  | rframeLift
  | rframeClose
  | rcvpost
  | tsarm
  | tscan
  | ctrrd
  | ctradd
  | csrr
  | csrw
  | csrs
  | csrc
  | trap
  | eret
  | brk
  | segld
  | pwr
  | fbpop
  | replay
  | tlbinv
  | pgpin
  | pgunpin
  | nop
  | movC
  | vmovC
  | addC
  | vaddC
  | subC
  | vsubC
  | andC
  | vandC
  | orC
  | vorC
  | xorC
  | vxorC
  | addiC
  | li
  | slliC
  | srliC
  | sraiC
  | ldd
  | std
  | vaddfF32C
  | vaddfF16C
  | vmulfF32C
  | vmulfF16C
  | btC
  | btnC
deriving DecidableEq, Repr

/-- The field of `n` bits of `w` from bit `lo` upwards. -/
def fld (w lo n : Nat) : Nat := w / 2 ^ lo % 2 ^ n

/-- The same field as a bit vector. -/
def bits (w lo n : Nat) : BitVec n := BitVec.ofNat n (w / 2 ^ lo)

/-- Major opcode 0, INT (R130, R131). -/
def decodeInt (w : Nat) : Except Illegal Op :=
  match fld w 22 10 with
  | 0 => .ok (.add)
  | 1 => .ok (.sub)
  | 2 => .ok (.and)
  | 3 => .ok (.or)
  | 4 => .ok (.xor)
  | 5 => .ok (.andn)
  | 6 => .ok (.orn)
  | 7 => .ok (.sll)
  | 8 => .ok (.srl)
  | 9 => .ok (.sra)
  | 10 => .ok (.rol)
  | 11 => .ok (.ror)
  | 12 => .ok (.min)
  | 13 => .ok (.max)
  | 14 => .ok (.minu)
  | 15 => .ok (.maxu)
  | 16 => .ok (.addw)
  | 17 => .ok (.subw)
  | 18 => .ok (.sllw)
  | 19 => .ok (.srlw)
  | 20 => .ok (.sraw)
  | 21 => if fld w 17 5 = 0 then .ok (.clz) else .error .field
  | 22 => if fld w 17 5 = 0 then .ok (.ctz) else .error .field
  | 23 => if fld w 17 5 = 0 then .ok (.popc) else .error .field
  | 24 => if fld w 17 5 = 0 then .ok (.brev) else .error .field
  | 25 => if fld w 17 5 = 0 then .ok (.bswap) else .error .field
  | 26 => if fld w 17 5 ≤ 2 then .ok (.sext) else .error .field
  | 27 => if fld w 17 5 ≤ 2 then .ok (.zext) else .error .field
  | 32 | 33 | 34 | 35 | 36 | 37 | 38 | 39 => .ok (.lea)
  | _ => .error .func

/-- Major opcode 1, MUL (R133). -/
def decodeMul (w : Nat) : Except Illegal Op :=
  match fld w 22 10 with
  | 0 => .ok (.mul)
  | 1 => .ok (.mulh)
  | 2 => .ok (.mulhu)
  | 3 => .ok (.mulhsu)
  | 4 => .ok (.div)
  | 5 => .ok (.divu)
  | 6 => .ok (.rem)
  | 7 => .ok (.remu)
  | 8 => .ok (.mulw)
  | 9 => .ok (.divw)
  | 10 => .ok (.divuw)
  | 11 => .ok (.remw)
  | 12 => .ok (.remuw)
  | _ => .error .func

/-- Major opcode 2, ADDI (R135). -/
def decodeAddi (_ : Nat) : Except Illegal Op :=
  .ok (.addi)

/-- Major opcode 3, ANDI (R135). -/
def decodeAndi (_ : Nat) : Except Illegal Op :=
  .ok (.andi)

/-- Major opcode 4, ORI (R135). -/
def decodeOri (_ : Nat) : Except Illegal Op :=
  .ok (.ori)

/-- Major opcode 5, XORI (R135). -/
def decodeXori (_ : Nat) : Except Illegal Op :=
  .ok (.xori)

/-- Major opcode 6, SHI (R136). -/
def decodeShi (w : Nat) : Except Illegal Op :=
  match fld w 29 3 with
  | 0 => if fld w 23 6 = 0 then .ok (.slli) else .error .field
  | 1 => if fld w 23 6 = 0 then .ok (.srli) else .error .field
  | 2 => if fld w 23 6 = 0 then .ok (.srai) else .error .field
  | 3 => if fld w 23 6 = 0 then .ok (.rori) else .error .field
  | 4 => if fld w 22 7 = 0 then .ok (.slliw) else .error .field
  | 5 => if fld w 22 7 = 0 then .ok (.srliw) else .error .field
  | 6 => if fld w 22 7 = 0 then .ok (.sraiw) else .error .field
  | _ => .error .func

/-- Major opcode 7, BF (R137). -/
def decodeBf (w : Nat) : Except Illegal Op :=
  match fld w 29 3 with
  | 0 => if fld w 23 6 + fld w 17 6 < 64 then .ok (.bext) else .error .field
  | 1 => if fld w 23 6 + fld w 17 6 < 64 then .ok (.bexts) else .error .field
  | 2 => if fld w 23 6 + fld w 17 6 < 64 then .ok (.bins) else .error .field
  | _ => .error .func

/-- Major opcode 8, LUI (R138). -/
def decodeLui (_ : Nat) : Except Illegal Op :=
  .ok (.lui)

/-- Major opcode 9, ADDPC (R138). -/
def decodeAddpc (_ : Nat) : Except Illegal Op :=
  .ok (.addpc)

/-- Major opcode 10, CMP (R112). -/
def decodeCmp (w : Nat) : Except Illegal Op :=
  match fld w 22 10 with
  | 0 => .ok (.cmpEq)
  | 1 => .ok (.cmpNe)
  | 2 => .ok (.cmpLt)
  | 3 => .ok (.cmpGe)
  | 4 => .ok (.cmpLtu)
  | 5 => .ok (.cmpGeu)
  | 6 => .ok (.cmpTst)
  | 7 => .ok (.cmpTstz)
  | 8 => .ok (.cmpFeqS)
  | 9 => .ok (.cmpFltS)
  | 10 => .ok (.cmpFleS)
  | 11 => .ok (.cmpFunS)
  | 12 => .ok (.cmpFeqD)
  | 13 => .ok (.cmpFltD)
  | 14 => .ok (.cmpFleD)
  | 15 => .ok (.cmpFunD)
  | _ => .error .func

/-- Major opcode 11, CMPI (R112). -/
def decodeCmpi (w : Nat) : Except Illegal Op :=
  match fld w 29 3 with
  | 0 => .ok (.cmpiEq)
  | 1 => .ok (.cmpiNe)
  | 2 => .ok (.cmpiLt)
  | 3 => .ok (.cmpiGe)
  | 4 => .ok (.cmpiLtu)
  | 5 => .ok (.cmpiGeu)
  | 6 => .ok (.cmpiTst)
  | _ => .ok (.cmpiTstz)

/-- Major opcode 12, GUARD (R114). -/
def decodeGuard (w : Nat) : Except Illegal Op :=
  match fld w 22 10 with
  | 0 => if fld w 10 2 = 0 ∧ fld w 15 2 = 0 ∧ fld w 20 2 = 0 then .ok (.gand) else .error .field
  | 1 => if fld w 10 2 = 0 ∧ fld w 15 2 = 0 ∧ fld w 20 2 = 0 then .ok (.gor) else .error .field
  | 2 => if fld w 10 2 = 0 ∧ fld w 15 2 = 0 ∧ fld w 20 2 = 0 then .ok (.gxor) else .error .field
  | 3 => if fld w 10 2 = 0 ∧ fld w 15 2 = 0 ∧ fld w 20 2 = 0 then .ok (.gandn) else .error .field
  | 4 => if fld w 10 2 = 0 ∧ fld w 15 7 = 0 then .ok (.gnot) else .error .field
  | 5 => if fld w 10 2 = 0 ∧ fld w 17 5 = 0 then .ok (.gset) else .error .field
  | 6 => if fld w 15 7 = 0 then .ok (.gget) else .error .field
  | 7 => if fld w 7 5 = 0 ∧ fld w 15 7 = 0 then .ok (.gwait) else .error .field
  | 8 | 9 | 10 | 11 | 12 | 13 | 14 | 15 => .ok (.sel)
  | _ => .error .func

/-- Major opcode 13, FMA (R144). -/
def decodeFma (w : Nat) : Except Illegal Op :=
  match fld w 27 5 with
  | 0 => .ok (.fmaddS)
  | 1 => .ok (.fmsubS)
  | 2 => .ok (.fnmaddS)
  | 3 => .ok (.fnmsubS)
  | 4 => .ok (.fmaddD)
  | 5 => .ok (.fmsubD)
  | 6 => .ok (.fnmaddD)
  | 7 => .ok (.fnmsubD)
  | _ => .error .func

/-- Major opcode 14, FPS (R140 to R145). -/
def decodeFps (w : Nat) : Except Illegal Op :=
  match fld w 22 10 with
  | 0 => .ok (.faddS)
  | 1 => .ok (.fsubS)
  | 2 => .ok (.fmulS)
  | 3 => .ok (.fdivS)
  | 4 => if fld w 17 5 = 0 then .ok (.fsqrtS) else .error .field
  | 5 => .ok (.fminS)
  | 6 => .ok (.fmaxS)
  | 7 => .ok (.fsgnjS)
  | 8 => .ok (.fsgnjnS)
  | 9 => .ok (.fsgnjxS)
  | 10 => if fld w 17 5 = 0 then .ok (.fclassS) else .error .field
  | 11 => .ok (.faddD)
  | 12 => .ok (.fsubD)
  | 13 => .ok (.fmulD)
  | 14 => .ok (.fdivD)
  | 15 => if fld w 17 5 = 0 then .ok (.fsqrtD) else .error .field
  | 16 => .ok (.fminD)
  | 17 => .ok (.fmaxD)
  | 18 => .ok (.fsgnjD)
  | 19 => .ok (.fsgnjnD)
  | 20 => .ok (.fsgnjxD)
  | 21 => if fld w 17 5 = 0 then .ok (.fclassD) else .error .field
  | 32 => if fld w 17 5 = 0 then .ok (.fcvtDS) else .error .field
  | 33 => if fld w 17 5 = 0 then .ok (.fcvtSD) else .error .field
  | 34 => if fld w 17 5 = 0 then .ok (.fcvtSH) else .error .field
  | 35 => if fld w 17 5 = 0 then .ok (.fcvtHS) else .error .field
  | 36 => if fld w 17 5 = 0 then .ok (.fcvtSB) else .error .field
  | 37 => if fld w 17 5 = 0 then .ok (.fcvtBS) else .error .field
  | 38 => if fld w 17 5 = 0 then .ok (.fcvtDH) else .error .field
  | 39 => if fld w 17 5 = 0 then .ok (.fcvtHD) else .error .field
  | 40 => if fld w 17 5 = 0 then .ok (.fcvtWS) else .error .field
  | 41 => if fld w 17 5 = 0 then .ok (.fcvtWuS) else .error .field
  | 42 => if fld w 17 5 = 0 then .ok (.fcvtLS) else .error .field
  | 43 => if fld w 17 5 = 0 then .ok (.fcvtLuS) else .error .field
  | 44 => if fld w 17 5 = 0 then .ok (.fcvtWD) else .error .field
  | 45 => if fld w 17 5 = 0 then .ok (.fcvtWuD) else .error .field
  | 46 => if fld w 17 5 = 0 then .ok (.fcvtLD) else .error .field
  | 47 => if fld w 17 5 = 0 then .ok (.fcvtLuD) else .error .field
  | 48 => if fld w 17 5 = 0 then .ok (.fcvtWSSat) else .error .field
  | 49 => if fld w 17 5 = 0 then .ok (.fcvtWuSSat) else .error .field
  | 50 => if fld w 17 5 = 0 then .ok (.fcvtLSSat) else .error .field
  | 51 => if fld w 17 5 = 0 then .ok (.fcvtLuSSat) else .error .field
  | 52 => if fld w 17 5 = 0 then .ok (.fcvtWDSat) else .error .field
  | 53 => if fld w 17 5 = 0 then .ok (.fcvtWuDSat) else .error .field
  | 54 => if fld w 17 5 = 0 then .ok (.fcvtLDSat) else .error .field
  | 55 => if fld w 17 5 = 0 then .ok (.fcvtLuDSat) else .error .field
  | 56 => if fld w 17 5 = 0 then .ok (.fcvtSW) else .error .field
  | 57 => if fld w 17 5 = 0 then .ok (.fcvtSWu) else .error .field
  | 58 => if fld w 17 5 = 0 then .ok (.fcvtSL) else .error .field
  | 59 => if fld w 17 5 = 0 then .ok (.fcvtSLu) else .error .field
  | 60 => if fld w 17 5 = 0 then .ok (.fcvtDW) else .error .field
  | 61 => if fld w 17 5 = 0 then .ok (.fcvtDWu) else .error .field
  | 62 => if fld w 17 5 = 0 then .ok (.fcvtDL) else .error .field
  | 63 => if fld w 17 5 = 0 then .ok (.fcvtDLu) else .error .field
  | _ => .error .func

/-- Major opcode 15, BC (R115). -/
def decodeBc (w : Nat) : Except Illegal Op :=
  match fld w 17 3 with
  | 0 => .ok (.bcEq)
  | 1 => .ok (.bcNe)
  | 2 => .ok (.bcLt)
  | 3 => .ok (.bcGe)
  | 4 => .ok (.bcLtu)
  | 5 => .ok (.bcGeu)
  | _ => .error .func

/-- Major opcode 16, JAL (R116). -/
def decodeJal (_ : Nat) : Except Illegal Op :=
  .ok (.jal)

/-- Major opcode 17, JALR (R116). -/
def decodeJalr (_ : Nat) : Except Illegal Op :=
  .ok (.jalr)

/-- Major opcode 18, PTB (R117). -/
def decodePtb (w : Nat) : Except Illegal Op :=
  if fld w 9 3 = 0 then .ok (.ptb) else .error .field

/-- Major opcode 19, BR (R118). -/
def decodeBr (w : Nat) : Except Illegal Op :=
  match fld w 22 10 with
  | 0 => if fld w 9 3 = 0 ∧ fld w 15 7 = 0 then .ok (.bt) else .error .field
  | 1 => if fld w 9 3 = 0 ∧ fld w 15 7 = 0 then .ok (.btn) else .error .field
  | 2 => if fld w 9 13 = 0 then .ok (.bta) else .error .field
  | 3 => if fld w 9 3 = 0 ∧ fld w 17 5 = 0 then .ok (.ptbr) else .error .field
  | 4 => if fld w 14 8 = 0 then .ok (.callt) else .error .field
  | _ => .error .func

/-- Major opcode 20, LD (R152). -/
def decodeLd (w : Nat) : Except Illegal Op :=
  match fld w 20 3 with
  | 0 => .ok (.ldB)
  | 1 => .ok (.ldBu)
  | 2 => .ok (.ldH)
  | 3 => .ok (.ldHu)
  | 4 => .ok (.ldW)
  | 5 => .ok (.ldWu)
  | 6 => .ok (.ldD)
  | _ => .error .func

/-- Major opcode 21, ST (R152). -/
def decodeSt (w : Nat) : Except Illegal Op :=
  match fld w 20 3 with
  | 0 | 1 | 2 | 3 => .ok (.st)
  | _ => .error .func

/-- Major opcode 22, LDS (R153). -/
def decodeLds (w : Nat) : Except Illegal Op :=
  match fld w 20 3 with
  | 4 | 6 => .ok (.ldsK)
  | 5 | 7 => .ok (.ldsC)
  | _ => .error .func

/-- Major opcode 23, STF (R154). -/
def decodeStf (w : Nat) : Except Illegal Op :=
  match fld w 20 3 with
  | 4 | 6 => .ok (.stf)
  | 5 | 7 => .ok (.stfE)
  | _ => .error .func

/-- Major opcode 24, FE (R156). -/
def decodeFe (w : Nat) : Except Illegal Op :=
  match fld w 22 10 with
  | 0 => if fld w 7 5 = 0 ∧ fld w 20 2 = 0 then .ok (.feset) else .error .field
  | 1 => if fld w 7 5 = 0 ∧ fld w 20 2 = 0 then .ok (.feclr) else .error .field
  | 2 => if fld w 20 2 = 0 then .ok (.fetest) else .error .field
  | 3 => if fld w 7 5 = 0 ∧ fld w 20 2 = 0 then .ok (.fewait) else .error .field
  | _ => .error .func

/-- Major opcode 25, VMEM (R157). -/
def decodeVmem (w : Nat) : Except Illegal Op :=
  match fld w 20 3 with
  | 0 => .ok (.ldv)
  | 1 => .ok (.stv)
  | 2 => .ok (.ldvs)
  | 3 => .ok (.stvf)
  | 4 => .ok (.ldvh)
  | 5 => .ok (.stvh)
  | 6 => .ok (.ldvb)
  | _ => .error .func

/-- Major opcode 26, FMEM (R160 to R162). -/
def decodeFmem (w : Nat) : Except Illegal Op :=
  match fld w 26 6 with
  | 0 => if fld w 20 2 = 0 then .ok (.ldx) else .error .field
  | 1 => if fld w 20 2 = 0 then .ok (.ldxb) else .error .field
  | 2 => if fld w 7 2 = 0 ∧ fld w 20 2 = 0 then .ok (.stblk) else .error .field
  | 3 => if fld w 7 5 = 0 ∧ fld w 20 2 = 0 then .ok (.pref) else .error .field
  | _ => .error .func

/-- Major opcode 28, MSG (R168). -/
def decodeMsg (w : Nat) : Except Illegal Op :=
  match fld w 26 6 with
  | 0 => if fld w 17 1 = 0 then .ok (.amsend) else .error .field
  | 1 => if fld w 7 5 = 0 ∧ fld w 17 5 = 0 then .ok (.amret) else .error .field
  | 2 => if fld w 17 1 = 0 then .ok (.rfetch) else .error .field
  | _ => .error .func

/-- Major opcode 30, ATOM (R240). -/
def decodeAtom (w : Nat) : Except Illegal Op :=
  match fld w 27 5 with
  | 0 | 1 | 2 | 3 => .ok (.atomAdd)
  | 4 | 5 | 6 | 7 => .ok (.atomAnd)
  | 8 | 9 | 10 | 11 => .ok (.atomOr)
  | 12 | 13 | 14 | 15 => .ok (.atomXor)
  | 16 | 17 | 18 | 19 => .ok (.atomXchg)
  | 20 | 21 | 22 | 23 => .ok (.atomMin)
  | 24 | 25 | 26 | 27 => .ok (.atomMax)
  | 28 | 29 | 30 | 31 => if fld w 17 1 = 0 then .ok (.atomCas) else .error .field
  | _ => .error .func

/-- Major opcode 31, ATOMW (R240). -/
def decodeAtomw (w : Nat) : Except Illegal Op :=
  match fld w 27 5 with
  | 0 | 1 | 2 | 3 => .ok (.atomwAdd)
  | 4 | 5 | 6 | 7 => .ok (.atomwAnd)
  | 8 | 9 | 10 | 11 => .ok (.atomwOr)
  | 12 | 13 | 14 | 15 => .ok (.atomwXor)
  | 16 | 17 | 18 | 19 => .ok (.atomwXchg)
  | 20 | 21 | 22 | 23 => .ok (.atomwMin)
  | 24 | 25 | 26 | 27 => .ok (.atomwMax)
  | 28 | 29 | 30 | 31 => if fld w 17 1 = 0 then .ok (.atomwCas) else .error .field
  | _ => .error .func

/-- Major opcode 32, ATOMX (R240). -/
def decodeAtomx (w : Nat) : Except Illegal Op :=
  match fld w 27 5 with
  | 0 | 1 | 2 | 3 => .ok (.atomxMinu)
  | 4 | 5 | 6 | 7 => .ok (.atomxMaxu)
  | 8 | 9 | 10 | 11 => .ok (.atomxFminS)
  | 12 | 13 | 14 | 15 => .ok (.atomxFmaxS)
  | 16 | 17 | 18 | 19 => .ok (.atomxFminD)
  | 20 | 21 | 22 | 23 => .ok (.atomxFmaxD)
  | _ => .error .func

/-- Major opcode 33, XCELL (R244). -/
def decodeXcell (w : Nat) : Except Illegal Op :=
  match fld w 27 5 with
  | 0 => if fld w 7 5 = 0 ∧ fld w 22 5 = 0 then .ok (.xset) else .error .field
  | 1 => if fld w 7 5 = 0 ∧ fld w 22 5 = 0 then .ok (.xaddS) else .error .field
  | 2 => if fld w 7 5 = 0 ∧ fld w 22 5 = 0 then .ok (.xaddD) else .error .field
  | 3 => if fld w 7 5 = 0 then .ok (.xaddB) else .error .field
  | 4 => if fld w 17 10 = 0 then .ok (.xrdS) else .error .field
  | 5 => if fld w 17 10 = 0 then .ok (.xrdD) else .error .field
  | 6 => if fld w 22 5 = 0 then .ok (.xmaxe) else .error .field
  | _ => .error .func

/-- Major opcode 34, FENCE (R232). -/
def decodeFence (w : Nat) : Except Illegal Op :=
  match fld w 22 10 with
  | 1 => if fld w 7 5 = 0 ∧ fld w 17 5 = 0 then .ok (.fenceAcq) else .error .field
  | 2 => if fld w 7 5 = 0 ∧ fld w 17 5 = 0 then .ok (.fenceRel) else .error .field
  | 3 => if fld w 7 5 = 0 ∧ fld w 17 5 = 0 then .ok (.fenceAr) else .error .field
  | _ => .error .func

/-- Major opcode 35, VINT (R176). -/
def decodeVint (w : Nat) : Except Illegal Op :=
  match fld w 25 7 with
  | 0 | 1 | 2 => .ok (.vadd)
  | 4 | 5 | 6 => .ok (.vsub)
  | 8 | 9 | 10 => .ok (.vmul)
  | 12 | 13 | 14 => .ok (.vmulh)
  | 16 | 17 | 18 => .ok (.vmulhn)
  | 20 | 21 | 22 => .ok (.vand)
  | 24 | 25 | 26 => .ok (.vor)
  | 28 | 29 | 30 => .ok (.vxor)
  | 32 | 33 | 34 => .ok (.vandn)
  | 36 | 37 | 38 => .ok (.vshl)
  | 40 | 41 | 42 => .ok (.vshr)
  | 44 | 45 | 46 => .ok (.vsra)
  | 48 | 49 | 50 => .ok (.vmin)
  | 52 | 53 | 54 => .ok (.vmax)
  | 56 | 57 | 58 => .ok (.vminn)
  | 60 | 61 | 62 => .ok (.vmaxn)
  | 64 | 65 | 66 => if fld w 17 5 = 0 then .ok (.vabs) else .error .field
  | 68 | 69 | 70 => if fld w 17 5 = 0 then .ok (.vneg) else .error .field
  | 72 | 73 | 74 => .ok (.vadds)
  | 76 | 77 | 78 => .ok (.vsubs)
  | _ => .error .func

/-- Major opcode 36, VFLT (R177). -/
def decodeVflt (w : Nat) : Except Illegal Op :=
  match fld w 25 7 with
  | 0 | 1 => .ok (.vaddf)
  | 2 | 3 => .ok (.vsubf)
  | 4 | 5 => .ok (.vmulf)
  | 6 | 7 => .ok (.vdivf)
  | 8 | 9 => .ok (.vminf)
  | 10 | 11 => .ok (.vmaxf)
  | 12 | 13 => if fld w 17 5 = 0 then .ok (.vabsf) else .error .field
  | 14 | 15 => if fld w 17 5 = 0 then .ok (.vnegf) else .error .field
  | 16 | 17 => if fld w 17 5 = 0 then .ok (.vsqrt) else .error .field
  | 18 | 19 => if fld w 17 5 = 0 then .ok (.vrcp) else .error .field
  | 20 | 21 => if fld w 17 5 = 0 then .ok (.vrsq) else .error .field
  | 22 | 23 => if fld w 17 5 = 0 then .ok (.vexp2) else .error .field
  | 24 | 25 => if fld w 17 5 = 0 then .ok (.vlog2) else .error .field
  | 26 | 27 => if fld w 17 5 = 0 then .ok (.vsinpi) else .error .field
  | 28 | 29 => if fld w 17 5 = 0 then .ok (.vcospi) else .error .field
  | 30 | 31 => if fld w 17 5 = 0 then .ok (.vfloor) else .error .field
  | 32 | 33 => if fld w 17 5 = 0 then .ok (.vceil) else .error .field
  | 34 | 35 => if fld w 17 5 = 0 then .ok (.vtrunc) else .error .field
  | 36 | 37 => if fld w 17 5 = 0 then .ok (.vrint) else .error .field
  | 38 | 39 => if fld w 17 5 = 0 then .ok (.vclass) else .error .field
  | 64 => .ok (.vaddd)
  | 66 => .ok (.vsubd)
  | 68 => .ok (.vmuld)
  | 70 => .ok (.vdivd)
  | 72 => .ok (.vmind)
  | 74 => .ok (.vmaxd)
  | 76 => if fld w 17 5 = 0 then .ok (.vsqrtd) else .error .field
  | 78 => .ok (.vfmad)
  | _ => .error .func

/-- Major opcode 37, VFMA (R179). -/
def decodeVfma (w : Nat) : Except Illegal Op :=
  match fld w 30 2 with
  | 0 => .ok (.vfma)
  | 1 => .ok (.vfms)
  | 2 => .ok (.vfnma)
  | _ => .ok (.vfnms)

/-- Major opcode 38, VLANE (R181, R182). -/
def decodeVlane (w : Nat) : Except Illegal Op :=
  match fld w 25 7 with
  | 0 => .ok (.vcmpEq)
  | 8 => .ok (.vcmpNe)
  | 16 => .ok (.vcmpLt)
  | 24 => .ok (.vcmpGe)
  | 32 => .ok (.vcmpLtu)
  | 40 => .ok (.vcmpGeu)
  | 48 => .ok (.vcmpFeq)
  | 56 => .ok (.vcmpFlt)
  | 64 => .ok (.vcmpFle)
  | 72 => .ok (.vcmpFun)
  | 1 => .ok (.vsel)
  | 9 => if fld w 17 5 = 0 then .ok (.vbcast) else .error .field
  | 17 => .ok (.vins)
  | 25 => if fld w 22 3 = 7 then .ok (.vext) else .error .field
  | 33 => .ok (.vperm)
  | 41 => .ok (.vshuf)
  | 49 => if fld w 17 5 = 0 then .ok (.vredaddf) else .error .field
  | 57 => if fld w 17 5 = 0 then .ok (.vredmaxf) else .error .field
  | 65 => if fld w 17 5 = 0 then .ok (.vredminf) else .error .field
  | 73 => if fld w 17 5 = 0 then .ok (.vredaddi) else .error .field
  | 81 => if fld w 17 5 = 0 then .ok (.vmov) else .error .field
  | 89 => if fld w 17 5 = 0 then .ok (.viota) else .error .field
  | _ => .error .func

/-- Major opcode 39, VCVT (R184). -/
def decodeVcvt (w : Nat) : Except Illegal Op :=
  if vcvtOk (fld w 29 3) (fld w 26 3) (fld w 25 1) then (if fld w 17 5 = 0 then .ok (.vcvt) else .error .field) else .error .func

/-- Major opcode 40, MAT (R190). -/
def decodeMat (w : Nat) : Except Illegal Op :=
  match fld w 26 6 with
  | 0 => if fld w 9 13 = 0 then .ok (.mzero) else .error .field
  | 1 => .ok (.mlda)
  | 2 => .ok (.mldb)
  | 3 => if fld w 9 13 = 0 then .ok (.mma) else .error .field
  | 4 => if fld w 9 3 = 0 ∧ fld w 17 5 = 0 then .ok (.mgang) else .error .field
  | 5 => if fld w 10 2 = 0 ∧ fld w 14 3 = 0 then .ok (.mdrain) else .error .field
  | 6 => if fld w 10 2 = 0 ∧ fld w 14 4 = 0 then .ok (.mdrainr) else .error .field
  | 7 => if fld w 7 5 = 0 then .ok (.mldcb) else .error .field
  | 8 => if fld w 7 5 = 0 ∧ fld w 17 9 = 224 then .ok (.mfmt) else .error .field
  | 9 => if fld w 12 14 = 7168 then .ok (.mstat) else .error .field
  | _ => .error .func

/-- Major opcode 41, VX2 (R180). -/
def decodeVx2 (w : Nat) : Except Illegal Op :=
  match fld w 30 2 with
  | 0 => .ok (.vfmah)
  | 1 => .ok (.vdot4i)
  | 2 => .ok (.vdot4n)
  | _ => .ok (.vdot2bf)

/-- Major opcode 42, COPY (R206). -/
def decodeCopy (w : Nat) : Except Illegal Op :=
  match fld w 26 6 with
  | 0 => .ok (.cpy)
  | 1 => if fld w 7 5 = 0 ∧ fld w 17 5 = 0 then .ok (.cpyt) else .error .field
  | 2 => .ok (.cpym)
  | 3 => if fld w 17 1 = 0 then .ok (.cpyb) else .error .field
  | 4 => if fld w 10 12 = 0 then .ok (.cwait) else .error .field
  | 5 => .ok (.cpyh)
  | _ => .error .func

/-- Major opcode 43, HANDLE (R218). -/
def decodeHandle (w : Nat) : Except Illegal Op :=
  match fld w 22 10 with
  | 0 => .ok (.halloc)
  | 1 => if fld w 7 5 = 0 ∧ fld w 17 5 = 0 then .ok (.hfree) else .error .field
  | 2 => if fld w 7 5 = 0 then .ok (.hpass) else .error .field
  | 3 => if fld w 12 10 = 0 then .ok (.hopen) else .error .field
  | _ => .error .func

/-- Major opcode 44, PARTY (R312). -/
def decodeParty (w : Nat) : Except Illegal Op :=
  match fld w 22 10 with
  | 0 => if fld w 17 5 = 0 then .ok (.pjoin) else .error .field
  | 1 => if fld w 7 5 = 0 ∧ fld w 17 5 = 0 then .ok (.pleave) else .error .field
  | 2 => if fld w 17 5 = 0 then .ok (.psize) else .error .field
  | 3 => if fld w 17 5 = 0 then .ok (.prank) else .error .field
  | 4 => if fld w 17 5 = 0 then .ok (.pmask) else .error .field
  | _ => .error .func

/-- Major opcode 45, MUSTER (R319). -/
def decodeMuster (w : Nat) : Except Illegal Op :=
  match fld w 26 6 with
  | 0 => if fld w 7 5 = 0 then .ok (.minit) else .error .field
  | 1 => if fld w 7 5 = 0 then .ok (.marrive) else .error .field
  | 2 => if fld w 10 2 = 0 then .ok (.mwait) else .error .field
  | 3 => if fld w 10 2 = 0 ∧ fld w 17 5 = 0 then .ok (.msync) else .error .field
  | 4 => if fld w 7 5 = 0 then .ok (.mdebt) else .error .field
  | _ => .error .func

/-- Major opcode 46, PAIR (R348). -/
def decodePair (w : Nat) : Except Illegal Op :=
  match fld w 26 6 with
  | 0 => if fld w 10 2 = 0 ∧ fld w 17 1 = 0 then .ok (.forkp) else .error .field
  | 1 => if fld w 7 2 = 0 ∧ fld w 20 2 = 0 then .ok (.takep) else .error .field
  | 2 => if fld w 10 2 = 0 ∧ fld w 17 1 = 0 then .ok (.ptest) else .error .field
  | 3 => if fld w 7 3 = 0 then .ok (.pnode) else .error .field
  | 4 => if fld w 7 15 = 0 then .ok (.pdone) else .error .field
  | 5 => if fld w 17 5 = 0 then .ok (.topen) else .error .field
  | _ => .error .func

/-- Major opcode 47, REV (R370). -/
def decodeRev (w : Nat) : Except Illegal Op :=
  match fld w 22 10 with
  | 0 => .ok (.fork)
  | 1 => if fld w 17 5 = 0 then .ok (.join) else .error .field
  | 2 => if fld w 12 10 = 0 then .ok (.joinall) else .error .field
  | 3 => .ok (.rdecl)
  | 4 => if fld w 17 5 = 0 then .ok (.rstat) else .error .field
  | _ => .error .func

/-- Major opcode 48, TASK (R290, R306, R119). -/
def decodeTask (w : Nat) : Except Illegal Op :=
  match fld w 22 10 with
  | 0 => if fld w 7 5 = 0 ∧ fld w 17 1 = 0 then .ok (.tsend) else .error .field
  | 1 => if fld w 7 2 = 0 ∧ fld w 12 5 = 0 ∧ fld w 17 5 ≤ 2 then .ok (.trecv) else .error .field
  | 2 => if fld w 7 5 = 0 then .ok (.rqpush) else .error .field
  | 3 => if fld w 12 10 = 0 then .ok (.rqpop) else .error .field
  | 4 => if fld w 7 15 = 0 then .ok (.yield) else .error .field
  | 5 => if fld w 7 5 = 0 then .ok (.sleep) else .error .field
  | 6 => if fld w 7 15 = 0 then .ok (.wfe) else .error .field
  | 7 => if fld w 17 5 = 0 then .ok (.launch) else .error .field
  | 8 => if fld w 7 15 = 0 then .ok (.done) else .error .field
  | 9 => if fld w 17 5 = 0 then .ok (.timer) else .error .field
  | 10 => if fld w 7 5 = 0 ∧ fld w 17 5 = 0 then .ok (.migrate) else .error .field
  | _ => .error .func

/-- Major opcode 49, SPEC (R386). -/
def decodeSpec (w : Nat) : Except Illegal Op :=
  match fld w 22 10 with
  | 0 => if fld w 7 5 = 0 then .ok (.specopen) else .error .field
  | 1 => if fld w 7 5 = 0 ∧ fld w 17 5 = 0 then .ok (.spectag) else .error .field
  | 2 => if fld w 10 2 = 0 then .ok (.speccommit) else .error .field
  | 3 => if fld w 10 2 = 0 ∧ fld w 17 5 = 0 then .ok (.specabort) else .error .field
  | 4 => if fld w 10 2 = 0 ∧ fld w 17 1 = 0 then .ok (.kvpos) else .error .field
  | 5 => if fld w 7 5 = 0 then .ok (.kvadv) else .error .field
  | 6 => .ok (.balloc)
  | 7 => if fld w 7 5 = 0 then .ok (.bfree) else .error .field
  | 8 => if fld w 7 2 = 0 ∧ fld w 17 1 = 0 then .ok (.pxlook) else .error .field
  | 9 => if fld w 10 2 = 0 then .ok (.pxins) else .error .field
  | 10 => if fld w 7 5 = 0 ∧ fld w 17 5 = 0 then .ok (.specenter) else .error .field
  | _ => .error .func

/-- Major opcode 50, RAST (R406). -/
def decodeRast (w : Nat) : Except Illegal Op :=
  match fld w 26 6 with
  | 0 => if fld w 7 5 = 0 ∧ fld w 17 5 = 0 then .ok (.emitp) else .error .field
  | 1 => match fld w 7 5 with
    | 0 => if fld w 17 5 = 0 then .ok (.seqwm) else .error .field
    | 1 => if fld w 17 5 = 0 then .ok (.seqwmHold) else .error .field
    | _ => .error .field
  | 2 => if fld w 7 5 = 0 ∧ fld w 17 1 = 0 then .ok (.fout) else .error .field
  | 3 => if fld w 7 2 = 0 ∧ fld w 12 5 = 0 then .ok (.fquad) else .error .field
  | 4 => match fld w 17 5 with
    | 0 => if fld w 10 2 = 0 then .ok (.rframeOpen) else .error .field
    | 1 => if fld w 7 10 = 0 then .ok (.rframeLift) else .error .field
    | 2 => if fld w 10 7 = 0 then .ok (.rframeClose) else .error .field
    | _ => .error .field
  | _ => .error .func

/-- Major opcode 51, LINK (R329). -/
def decodeLink (w : Nat) : Except Illegal Op :=
  match fld w 26 6 with
  | 0 => if fld w 7 5 = 0 ∧ fld w 17 1 = 0 then .ok (.rcvpost) else .error .field
  | 1 => if fld w 17 5 = 0 then .ok (.tsarm) else .error .field
  | 2 => if fld w 17 5 = 0 then .ok (.tscan) else .error .field
  | 3 => if fld w 17 5 = 0 then .ok (.ctrrd) else .error .field
  | 4 => if fld w 7 5 = 0 then .ok (.ctradd) else .error .field
  | _ => .error .func

/-- Major opcode 52, CSR (R125). -/
def decodeCsr (w : Nat) : Except Illegal Op :=
  match fld w 29 3 with
  | 0 => if fld w 12 5 = 0 then .ok (.csrr) else .error .field
  | 1 => .ok (.csrw)
  | 2 => .ok (.csrs)
  | 3 => .ok (.csrc)
  | _ => .error .func

/-- Major opcode 53, SYS (R415, R275, R258). -/
def decodeSys (w : Nat) : Except Illegal Op :=
  match fld w 22 10 with
  | 0 => if fld w 7 5 = 0 ∧ fld w 21 1 = 0 then .ok (.trap) else .error .field
  | 1 => if fld w 7 15 = 0 then .ok (.eret) else .error .field
  | 2 => if fld w 7 15 = 0 then .ok (.brk) else .error .field
  | 3 => if fld w 10 2 = 0 ∧ fld w 17 5 = 0 then .ok (.segld) else .error .field
  | 4 => if fld w 17 5 = 0 then .ok (.pwr) else .error .field
  | 5 => if fld w 7 2 = 0 ∧ fld w 17 5 = 0 then .ok (.fbpop) else .error .field
  | 6 => if fld w 7 5 = 0 ∧ fld w 17 5 = 0 then .ok (.replay) else .error .field
  | 7 => if fld w 7 5 = 0 then .ok (.tlbinv) else .error .field
  | 8 => if fld w 17 5 = 0 then .ok (.pgpin) else .error .field
  | 9 => if fld w 17 5 = 0 then .ok (.pgunpin) else .error .field
  | 10 => if fld w 7 15 = 0 then .ok (.nop) else .error .field
  | _ => .error .func

/-- The major opcode map of R85: bits [6:1] name the family, and a value without a family is ILLEGAL_OPCODE (R91). -/
def decode32 (w : Nat) : Except Illegal Op :=
  match fld w 1 6 with
  | 0 => decodeInt w
  | 1 => decodeMul w
  | 2 => decodeAddi w
  | 3 => decodeAndi w
  | 4 => decodeOri w
  | 5 => decodeXori w
  | 6 => decodeShi w
  | 7 => decodeBf w
  | 8 => decodeLui w
  | 9 => decodeAddpc w
  | 10 => decodeCmp w
  | 11 => decodeCmpi w
  | 12 => decodeGuard w
  | 13 => decodeFma w
  | 14 => decodeFps w
  | 15 => decodeBc w
  | 16 => decodeJal w
  | 17 => decodeJalr w
  | 18 => decodePtb w
  | 19 => decodeBr w
  | 20 => decodeLd w
  | 21 => decodeSt w
  | 22 => decodeLds w
  | 23 => decodeStf w
  | 24 => decodeFe w
  | 25 => decodeVmem w
  | 26 => decodeFmem w
  | 28 => decodeMsg w
  | 30 => decodeAtom w
  | 31 => decodeAtomw w
  | 32 => decodeAtomx w
  | 33 => decodeXcell w
  | 34 => decodeFence w
  | 35 => decodeVint w
  | 36 => decodeVflt w
  | 37 => decodeVfma w
  | 38 => decodeVlane w
  | 39 => decodeVcvt w
  | 40 => decodeMat w
  | 41 => decodeVx2 w
  | 42 => decodeCopy w
  | 43 => decodeHandle w
  | 44 => decodeParty w
  | 45 => decodeMuster w
  | 46 => decodePair w
  | 47 => decodeRev w
  | 48 => decodeTask w
  | 49 => decodeSpec w
  | 50 => decodeRast w
  | 51 => decodeLink w
  | 52 => decodeCsr w
  | 53 => decodeSys w
  | _ => .error .opcode

/-- The compact forms of R82, by op in [4:1] and the variant bit k in [15]. -/
def decode16 (w : Nat) : Except Illegal Op :=
  match fld w 1 4, fld w 15 1 with
  | 0, 0 => if w ≠ 0 then .ok (.movC) else .error .opcode
  | 0, 1 => .ok (.vmovC)
  | 1, 0 => .ok (.addC)
  | 1, 1 => .ok (.vaddC)
  | 2, 0 => .ok (.subC)
  | 2, 1 => .ok (.vsubC)
  | 3, 0 => .ok (.andC)
  | 3, 1 => .ok (.vandC)
  | 4, 0 => .ok (.orC)
  | 4, 1 => .ok (.vorC)
  | 5, 0 => .ok (.xorC)
  | 5, 1 => .ok (.vxorC)
  | 6, _ => .ok (.addiC)
  | 7, _ => .ok (.li)
  | 8, _ => .ok (.slliC)
  | 9, _ => .ok (.srliC)
  | 10, _ => .ok (.sraiC)
  | 11, 0 => .ok (.ldd)
  | 12, 0 => .ok (.std)
  | 13, 0 => .ok (.vaddfF32C)
  | 13, 1 => .ok (.vaddfF16C)
  | 14, 0 => .ok (.vmulfF32C)
  | 14, 1 => .ok (.vmulfF16C)
  | 15, 0 => if fld w 7 3 = 0 ∧ fld w 13 2 = 0 then .ok (.btC) else .error .field
  | 15, 1 => if fld w 7 3 = 0 ∧ fld w 13 2 = 0 then .ok (.btnC) else .error .field
  | _, _ => .error .field

/-- The instruction of a word whose fixed bits say `op`: each operand field from its place in the word.
(The compiler has no tag for so many constructors with fields, so this function has no compiled code; the kernel
evaluates it, and `runOp` of Machine/Step.lean is what compiled code runs.) -/
noncomputable def Op.build (op : Op) (w : Nat) : Instr :=
  match op with
  | .add => .add (bits w 7 5) (bits w 12 5) (bits w 17 5)
  | .sub => .sub (bits w 7 5) (bits w 12 5) (bits w 17 5)
  | .and => .and (bits w 7 5) (bits w 12 5) (bits w 17 5)
  | .or => .or (bits w 7 5) (bits w 12 5) (bits w 17 5)
  | .xor => .xor (bits w 7 5) (bits w 12 5) (bits w 17 5)
  | .andn => .andn (bits w 7 5) (bits w 12 5) (bits w 17 5)
  | .orn => .orn (bits w 7 5) (bits w 12 5) (bits w 17 5)
  | .sll => .sll (bits w 7 5) (bits w 12 5) (bits w 17 5)
  | .srl => .srl (bits w 7 5) (bits w 12 5) (bits w 17 5)
  | .sra => .sra (bits w 7 5) (bits w 12 5) (bits w 17 5)
  | .rol => .rol (bits w 7 5) (bits w 12 5) (bits w 17 5)
  | .ror => .ror (bits w 7 5) (bits w 12 5) (bits w 17 5)
  | .min => .min (bits w 7 5) (bits w 12 5) (bits w 17 5)
  | .max => .max (bits w 7 5) (bits w 12 5) (bits w 17 5)
  | .minu => .minu (bits w 7 5) (bits w 12 5) (bits w 17 5)
  | .maxu => .maxu (bits w 7 5) (bits w 12 5) (bits w 17 5)
  | .addw => .addw (bits w 7 5) (bits w 12 5) (bits w 17 5)
  | .subw => .subw (bits w 7 5) (bits w 12 5) (bits w 17 5)
  | .sllw => .sllw (bits w 7 5) (bits w 12 5) (bits w 17 5)
  | .srlw => .srlw (bits w 7 5) (bits w 12 5) (bits w 17 5)
  | .sraw => .sraw (bits w 7 5) (bits w 12 5) (bits w 17 5)
  | .clz => .clz (bits w 7 5) (bits w 12 5)
  | .ctz => .ctz (bits w 7 5) (bits w 12 5)
  | .popc => .popc (bits w 7 5) (bits w 12 5)
  | .brev => .brev (bits w 7 5) (bits w 12 5)
  | .bswap => .bswap (bits w 7 5) (bits w 12 5)
  | .sext => .sext (bits w 7 5) (bits w 12 5) (bits w 17 5)
  | .zext => .zext (bits w 7 5) (bits w 12 5) (bits w 17 5)
  | .lea => .lea (bits w 7 5) (bits w 12 5) (bits w 17 5) (bits w 22 3)
  | .mul => .mul (bits w 7 5) (bits w 12 5) (bits w 17 5)
  | .mulh => .mulh (bits w 7 5) (bits w 12 5) (bits w 17 5)
  | .mulhu => .mulhu (bits w 7 5) (bits w 12 5) (bits w 17 5)
  | .mulhsu => .mulhsu (bits w 7 5) (bits w 12 5) (bits w 17 5)
  | .div => .div (bits w 7 5) (bits w 12 5) (bits w 17 5)
  | .divu => .divu (bits w 7 5) (bits w 12 5) (bits w 17 5)
  | .rem => .rem (bits w 7 5) (bits w 12 5) (bits w 17 5)
  | .remu => .remu (bits w 7 5) (bits w 12 5) (bits w 17 5)
  | .mulw => .mulw (bits w 7 5) (bits w 12 5) (bits w 17 5)
  | .divw => .divw (bits w 7 5) (bits w 12 5) (bits w 17 5)
  | .divuw => .divuw (bits w 7 5) (bits w 12 5) (bits w 17 5)
  | .remw => .remw (bits w 7 5) (bits w 12 5) (bits w 17 5)
  | .remuw => .remuw (bits w 7 5) (bits w 12 5) (bits w 17 5)
  | .addi => .addi (bits w 7 5) (bits w 12 5) (bits w 17 15)
  | .andi => .andi (bits w 7 5) (bits w 12 5) (bits w 17 15)
  | .ori => .ori (bits w 7 5) (bits w 12 5) (bits w 17 15)
  | .xori => .xori (bits w 7 5) (bits w 12 5) (bits w 17 15)
  | .slli => .slli (bits w 7 5) (bits w 12 5) (bits w 17 6)
  | .srli => .srli (bits w 7 5) (bits w 12 5) (bits w 17 6)
  | .srai => .srai (bits w 7 5) (bits w 12 5) (bits w 17 6)
  | .rori => .rori (bits w 7 5) (bits w 12 5) (bits w 17 6)
  | .slliw => .slliw (bits w 7 5) (bits w 12 5) (bits w 17 5)
  | .srliw => .srliw (bits w 7 5) (bits w 12 5) (bits w 17 5)
  | .sraiw => .sraiw (bits w 7 5) (bits w 12 5) (bits w 17 5)
  | .bext => .bext (bits w 7 5) (bits w 12 5) (bits w 17 6) (bits w 23 6)
  | .bexts => .bexts (bits w 7 5) (bits w 12 5) (bits w 17 6) (bits w 23 6)
  | .bins => .bins (bits w 7 5) (bits w 12 5) (bits w 17 6) (bits w 23 6)
  | .lui => .lui (bits w 7 5) (bits w 12 20)
  | .addpc => .addpc (bits w 7 5) (bits w 12 20)
  | .cmpEq => .cmpEq (bits w 7 3) (bits w 10 2) (bits w 12 5) (bits w 17 5)
  | .cmpNe => .cmpNe (bits w 7 3) (bits w 10 2) (bits w 12 5) (bits w 17 5)
  | .cmpLt => .cmpLt (bits w 7 3) (bits w 10 2) (bits w 12 5) (bits w 17 5)
  | .cmpGe => .cmpGe (bits w 7 3) (bits w 10 2) (bits w 12 5) (bits w 17 5)
  | .cmpLtu => .cmpLtu (bits w 7 3) (bits w 10 2) (bits w 12 5) (bits w 17 5)
  | .cmpGeu => .cmpGeu (bits w 7 3) (bits w 10 2) (bits w 12 5) (bits w 17 5)
  | .cmpTst => .cmpTst (bits w 7 3) (bits w 10 2) (bits w 12 5) (bits w 17 5)
  | .cmpTstz => .cmpTstz (bits w 7 3) (bits w 10 2) (bits w 12 5) (bits w 17 5)
  | .cmpFeqS => .cmpFeqS (bits w 7 3) (bits w 10 2) (bits w 12 5) (bits w 17 5)
  | .cmpFltS => .cmpFltS (bits w 7 3) (bits w 10 2) (bits w 12 5) (bits w 17 5)
  | .cmpFleS => .cmpFleS (bits w 7 3) (bits w 10 2) (bits w 12 5) (bits w 17 5)
  | .cmpFunS => .cmpFunS (bits w 7 3) (bits w 10 2) (bits w 12 5) (bits w 17 5)
  | .cmpFeqD => .cmpFeqD (bits w 7 3) (bits w 10 2) (bits w 12 5) (bits w 17 5)
  | .cmpFltD => .cmpFltD (bits w 7 3) (bits w 10 2) (bits w 12 5) (bits w 17 5)
  | .cmpFleD => .cmpFleD (bits w 7 3) (bits w 10 2) (bits w 12 5) (bits w 17 5)
  | .cmpFunD => .cmpFunD (bits w 7 3) (bits w 10 2) (bits w 12 5) (bits w 17 5)
  | .cmpiEq => .cmpiEq (bits w 7 3) (bits w 10 2) (bits w 12 5) (bits w 17 12)
  | .cmpiNe => .cmpiNe (bits w 7 3) (bits w 10 2) (bits w 12 5) (bits w 17 12)
  | .cmpiLt => .cmpiLt (bits w 7 3) (bits w 10 2) (bits w 12 5) (bits w 17 12)
  | .cmpiGe => .cmpiGe (bits w 7 3) (bits w 10 2) (bits w 12 5) (bits w 17 12)
  | .cmpiLtu => .cmpiLtu (bits w 7 3) (bits w 10 2) (bits w 12 5) (bits w 17 12)
  | .cmpiGeu => .cmpiGeu (bits w 7 3) (bits w 10 2) (bits w 12 5) (bits w 17 12)
  | .cmpiTst => .cmpiTst (bits w 7 3) (bits w 10 2) (bits w 12 5) (bits w 17 12)
  | .cmpiTstz => .cmpiTstz (bits w 7 3) (bits w 10 2) (bits w 12 5) (bits w 17 12)
  | .gand => .gand (bits w 7 3) (bits w 12 3) (bits w 17 3)
  | .gor => .gor (bits w 7 3) (bits w 12 3) (bits w 17 3)
  | .gxor => .gxor (bits w 7 3) (bits w 12 3) (bits w 17 3)
  | .gandn => .gandn (bits w 7 3) (bits w 12 3) (bits w 17 3)
  | .gnot => .gnot (bits w 7 3) (bits w 12 3)
  | .gset => .gset (bits w 7 3) (bits w 12 5)
  | .gget => .gget (bits w 7 5) (bits w 12 3)
  | .gwait => .gwait (bits w 12 3)
  | .sel => .sel (bits w 7 5) (bits w 12 5) (bits w 17 5) (bits w 22 3)
  | .fmaddS => .fmaddS (bits w 7 5) (bits w 12 5) (bits w 17 5) (bits w 22 5)
  | .fmsubS => .fmsubS (bits w 7 5) (bits w 12 5) (bits w 17 5) (bits w 22 5)
  | .fnmaddS => .fnmaddS (bits w 7 5) (bits w 12 5) (bits w 17 5) (bits w 22 5)
  | .fnmsubS => .fnmsubS (bits w 7 5) (bits w 12 5) (bits w 17 5) (bits w 22 5)
  | .fmaddD => .fmaddD (bits w 7 5) (bits w 12 5) (bits w 17 5) (bits w 22 5)
  | .fmsubD => .fmsubD (bits w 7 5) (bits w 12 5) (bits w 17 5) (bits w 22 5)
  | .fnmaddD => .fnmaddD (bits w 7 5) (bits w 12 5) (bits w 17 5) (bits w 22 5)
  | .fnmsubD => .fnmsubD (bits w 7 5) (bits w 12 5) (bits w 17 5) (bits w 22 5)
  | .faddS => .faddS (bits w 7 5) (bits w 12 5) (bits w 17 5)
  | .fsubS => .fsubS (bits w 7 5) (bits w 12 5) (bits w 17 5)
  | .fmulS => .fmulS (bits w 7 5) (bits w 12 5) (bits w 17 5)
  | .fdivS => .fdivS (bits w 7 5) (bits w 12 5) (bits w 17 5)
  | .fsqrtS => .fsqrtS (bits w 7 5) (bits w 12 5)
  | .fminS => .fminS (bits w 7 5) (bits w 12 5) (bits w 17 5)
  | .fmaxS => .fmaxS (bits w 7 5) (bits w 12 5) (bits w 17 5)
  | .fsgnjS => .fsgnjS (bits w 7 5) (bits w 12 5) (bits w 17 5)
  | .fsgnjnS => .fsgnjnS (bits w 7 5) (bits w 12 5) (bits w 17 5)
  | .fsgnjxS => .fsgnjxS (bits w 7 5) (bits w 12 5) (bits w 17 5)
  | .fclassS => .fclassS (bits w 7 5) (bits w 12 5)
  | .faddD => .faddD (bits w 7 5) (bits w 12 5) (bits w 17 5)
  | .fsubD => .fsubD (bits w 7 5) (bits w 12 5) (bits w 17 5)
  | .fmulD => .fmulD (bits w 7 5) (bits w 12 5) (bits w 17 5)
  | .fdivD => .fdivD (bits w 7 5) (bits w 12 5) (bits w 17 5)
  | .fsqrtD => .fsqrtD (bits w 7 5) (bits w 12 5)
  | .fminD => .fminD (bits w 7 5) (bits w 12 5) (bits w 17 5)
  | .fmaxD => .fmaxD (bits w 7 5) (bits w 12 5) (bits w 17 5)
  | .fsgnjD => .fsgnjD (bits w 7 5) (bits w 12 5) (bits w 17 5)
  | .fsgnjnD => .fsgnjnD (bits w 7 5) (bits w 12 5) (bits w 17 5)
  | .fsgnjxD => .fsgnjxD (bits w 7 5) (bits w 12 5) (bits w 17 5)
  | .fclassD => .fclassD (bits w 7 5) (bits w 12 5)
  | .fcvtDS => .fcvtDS (bits w 7 5) (bits w 12 5)
  | .fcvtSD => .fcvtSD (bits w 7 5) (bits w 12 5)
  | .fcvtSH => .fcvtSH (bits w 7 5) (bits w 12 5)
  | .fcvtHS => .fcvtHS (bits w 7 5) (bits w 12 5)
  | .fcvtSB => .fcvtSB (bits w 7 5) (bits w 12 5)
  | .fcvtBS => .fcvtBS (bits w 7 5) (bits w 12 5)
  | .fcvtDH => .fcvtDH (bits w 7 5) (bits w 12 5)
  | .fcvtHD => .fcvtHD (bits w 7 5) (bits w 12 5)
  | .fcvtWS => .fcvtWS (bits w 7 5) (bits w 12 5)
  | .fcvtWuS => .fcvtWuS (bits w 7 5) (bits w 12 5)
  | .fcvtLS => .fcvtLS (bits w 7 5) (bits w 12 5)
  | .fcvtLuS => .fcvtLuS (bits w 7 5) (bits w 12 5)
  | .fcvtWD => .fcvtWD (bits w 7 5) (bits w 12 5)
  | .fcvtWuD => .fcvtWuD (bits w 7 5) (bits w 12 5)
  | .fcvtLD => .fcvtLD (bits w 7 5) (bits w 12 5)
  | .fcvtLuD => .fcvtLuD (bits w 7 5) (bits w 12 5)
  | .fcvtWSSat => .fcvtWSSat (bits w 7 5) (bits w 12 5)
  | .fcvtWuSSat => .fcvtWuSSat (bits w 7 5) (bits w 12 5)
  | .fcvtLSSat => .fcvtLSSat (bits w 7 5) (bits w 12 5)
  | .fcvtLuSSat => .fcvtLuSSat (bits w 7 5) (bits w 12 5)
  | .fcvtWDSat => .fcvtWDSat (bits w 7 5) (bits w 12 5)
  | .fcvtWuDSat => .fcvtWuDSat (bits w 7 5) (bits w 12 5)
  | .fcvtLDSat => .fcvtLDSat (bits w 7 5) (bits w 12 5)
  | .fcvtLuDSat => .fcvtLuDSat (bits w 7 5) (bits w 12 5)
  | .fcvtSW => .fcvtSW (bits w 7 5) (bits w 12 5)
  | .fcvtSWu => .fcvtSWu (bits w 7 5) (bits w 12 5)
  | .fcvtSL => .fcvtSL (bits w 7 5) (bits w 12 5)
  | .fcvtSLu => .fcvtSLu (bits w 7 5) (bits w 12 5)
  | .fcvtDW => .fcvtDW (bits w 7 5) (bits w 12 5)
  | .fcvtDWu => .fcvtDWu (bits w 7 5) (bits w 12 5)
  | .fcvtDL => .fcvtDL (bits w 7 5) (bits w 12 5)
  | .fcvtDLu => .fcvtDLu (bits w 7 5) (bits w 12 5)
  | .bcEq => .bcEq (bits w 7 5) (bits w 12 5) (bits w 20 12)
  | .bcNe => .bcNe (bits w 7 5) (bits w 12 5) (bits w 20 12)
  | .bcLt => .bcLt (bits w 7 5) (bits w 12 5) (bits w 20 12)
  | .bcGe => .bcGe (bits w 7 5) (bits w 12 5) (bits w 20 12)
  | .bcLtu => .bcLtu (bits w 7 5) (bits w 12 5) (bits w 20 12)
  | .bcGeu => .bcGeu (bits w 7 5) (bits w 12 5) (bits w 20 12)
  | .jal => .jal (bits w 7 5) (bits w 12 20)
  | .jalr => .jalr (bits w 7 5) (bits w 12 5) (bits w 17 15)
  | .ptb => .ptb (bits w 7 2) (bits w 12 20)
  | .bt => .bt (bits w 7 2) (bits w 12 3)
  | .btn => .btn (bits w 7 2) (bits w 12 3)
  | .bta => .bta (bits w 7 2)
  | .ptbr => .ptbr (bits w 7 2) (bits w 12 5)
  | .callt => .callt (bits w 7 5) (bits w 12 2)
  | .ldB => .ldB (bits w 7 5) (bits w 12 5) (bits w 17 3) (bits w 23 9)
  | .ldBu => .ldBu (bits w 7 5) (bits w 12 5) (bits w 17 3) (bits w 23 9)
  | .ldH => .ldH (bits w 7 5) (bits w 12 5) (bits w 17 3) (bits w 23 9)
  | .ldHu => .ldHu (bits w 7 5) (bits w 12 5) (bits w 17 3) (bits w 23 9)
  | .ldW => .ldW (bits w 7 5) (bits w 12 5) (bits w 17 3) (bits w 23 9)
  | .ldWu => .ldWu (bits w 7 5) (bits w 12 5) (bits w 17 3) (bits w 23 9)
  | .ldD => .ldD (bits w 7 5) (bits w 12 5) (bits w 17 3) (bits w 23 9)
  | .st => .st (bits w 7 5) (bits w 12 5) (bits w 17 3) (bits w 20 2) (bits w 23 9)
  | .ldsK => .ldsK (bits w 7 5) (bits w 12 5) (bits w 17 3) (bits w 21 1) (bits w 23 9)
  | .ldsC => .ldsC (bits w 7 5) (bits w 12 5) (bits w 17 3) (bits w 21 1) (bits w 23 9)
  | .stf => .stf (bits w 7 5) (bits w 12 5) (bits w 17 3) (bits w 21 1) (bits w 23 9)
  | .stfE => .stfE (bits w 7 5) (bits w 12 5) (bits w 17 3) (bits w 21 1) (bits w 23 9)
  | .feset => .feset (bits w 12 5) (bits w 17 3)
  | .feclr => .feclr (bits w 12 5) (bits w 17 3)
  | .fetest => .fetest (bits w 7 5) (bits w 12 5) (bits w 17 3)
  | .fewait => .fewait (bits w 12 5) (bits w 17 3)
  | .ldv => .ldv (bits w 7 5) (bits w 12 5) (bits w 17 3) (bits w 23 9)
  | .stv => .stv (bits w 7 5) (bits w 12 5) (bits w 17 3) (bits w 23 9)
  | .ldvs => .ldvs (bits w 7 5) (bits w 12 5) (bits w 17 3) (bits w 23 9)
  | .stvf => .stvf (bits w 7 5) (bits w 12 5) (bits w 17 3) (bits w 23 9)
  | .ldvh => .ldvh (bits w 7 5) (bits w 12 5) (bits w 17 3) (bits w 23 9)
  | .stvh => .stvh (bits w 7 5) (bits w 12 5) (bits w 17 3) (bits w 23 9)
  | .ldvb => .ldvb (bits w 7 5) (bits w 12 5) (bits w 17 3) (bits w 23 9)
  | .ldx => .ldx (bits w 7 5) (bits w 12 5) (bits w 17 3) (bits w 22 3) (bits w 25 1)
  | .ldxb => .ldxb (bits w 7 5) (bits w 12 5) (bits w 17 3) (bits w 22 3) (bits w 25 1)
  | .stblk => .stblk (bits w 9 3) (bits w 12 5) (bits w 17 3) (bits w 22 3) (bits w 25 1)
  | .pref => .pref (bits w 12 5) (bits w 17 3) (bits w 22 3) (bits w 25 1)
  | .amsend => .amsend (bits w 7 5) (bits w 12 5) (bits w 18 4) (bits w 22 3) (bits w 25 1)
  | .amret => .amret (bits w 12 5) (bits w 22 3) (bits w 25 1)
  | .rfetch => .rfetch (bits w 7 5) (bits w 12 5) (bits w 18 4) (bits w 22 3) (bits w 25 1)
  | .atomAdd => .atomAdd (bits w 7 5) (bits w 12 5) (bits w 17 5) (bits w 22 5) (bits w 27 2)
  | .atomAnd => .atomAnd (bits w 7 5) (bits w 12 5) (bits w 17 5) (bits w 22 5) (bits w 27 2)
  | .atomOr => .atomOr (bits w 7 5) (bits w 12 5) (bits w 17 5) (bits w 22 5) (bits w 27 2)
  | .atomXor => .atomXor (bits w 7 5) (bits w 12 5) (bits w 17 5) (bits w 22 5) (bits w 27 2)
  | .atomXchg => .atomXchg (bits w 7 5) (bits w 12 5) (bits w 17 5) (bits w 22 5) (bits w 27 2)
  | .atomMin => .atomMin (bits w 7 5) (bits w 12 5) (bits w 17 5) (bits w 22 5) (bits w 27 2)
  | .atomMax => .atomMax (bits w 7 5) (bits w 12 5) (bits w 17 5) (bits w 22 5) (bits w 27 2)
  | .atomCas => .atomCas (bits w 7 5) (bits w 12 5) (bits w 18 4) (bits w 22 5) (bits w 27 2)
  | .atomwAdd => .atomwAdd (bits w 7 5) (bits w 12 5) (bits w 17 5) (bits w 22 5) (bits w 27 2)
  | .atomwAnd => .atomwAnd (bits w 7 5) (bits w 12 5) (bits w 17 5) (bits w 22 5) (bits w 27 2)
  | .atomwOr => .atomwOr (bits w 7 5) (bits w 12 5) (bits w 17 5) (bits w 22 5) (bits w 27 2)
  | .atomwXor => .atomwXor (bits w 7 5) (bits w 12 5) (bits w 17 5) (bits w 22 5) (bits w 27 2)
  | .atomwXchg => .atomwXchg (bits w 7 5) (bits w 12 5) (bits w 17 5) (bits w 22 5) (bits w 27 2)
  | .atomwMin => .atomwMin (bits w 7 5) (bits w 12 5) (bits w 17 5) (bits w 22 5) (bits w 27 2)
  | .atomwMax => .atomwMax (bits w 7 5) (bits w 12 5) (bits w 17 5) (bits w 22 5) (bits w 27 2)
  | .atomwCas => .atomwCas (bits w 7 5) (bits w 12 5) (bits w 18 4) (bits w 22 5) (bits w 27 2)
  | .atomxMinu => .atomxMinu (bits w 7 5) (bits w 12 5) (bits w 17 5) (bits w 22 5) (bits w 27 2)
  | .atomxMaxu => .atomxMaxu (bits w 7 5) (bits w 12 5) (bits w 17 5) (bits w 22 5) (bits w 27 2)
  | .atomxFminS => .atomxFminS (bits w 7 5) (bits w 12 5) (bits w 17 5) (bits w 22 5) (bits w 27 2)
  | .atomxFmaxS => .atomxFmaxS (bits w 7 5) (bits w 12 5) (bits w 17 5) (bits w 22 5) (bits w 27 2)
  | .atomxFminD => .atomxFminD (bits w 7 5) (bits w 12 5) (bits w 17 5) (bits w 22 5) (bits w 27 2)
  | .atomxFmaxD => .atomxFmaxD (bits w 7 5) (bits w 12 5) (bits w 17 5) (bits w 22 5) (bits w 27 2)
  | .xset => .xset (bits w 12 5) (bits w 17 5)
  | .xaddS => .xaddS (bits w 12 5) (bits w 17 5)
  | .xaddD => .xaddD (bits w 12 5) (bits w 17 5)
  | .xaddB => .xaddB (bits w 12 5) (bits w 17 5) (bits w 22 5)
  | .xrdS => .xrdS (bits w 7 5) (bits w 12 5)
  | .xrdD => .xrdD (bits w 7 5) (bits w 12 5)
  | .xmaxe => .xmaxe (bits w 7 5) (bits w 12 5) (bits w 17 5)
  | .fenceAcq => .fenceAcq (bits w 12 5)
  | .fenceRel => .fenceRel (bits w 12 5)
  | .fenceAr => .fenceAr (bits w 12 5)
  | .vadd => .vadd (bits w 7 5) (bits w 12 5) (bits w 17 5) (bits w 22 3) (bits w 25 2)
  | .vsub => .vsub (bits w 7 5) (bits w 12 5) (bits w 17 5) (bits w 22 3) (bits w 25 2)
  | .vmul => .vmul (bits w 7 5) (bits w 12 5) (bits w 17 5) (bits w 22 3) (bits w 25 2)
  | .vmulh => .vmulh (bits w 7 5) (bits w 12 5) (bits w 17 5) (bits w 22 3) (bits w 25 2)
  | .vmulhn => .vmulhn (bits w 7 5) (bits w 12 5) (bits w 17 5) (bits w 22 3) (bits w 25 2)
  | .vand => .vand (bits w 7 5) (bits w 12 5) (bits w 17 5) (bits w 22 3) (bits w 25 2)
  | .vor => .vor (bits w 7 5) (bits w 12 5) (bits w 17 5) (bits w 22 3) (bits w 25 2)
  | .vxor => .vxor (bits w 7 5) (bits w 12 5) (bits w 17 5) (bits w 22 3) (bits w 25 2)
  | .vandn => .vandn (bits w 7 5) (bits w 12 5) (bits w 17 5) (bits w 22 3) (bits w 25 2)
  | .vshl => .vshl (bits w 7 5) (bits w 12 5) (bits w 17 5) (bits w 22 3) (bits w 25 2)
  | .vshr => .vshr (bits w 7 5) (bits w 12 5) (bits w 17 5) (bits w 22 3) (bits w 25 2)
  | .vsra => .vsra (bits w 7 5) (bits w 12 5) (bits w 17 5) (bits w 22 3) (bits w 25 2)
  | .vmin => .vmin (bits w 7 5) (bits w 12 5) (bits w 17 5) (bits w 22 3) (bits w 25 2)
  | .vmax => .vmax (bits w 7 5) (bits w 12 5) (bits w 17 5) (bits w 22 3) (bits w 25 2)
  | .vminn => .vminn (bits w 7 5) (bits w 12 5) (bits w 17 5) (bits w 22 3) (bits w 25 2)
  | .vmaxn => .vmaxn (bits w 7 5) (bits w 12 5) (bits w 17 5) (bits w 22 3) (bits w 25 2)
  | .vabs => .vabs (bits w 7 5) (bits w 12 5) (bits w 22 3) (bits w 25 2)
  | .vneg => .vneg (bits w 7 5) (bits w 12 5) (bits w 22 3) (bits w 25 2)
  | .vadds => .vadds (bits w 7 5) (bits w 12 5) (bits w 17 5) (bits w 22 3) (bits w 25 2)
  | .vsubs => .vsubs (bits w 7 5) (bits w 12 5) (bits w 17 5) (bits w 22 3) (bits w 25 2)
  | .vaddf => .vaddf (bits w 7 5) (bits w 12 5) (bits w 17 5) (bits w 22 3) (bits w 25 1)
  | .vsubf => .vsubf (bits w 7 5) (bits w 12 5) (bits w 17 5) (bits w 22 3) (bits w 25 1)
  | .vmulf => .vmulf (bits w 7 5) (bits w 12 5) (bits w 17 5) (bits w 22 3) (bits w 25 1)
  | .vdivf => .vdivf (bits w 7 5) (bits w 12 5) (bits w 17 5) (bits w 22 3) (bits w 25 1)
  | .vminf => .vminf (bits w 7 5) (bits w 12 5) (bits w 17 5) (bits w 22 3) (bits w 25 1)
  | .vmaxf => .vmaxf (bits w 7 5) (bits w 12 5) (bits w 17 5) (bits w 22 3) (bits w 25 1)
  | .vabsf => .vabsf (bits w 7 5) (bits w 12 5) (bits w 22 3) (bits w 25 1)
  | .vnegf => .vnegf (bits w 7 5) (bits w 12 5) (bits w 22 3) (bits w 25 1)
  | .vsqrt => .vsqrt (bits w 7 5) (bits w 12 5) (bits w 22 3) (bits w 25 1)
  | .vrcp => .vrcp (bits w 7 5) (bits w 12 5) (bits w 22 3) (bits w 25 1)
  | .vrsq => .vrsq (bits w 7 5) (bits w 12 5) (bits w 22 3) (bits w 25 1)
  | .vexp2 => .vexp2 (bits w 7 5) (bits w 12 5) (bits w 22 3) (bits w 25 1)
  | .vlog2 => .vlog2 (bits w 7 5) (bits w 12 5) (bits w 22 3) (bits w 25 1)
  | .vsinpi => .vsinpi (bits w 7 5) (bits w 12 5) (bits w 22 3) (bits w 25 1)
  | .vcospi => .vcospi (bits w 7 5) (bits w 12 5) (bits w 22 3) (bits w 25 1)
  | .vfloor => .vfloor (bits w 7 5) (bits w 12 5) (bits w 22 3) (bits w 25 1)
  | .vceil => .vceil (bits w 7 5) (bits w 12 5) (bits w 22 3) (bits w 25 1)
  | .vtrunc => .vtrunc (bits w 7 5) (bits w 12 5) (bits w 22 3) (bits w 25 1)
  | .vrint => .vrint (bits w 7 5) (bits w 12 5) (bits w 22 3) (bits w 25 1)
  | .vclass => .vclass (bits w 7 5) (bits w 12 5) (bits w 22 3) (bits w 25 1)
  | .vaddd => .vaddd (bits w 7 5) (bits w 12 5) (bits w 17 5) (bits w 22 3)
  | .vsubd => .vsubd (bits w 7 5) (bits w 12 5) (bits w 17 5) (bits w 22 3)
  | .vmuld => .vmuld (bits w 7 5) (bits w 12 5) (bits w 17 5) (bits w 22 3)
  | .vdivd => .vdivd (bits w 7 5) (bits w 12 5) (bits w 17 5) (bits w 22 3)
  | .vmind => .vmind (bits w 7 5) (bits w 12 5) (bits w 17 5) (bits w 22 3)
  | .vmaxd => .vmaxd (bits w 7 5) (bits w 12 5) (bits w 17 5) (bits w 22 3)
  | .vsqrtd => .vsqrtd (bits w 7 5) (bits w 12 5) (bits w 22 3)
  | .vfmad => .vfmad (bits w 7 5) (bits w 12 5) (bits w 17 5) (bits w 22 3)
  | .vfma => .vfma (bits w 7 5) (bits w 12 5) (bits w 17 5) (bits w 22 5) (bits w 27 3)
  | .vfms => .vfms (bits w 7 5) (bits w 12 5) (bits w 17 5) (bits w 22 5) (bits w 27 3)
  | .vfnma => .vfnma (bits w 7 5) (bits w 12 5) (bits w 17 5) (bits w 22 5) (bits w 27 3)
  | .vfnms => .vfnms (bits w 7 5) (bits w 12 5) (bits w 17 5) (bits w 22 5) (bits w 27 3)
  | .vfmah => .vfmah (bits w 7 5) (bits w 12 5) (bits w 17 5) (bits w 22 5) (bits w 27 3)
  | .vdot4i => .vdot4i (bits w 7 5) (bits w 12 5) (bits w 17 5) (bits w 22 5) (bits w 27 3)
  | .vdot4n => .vdot4n (bits w 7 5) (bits w 12 5) (bits w 17 5) (bits w 22 5) (bits w 27 3)
  | .vdot2bf => .vdot2bf (bits w 7 5) (bits w 12 5) (bits w 17 5) (bits w 22 5) (bits w 27 3)
  | .vcmpEq => .vcmpEq (bits w 7 3) (bits w 10 2) (bits w 12 5) (bits w 17 5) (bits w 22 3)
  | .vcmpNe => .vcmpNe (bits w 7 3) (bits w 10 2) (bits w 12 5) (bits w 17 5) (bits w 22 3)
  | .vcmpLt => .vcmpLt (bits w 7 3) (bits w 10 2) (bits w 12 5) (bits w 17 5) (bits w 22 3)
  | .vcmpGe => .vcmpGe (bits w 7 3) (bits w 10 2) (bits w 12 5) (bits w 17 5) (bits w 22 3)
  | .vcmpLtu => .vcmpLtu (bits w 7 3) (bits w 10 2) (bits w 12 5) (bits w 17 5) (bits w 22 3)
  | .vcmpGeu => .vcmpGeu (bits w 7 3) (bits w 10 2) (bits w 12 5) (bits w 17 5) (bits w 22 3)
  | .vcmpFeq => .vcmpFeq (bits w 7 3) (bits w 10 2) (bits w 12 5) (bits w 17 5) (bits w 22 3)
  | .vcmpFlt => .vcmpFlt (bits w 7 3) (bits w 10 2) (bits w 12 5) (bits w 17 5) (bits w 22 3)
  | .vcmpFle => .vcmpFle (bits w 7 3) (bits w 10 2) (bits w 12 5) (bits w 17 5) (bits w 22 3)
  | .vcmpFun => .vcmpFun (bits w 7 3) (bits w 10 2) (bits w 12 5) (bits w 17 5) (bits w 22 3)
  | .vsel => .vsel (bits w 7 5) (bits w 12 5) (bits w 17 5) (bits w 22 3)
  | .vbcast => .vbcast (bits w 7 5) (bits w 12 5) (bits w 22 3)
  | .vins => .vins (bits w 7 5) (bits w 12 5) (bits w 17 5) (bits w 22 3)
  | .vext => .vext (bits w 7 5) (bits w 12 5) (bits w 17 5)
  | .vperm => .vperm (bits w 7 5) (bits w 12 5) (bits w 17 5) (bits w 22 3)
  | .vshuf => .vshuf (bits w 7 5) (bits w 12 5) (bits w 17 5) (bits w 22 3)
  | .vredaddf => .vredaddf (bits w 7 5) (bits w 12 5) (bits w 22 3)
  | .vredmaxf => .vredmaxf (bits w 7 5) (bits w 12 5) (bits w 22 3)
  | .vredminf => .vredminf (bits w 7 5) (bits w 12 5) (bits w 22 3)
  | .vredaddi => .vredaddi (bits w 7 5) (bits w 12 5) (bits w 22 3)
  | .vmov => .vmov (bits w 7 5) (bits w 12 5) (bits w 22 3)
  | .viota => .viota (bits w 7 5) (bits w 12 5) (bits w 22 3)
  | .vcvt => .vcvt (bits w 7 5) (bits w 12 5) (bits w 22 3) (bits w 25 1) (bits w 26 3) (bits w 29 3)
  | .mzero => .mzero (bits w 7 2) (bits w 22 3) (bits w 25 1)
  | .mlda => .mlda (bits w 7 5) (bits w 12 5) (bits w 17 5) (bits w 22 3) (bits w 25 1)
  | .mldb => .mldb (bits w 7 5) (bits w 12 5) (bits w 17 5) (bits w 22 3) (bits w 25 1)
  | .mma => .mma (bits w 7 2) (bits w 22 3) (bits w 25 1)
  | .mgang => .mgang (bits w 7 2) (bits w 12 5) (bits w 22 3) (bits w 25 1)
  | .mdrain => .mdrain (bits w 7 3) (bits w 12 2) (bits w 17 5) (bits w 22 3) (bits w 25 1)
  | .mdrainr => .mdrainr (bits w 7 3) (bits w 12 2) (bits w 18 4) (bits w 22 3) (bits w 25 1)
  | .mldcb => .mldcb (bits w 12 5) (bits w 17 5) (bits w 22 3) (bits w 25 1)
  | .mfmt => .mfmt (bits w 12 5)
  | .mstat => .mstat (bits w 7 5)
  | .cpy => .cpy (bits w 7 5) (bits w 12 5) (bits w 17 5) (bits w 22 3) (bits w 25 1)
  | .cpyt => .cpyt (bits w 12 5) (bits w 22 3) (bits w 25 1)
  | .cpym => .cpym (bits w 7 5) (bits w 12 5) (bits w 17 5) (bits w 22 3) (bits w 25 1)
  | .cpyb => .cpyb (bits w 7 5) (bits w 12 5) (bits w 18 4) (bits w 22 3) (bits w 25 1)
  | .cwait => .cwait (bits w 7 3) (bits w 22 3) (bits w 25 1)
  | .cpyh => .cpyh (bits w 7 5) (bits w 12 5) (bits w 17 5) (bits w 22 3) (bits w 25 1)
  | .halloc => .halloc (bits w 7 5) (bits w 12 5) (bits w 17 5)
  | .hfree => .hfree (bits w 12 5)
  | .hpass => .hpass (bits w 12 5) (bits w 17 5)
  | .hopen => .hopen (bits w 7 5)
  | .pjoin => .pjoin (bits w 7 5) (bits w 12 5)
  | .pleave => .pleave (bits w 12 5)
  | .psize => .psize (bits w 7 5) (bits w 12 5)
  | .prank => .prank (bits w 7 5) (bits w 12 5)
  | .pmask => .pmask (bits w 7 5) (bits w 12 5)
  | .minit => .minit (bits w 12 5) (bits w 17 5) (bits w 22 3) (bits w 25 1)
  | .marrive => .marrive (bits w 12 5) (bits w 17 5) (bits w 22 3) (bits w 25 1)
  | .mwait => .mwait (bits w 7 3) (bits w 12 5) (bits w 17 5) (bits w 22 3) (bits w 25 1)
  | .msync => .msync (bits w 7 3) (bits w 12 5) (bits w 22 3) (bits w 25 1)
  | .mdebt => .mdebt (bits w 12 5) (bits w 17 5) (bits w 22 3) (bits w 25 1)
  | .forkp => .forkp (bits w 7 3) (bits w 12 5) (bits w 18 4) (bits w 22 3) (bits w 25 1)
  | .takep => .takep (bits w 9 3) (bits w 12 5) (bits w 17 3) (bits w 22 3) (bits w 25 1)
  | .ptest => .ptest (bits w 7 3) (bits w 12 5) (bits w 18 4) (bits w 22 3) (bits w 25 1)
  | .pnode => .pnode (bits w 10 2) (bits w 12 5) (bits w 17 5) (bits w 22 3) (bits w 25 1)
  | .pdone => .pdone (bits w 22 3) (bits w 25 1)
  | .topen => .topen (bits w 7 5) (bits w 12 5) (bits w 22 3) (bits w 25 1)
  | .fork => .fork (bits w 7 5) (bits w 12 5) (bits w 17 5)
  | .join => .join (bits w 7 5) (bits w 12 5)
  | .joinall => .joinall (bits w 7 5)
  | .rdecl => .rdecl (bits w 7 5) (bits w 12 5) (bits w 17 5)
  | .rstat => .rstat (bits w 7 5) (bits w 12 5)
  | .tsend => .tsend (bits w 12 5) (bits w 18 4)
  | .trecv => .trecv (bits w 9 3) (bits w 17 5)
  | .rqpush => .rqpush (bits w 12 5) (bits w 17 5)
  | .rqpop => .rqpop (bits w 7 5)
  | .yield => .yield
  | .sleep => .sleep (bits w 12 5) (bits w 17 5)
  | .wfe => .wfe
  | .launch => .launch (bits w 7 5) (bits w 12 5)
  | .done => .done
  | .timer => .timer (bits w 7 5) (bits w 12 5)
  | .migrate => .migrate (bits w 12 5)
  | .specopen => .specopen (bits w 12 5) (bits w 17 5)
  | .spectag => .spectag (bits w 12 5)
  | .speccommit => .speccommit (bits w 7 3) (bits w 12 5) (bits w 17 5)
  | .specabort => .specabort (bits w 7 3) (bits w 12 5)
  | .kvpos => .kvpos (bits w 7 3) (bits w 12 5) (bits w 18 4)
  | .kvadv => .kvadv (bits w 12 5) (bits w 17 5)
  | .balloc => .balloc (bits w 7 5) (bits w 12 5) (bits w 17 5)
  | .bfree => .bfree (bits w 12 5) (bits w 17 5)
  | .pxlook => .pxlook (bits w 9 3) (bits w 12 5) (bits w 18 4)
  | .pxins => .pxins (bits w 7 3) (bits w 12 5) (bits w 17 5)
  | .specenter => .specenter (bits w 12 5)
  | .emitp => .emitp (bits w 12 5) (bits w 22 3) (bits w 25 1)
  | .seqwm => .seqwm (bits w 12 5) (bits w 22 3) (bits w 25 1)
  | .seqwmHold => .seqwmHold (bits w 12 5) (bits w 22 3) (bits w 25 1)
  | .fout => .fout (bits w 12 5) (bits w 18 4) (bits w 22 3) (bits w 25 1)
  | .fquad => .fquad (bits w 9 3) (bits w 17 5) (bits w 22 3) (bits w 25 1)
  | .rframeOpen => .rframeOpen (bits w 7 3) (bits w 12 5) (bits w 22 3) (bits w 25 1)
  | .rframeLift => .rframeLift (bits w 22 3) (bits w 25 1)
  | .rframeClose => .rframeClose (bits w 7 3) (bits w 22 3) (bits w 25 1)
  | .rcvpost => .rcvpost (bits w 12 5) (bits w 18 4) (bits w 22 3) (bits w 25 1)
  | .tsarm => .tsarm (bits w 7 5) (bits w 12 5) (bits w 22 3) (bits w 25 1)
  | .tscan => .tscan (bits w 7 5) (bits w 12 5) (bits w 22 3) (bits w 25 1)
  | .ctrrd => .ctrrd (bits w 7 5) (bits w 12 5) (bits w 22 3) (bits w 25 1)
  | .ctradd => .ctradd (bits w 12 5) (bits w 17 5) (bits w 22 3) (bits w 25 1)
  | .csrr => .csrr (bits w 7 5) (bits w 17 12)
  | .csrw => .csrw (bits w 7 5) (bits w 12 5) (bits w 17 12)
  | .csrs => .csrs (bits w 7 5) (bits w 12 5) (bits w 17 12)
  | .csrc => .csrc (bits w 7 5) (bits w 12 5) (bits w 17 12)
  | .trap => .trap (bits w 12 5) (bits w 17 4)
  | .eret => .eret
  | .brk => .brk
  | .segld => .segld (bits w 7 3) (bits w 12 5)
  | .pwr => .pwr (bits w 7 5) (bits w 12 5)
  | .fbpop => .fbpop (bits w 9 3) (bits w 12 5)
  | .replay => .replay (bits w 12 5)
  | .tlbinv => .tlbinv (bits w 12 5) (bits w 17 5)
  | .pgpin => .pgpin (bits w 7 5) (bits w 12 5)
  | .pgunpin => .pgunpin (bits w 7 5) (bits w 12 5)
  | .nop => .nop
  | .movC => .movC (bits w 5 5) (bits w 10 5)
  | .vmovC => .vmovC (bits w 5 5) (bits w 10 5)
  | .addC => .addC (bits w 5 5) (bits w 10 5)
  | .vaddC => .vaddC (bits w 5 5) (bits w 10 5)
  | .subC => .subC (bits w 5 5) (bits w 10 5)
  | .vsubC => .vsubC (bits w 5 5) (bits w 10 5)
  | .andC => .andC (bits w 5 5) (bits w 10 5)
  | .vandC => .vandC (bits w 5 5) (bits w 10 5)
  | .orC => .orC (bits w 5 5) (bits w 10 5)
  | .vorC => .vorC (bits w 5 5) (bits w 10 5)
  | .xorC => .xorC (bits w 5 5) (bits w 10 5)
  | .vxorC => .vxorC (bits w 5 5) (bits w 10 5)
  | .addiC => .addiC (bits w 5 5) (bits w 10 6)
  | .li => .li (bits w 5 5) (bits w 10 6)
  | .slliC => .slliC (bits w 5 5) (bits w 10 6)
  | .srliC => .srliC (bits w 5 5) (bits w 10 6)
  | .sraiC => .sraiC (bits w 5 5) (bits w 10 6)
  | .ldd => .ldd (bits w 5 5) (bits w 10 5)
  | .std => .std (bits w 5 5) (bits w 10 5)
  | .vaddfF32C => .vaddfF32C (bits w 5 5) (bits w 10 5)
  | .vaddfF16C => .vaddfF16C (bits w 5 5) (bits w 10 5)
  | .vmulfF32C => .vmulfF32C (bits w 5 5) (bits w 10 5)
  | .vmulfF16C => .vmulfF16C (bits w 5 5) (bits w 10 5)
  | .btC => .btC (bits w 5 2) (bits w 10 3)
  | .btnC => .btnC (bits w 5 2) (bits w 10 3)

/-- The length in bytes that bit 0 of the first halfword gives (R74). -/
def lengthOf (w : Nat) : Nat := if w % 2 = 1 then 4 else 2

/-- The part of `w` that is the instruction: bit 0 gives its length, and bits above it play no part (R74). -/
def instrBits (w : Nat) : Nat := if w % 2 = 1 then w % 2 ^ 32 else w % 2 ^ 16

/-- The row that an instruction's bits name (R74, R83). -/
def decodeOp (w : Nat) : Except Illegal Op := if w % 2 = 1 then decode32 w else decode16 w

/-- The instruction in the low bits of `w`. -/
noncomputable def decode (w : Nat) : Except Illegal Instr :=
  match decodeOp (instrBits w) with
  | .ok op => .ok (op.build (instrBits w))
  | .error e => .error e

/-- Bytes as one number, the first byte lowest (R2). -/
def leNat : List Byte → Nat
  | [] => 0
  | b :: bs => b.toNat + 256 * leNat bs

/-- The low `n` bytes of a number, the lowest first (R2). -/
def leBytes : Nat → Nat → List Byte
  | 0, _ => []
  | n + 1, w => BitVec.ofNat 8 w :: leBytes n (w / 256)

/-- Decode the first instruction of a stream of bytes; the answer's second part is what follows it. A stream that ends
inside an instruction gives none. -/
noncomputable def decodeBytes (bs : List Byte) : Option (Except Illegal Instr × List Byte) :=
  match bs with
  | b0 :: b1 :: rest =>
    if b0.toNat % 2 = 0 then some (decode (leNat [b0, b1]), rest)
    else match rest with
      | b2 :: b3 :: rest' => some (decode (leNat [b0, b1, b2, b3]), rest')
      | _ => none
  | _ => none

/-- The instruction of an opcode-table word: its bytes in memory order, zeros above `nbits`, given to the decoder. -/
noncomputable def decodeTableWord (nbits w : Nat) : Option Instr :=
  match decodeBytes (leBytes 4 (w % 2 ^ nbits)) with
  | some (.ok i, _) => some i
  | _ => none

/-- The word of an instruction with its width in bits, written as the spec writes words: the fixed bits plus each field at its place.
    A step of the device that is no instruction has no word. -/
def encode : Instr → Option (Nat × Nat)
  | .add d a b => some (32, 1 + d.toNat * 128 + a.toNat * 4096 + b.toNat * 131072)
  | .sub d a b => some (32, 4194305 + d.toNat * 128 + a.toNat * 4096 + b.toNat * 131072)
  | .and d a b => some (32, 8388609 + d.toNat * 128 + a.toNat * 4096 + b.toNat * 131072)
  | .or d a b => some (32, 12582913 + d.toNat * 128 + a.toNat * 4096 + b.toNat * 131072)
  | .xor d a b => some (32, 16777217 + d.toNat * 128 + a.toNat * 4096 + b.toNat * 131072)
  | .andn d a b => some (32, 20971521 + d.toNat * 128 + a.toNat * 4096 + b.toNat * 131072)
  | .orn d a b => some (32, 25165825 + d.toNat * 128 + a.toNat * 4096 + b.toNat * 131072)
  | .sll d a b => some (32, 29360129 + d.toNat * 128 + a.toNat * 4096 + b.toNat * 131072)
  | .srl d a b => some (32, 33554433 + d.toNat * 128 + a.toNat * 4096 + b.toNat * 131072)
  | .sra d a b => some (32, 37748737 + d.toNat * 128 + a.toNat * 4096 + b.toNat * 131072)
  | .rol d a b => some (32, 41943041 + d.toNat * 128 + a.toNat * 4096 + b.toNat * 131072)
  | .ror d a b => some (32, 46137345 + d.toNat * 128 + a.toNat * 4096 + b.toNat * 131072)
  | .min d a b => some (32, 50331649 + d.toNat * 128 + a.toNat * 4096 + b.toNat * 131072)
  | .max d a b => some (32, 54525953 + d.toNat * 128 + a.toNat * 4096 + b.toNat * 131072)
  | .minu d a b => some (32, 58720257 + d.toNat * 128 + a.toNat * 4096 + b.toNat * 131072)
  | .maxu d a b => some (32, 62914561 + d.toNat * 128 + a.toNat * 4096 + b.toNat * 131072)
  | .addw d a b => some (32, 67108865 + d.toNat * 128 + a.toNat * 4096 + b.toNat * 131072)
  | .subw d a b => some (32, 71303169 + d.toNat * 128 + a.toNat * 4096 + b.toNat * 131072)
  | .sllw d a b => some (32, 75497473 + d.toNat * 128 + a.toNat * 4096 + b.toNat * 131072)
  | .srlw d a b => some (32, 79691777 + d.toNat * 128 + a.toNat * 4096 + b.toNat * 131072)
  | .sraw d a b => some (32, 83886081 + d.toNat * 128 + a.toNat * 4096 + b.toNat * 131072)
  | .clz d a => some (32, 88080385 + d.toNat * 128 + a.toNat * 4096)
  | .ctz d a => some (32, 92274689 + d.toNat * 128 + a.toNat * 4096)
  | .popc d a => some (32, 96468993 + d.toNat * 128 + a.toNat * 4096)
  | .brev d a => some (32, 100663297 + d.toNat * 128 + a.toNat * 4096)
  | .bswap d a => some (32, 104857601 + d.toNat * 128 + a.toNat * 4096)
  | .sext d a w => some (32, 109051905 + d.toNat * 128 + a.toNat * 4096 + w.toNat * 131072)
  | .zext d a w => some (32, 113246209 + d.toNat * 128 + a.toNat * 4096 + w.toNat * 131072)
  | .lea d a b h => some (32, 134217729 + d.toNat * 128 + a.toNat * 4096 + b.toNat * 131072 + h.toNat * 4194304)
  | .mul d a b => some (32, 3 + d.toNat * 128 + a.toNat * 4096 + b.toNat * 131072)
  | .mulh d a b => some (32, 4194307 + d.toNat * 128 + a.toNat * 4096 + b.toNat * 131072)
  | .mulhu d a b => some (32, 8388611 + d.toNat * 128 + a.toNat * 4096 + b.toNat * 131072)
  | .mulhsu d a b => some (32, 12582915 + d.toNat * 128 + a.toNat * 4096 + b.toNat * 131072)
  | .div d a b => some (32, 16777219 + d.toNat * 128 + a.toNat * 4096 + b.toNat * 131072)
  | .divu d a b => some (32, 20971523 + d.toNat * 128 + a.toNat * 4096 + b.toNat * 131072)
  | .rem d a b => some (32, 25165827 + d.toNat * 128 + a.toNat * 4096 + b.toNat * 131072)
  | .remu d a b => some (32, 29360131 + d.toNat * 128 + a.toNat * 4096 + b.toNat * 131072)
  | .mulw d a b => some (32, 33554435 + d.toNat * 128 + a.toNat * 4096 + b.toNat * 131072)
  | .divw d a b => some (32, 37748739 + d.toNat * 128 + a.toNat * 4096 + b.toNat * 131072)
  | .divuw d a b => some (32, 41943043 + d.toNat * 128 + a.toNat * 4096 + b.toNat * 131072)
  | .remw d a b => some (32, 46137347 + d.toNat * 128 + a.toNat * 4096 + b.toNat * 131072)
  | .remuw d a b => some (32, 50331651 + d.toNat * 128 + a.toNat * 4096 + b.toNat * 131072)
  | .addi d a i => some (32, 5 + d.toNat * 128 + a.toNat * 4096 + i.toNat * 131072)
  | .andi d a i => some (32, 7 + d.toNat * 128 + a.toNat * 4096 + i.toNat * 131072)
  | .ori d a i => some (32, 9 + d.toNat * 128 + a.toNat * 4096 + i.toNat * 131072)
  | .xori d a i => some (32, 11 + d.toNat * 128 + a.toNat * 4096 + i.toNat * 131072)
  | .slli d a h => some (32, 13 + d.toNat * 128 + a.toNat * 4096 + h.toNat * 131072)
  | .srli d a h => some (32, 536870925 + d.toNat * 128 + a.toNat * 4096 + h.toNat * 131072)
  | .srai d a h => some (32, 1073741837 + d.toNat * 128 + a.toNat * 4096 + h.toNat * 131072)
  | .rori d a h => some (32, 1610612749 + d.toNat * 128 + a.toNat * 4096 + h.toNat * 131072)
  | .slliw d a h => some (32, 2147483661 + d.toNat * 128 + a.toNat * 4096 + h.toNat * 131072)
  | .srliw d a h => some (32, 2684354573 + d.toNat * 128 + a.toNat * 4096 + h.toNat * 131072)
  | .sraiw d a h => some (32, 3221225485 + d.toNat * 128 + a.toNat * 4096 + h.toNat * 131072)
  | .bext d a l p => some (32, 15 + d.toNat * 128 + a.toNat * 4096 + l.toNat * 131072 + p.toNat * 8388608)
  | .bexts d a l p => some (32, 536870927 + d.toNat * 128 + a.toNat * 4096 + l.toNat * 131072 + p.toNat * 8388608)
  | .bins d a l p => some (32, 1073741839 + d.toNat * 128 + a.toNat * 4096 + l.toNat * 131072 + p.toNat * 8388608)
  | .lui d i => some (32, 17 + d.toNat * 128 + i.toNat * 4096)
  | .addpc d i => some (32, 19 + d.toNat * 128 + i.toNat * 4096)
  | .cmpEq g k a b => some (32, 21 + g.toNat * 128 + k.toNat * 1024 + a.toNat * 4096 + b.toNat * 131072)
  | .cmpNe g k a b => some (32, 4194325 + g.toNat * 128 + k.toNat * 1024 + a.toNat * 4096 + b.toNat * 131072)
  | .cmpLt g k a b => some (32, 8388629 + g.toNat * 128 + k.toNat * 1024 + a.toNat * 4096 + b.toNat * 131072)
  | .cmpGe g k a b => some (32, 12582933 + g.toNat * 128 + k.toNat * 1024 + a.toNat * 4096 + b.toNat * 131072)
  | .cmpLtu g k a b => some (32, 16777237 + g.toNat * 128 + k.toNat * 1024 + a.toNat * 4096 + b.toNat * 131072)
  | .cmpGeu g k a b => some (32, 20971541 + g.toNat * 128 + k.toNat * 1024 + a.toNat * 4096 + b.toNat * 131072)
  | .cmpTst g k a b => some (32, 25165845 + g.toNat * 128 + k.toNat * 1024 + a.toNat * 4096 + b.toNat * 131072)
  | .cmpTstz g k a b => some (32, 29360149 + g.toNat * 128 + k.toNat * 1024 + a.toNat * 4096 + b.toNat * 131072)
  | .cmpFeqS g k a b => some (32, 33554453 + g.toNat * 128 + k.toNat * 1024 + a.toNat * 4096 + b.toNat * 131072)
  | .cmpFltS g k a b => some (32, 37748757 + g.toNat * 128 + k.toNat * 1024 + a.toNat * 4096 + b.toNat * 131072)
  | .cmpFleS g k a b => some (32, 41943061 + g.toNat * 128 + k.toNat * 1024 + a.toNat * 4096 + b.toNat * 131072)
  | .cmpFunS g k a b => some (32, 46137365 + g.toNat * 128 + k.toNat * 1024 + a.toNat * 4096 + b.toNat * 131072)
  | .cmpFeqD g k a b => some (32, 50331669 + g.toNat * 128 + k.toNat * 1024 + a.toNat * 4096 + b.toNat * 131072)
  | .cmpFltD g k a b => some (32, 54525973 + g.toNat * 128 + k.toNat * 1024 + a.toNat * 4096 + b.toNat * 131072)
  | .cmpFleD g k a b => some (32, 58720277 + g.toNat * 128 + k.toNat * 1024 + a.toNat * 4096 + b.toNat * 131072)
  | .cmpFunD g k a b => some (32, 62914581 + g.toNat * 128 + k.toNat * 1024 + a.toNat * 4096 + b.toNat * 131072)
  | .cmpiEq g k a i => some (32, 23 + g.toNat * 128 + k.toNat * 1024 + a.toNat * 4096 + i.toNat * 131072)
  | .cmpiNe g k a i => some (32, 536870935 + g.toNat * 128 + k.toNat * 1024 + a.toNat * 4096 + i.toNat * 131072)
  | .cmpiLt g k a i => some (32, 1073741847 + g.toNat * 128 + k.toNat * 1024 + a.toNat * 4096 + i.toNat * 131072)
  | .cmpiGe g k a i => some (32, 1610612759 + g.toNat * 128 + k.toNat * 1024 + a.toNat * 4096 + i.toNat * 131072)
  | .cmpiLtu g k a i => some (32, 2147483671 + g.toNat * 128 + k.toNat * 1024 + a.toNat * 4096 + i.toNat * 131072)
  | .cmpiGeu g k a i => some (32, 2684354583 + g.toNat * 128 + k.toNat * 1024 + a.toNat * 4096 + i.toNat * 131072)
  | .cmpiTst g k a i => some (32, 3221225495 + g.toNat * 128 + k.toNat * 1024 + a.toNat * 4096 + i.toNat * 131072)
  | .cmpiTstz g k a i => some (32, 3758096407 + g.toNat * 128 + k.toNat * 1024 + a.toNat * 4096 + i.toNat * 131072)
  | .gand d a b => some (32, 25 + d.toNat * 128 + a.toNat * 4096 + b.toNat * 131072)
  | .gor d a b => some (32, 4194329 + d.toNat * 128 + a.toNat * 4096 + b.toNat * 131072)
  | .gxor d a b => some (32, 8388633 + d.toNat * 128 + a.toNat * 4096 + b.toNat * 131072)
  | .gandn d a b => some (32, 12582937 + d.toNat * 128 + a.toNat * 4096 + b.toNat * 131072)
  | .gnot d a => some (32, 16777241 + d.toNat * 128 + a.toNat * 4096)
  | .gset d a => some (32, 20971545 + d.toNat * 128 + a.toNat * 4096)
  | .gget d a => some (32, 25165849 + d.toNat * 128 + a.toNat * 4096)
  | .gwait a => some (32, 29360153 + a.toNat * 4096)
  | .sel d a b g => some (32, 33554457 + d.toNat * 128 + a.toNat * 4096 + b.toNat * 131072 + g.toNat * 4194304)
  | .fmaddS d a b c => some (32, 27 + d.toNat * 128 + a.toNat * 4096 + b.toNat * 131072 + c.toNat * 4194304)
  | .fmsubS d a b c => some (32, 134217755 + d.toNat * 128 + a.toNat * 4096 + b.toNat * 131072 + c.toNat * 4194304)
  | .fnmaddS d a b c => some (32, 268435483 + d.toNat * 128 + a.toNat * 4096 + b.toNat * 131072 + c.toNat * 4194304)
  | .fnmsubS d a b c => some (32, 402653211 + d.toNat * 128 + a.toNat * 4096 + b.toNat * 131072 + c.toNat * 4194304)
  | .fmaddD d a b c => some (32, 536870939 + d.toNat * 128 + a.toNat * 4096 + b.toNat * 131072 + c.toNat * 4194304)
  | .fmsubD d a b c => some (32, 671088667 + d.toNat * 128 + a.toNat * 4096 + b.toNat * 131072 + c.toNat * 4194304)
  | .fnmaddD d a b c => some (32, 805306395 + d.toNat * 128 + a.toNat * 4096 + b.toNat * 131072 + c.toNat * 4194304)
  | .fnmsubD d a b c => some (32, 939524123 + d.toNat * 128 + a.toNat * 4096 + b.toNat * 131072 + c.toNat * 4194304)
  | .faddS d a b => some (32, 29 + d.toNat * 128 + a.toNat * 4096 + b.toNat * 131072)
  | .fsubS d a b => some (32, 4194333 + d.toNat * 128 + a.toNat * 4096 + b.toNat * 131072)
  | .fmulS d a b => some (32, 8388637 + d.toNat * 128 + a.toNat * 4096 + b.toNat * 131072)
  | .fdivS d a b => some (32, 12582941 + d.toNat * 128 + a.toNat * 4096 + b.toNat * 131072)
  | .fsqrtS d a => some (32, 16777245 + d.toNat * 128 + a.toNat * 4096)
  | .fminS d a b => some (32, 20971549 + d.toNat * 128 + a.toNat * 4096 + b.toNat * 131072)
  | .fmaxS d a b => some (32, 25165853 + d.toNat * 128 + a.toNat * 4096 + b.toNat * 131072)
  | .fsgnjS d a b => some (32, 29360157 + d.toNat * 128 + a.toNat * 4096 + b.toNat * 131072)
  | .fsgnjnS d a b => some (32, 33554461 + d.toNat * 128 + a.toNat * 4096 + b.toNat * 131072)
  | .fsgnjxS d a b => some (32, 37748765 + d.toNat * 128 + a.toNat * 4096 + b.toNat * 131072)
  | .fclassS d a => some (32, 41943069 + d.toNat * 128 + a.toNat * 4096)
  | .faddD d a b => some (32, 46137373 + d.toNat * 128 + a.toNat * 4096 + b.toNat * 131072)
  | .fsubD d a b => some (32, 50331677 + d.toNat * 128 + a.toNat * 4096 + b.toNat * 131072)
  | .fmulD d a b => some (32, 54525981 + d.toNat * 128 + a.toNat * 4096 + b.toNat * 131072)
  | .fdivD d a b => some (32, 58720285 + d.toNat * 128 + a.toNat * 4096 + b.toNat * 131072)
  | .fsqrtD d a => some (32, 62914589 + d.toNat * 128 + a.toNat * 4096)
  | .fminD d a b => some (32, 67108893 + d.toNat * 128 + a.toNat * 4096 + b.toNat * 131072)
  | .fmaxD d a b => some (32, 71303197 + d.toNat * 128 + a.toNat * 4096 + b.toNat * 131072)
  | .fsgnjD d a b => some (32, 75497501 + d.toNat * 128 + a.toNat * 4096 + b.toNat * 131072)
  | .fsgnjnD d a b => some (32, 79691805 + d.toNat * 128 + a.toNat * 4096 + b.toNat * 131072)
  | .fsgnjxD d a b => some (32, 83886109 + d.toNat * 128 + a.toNat * 4096 + b.toNat * 131072)
  | .fclassD d a => some (32, 88080413 + d.toNat * 128 + a.toNat * 4096)
  | .fcvtDS d a => some (32, 134217757 + d.toNat * 128 + a.toNat * 4096)
  | .fcvtSD d a => some (32, 138412061 + d.toNat * 128 + a.toNat * 4096)
  | .fcvtSH d a => some (32, 142606365 + d.toNat * 128 + a.toNat * 4096)
  | .fcvtHS d a => some (32, 146800669 + d.toNat * 128 + a.toNat * 4096)
  | .fcvtSB d a => some (32, 150994973 + d.toNat * 128 + a.toNat * 4096)
  | .fcvtBS d a => some (32, 155189277 + d.toNat * 128 + a.toNat * 4096)
  | .fcvtDH d a => some (32, 159383581 + d.toNat * 128 + a.toNat * 4096)
  | .fcvtHD d a => some (32, 163577885 + d.toNat * 128 + a.toNat * 4096)
  | .fcvtWS d a => some (32, 167772189 + d.toNat * 128 + a.toNat * 4096)
  | .fcvtWuS d a => some (32, 171966493 + d.toNat * 128 + a.toNat * 4096)
  | .fcvtLS d a => some (32, 176160797 + d.toNat * 128 + a.toNat * 4096)
  | .fcvtLuS d a => some (32, 180355101 + d.toNat * 128 + a.toNat * 4096)
  | .fcvtWD d a => some (32, 184549405 + d.toNat * 128 + a.toNat * 4096)
  | .fcvtWuD d a => some (32, 188743709 + d.toNat * 128 + a.toNat * 4096)
  | .fcvtLD d a => some (32, 192938013 + d.toNat * 128 + a.toNat * 4096)
  | .fcvtLuD d a => some (32, 197132317 + d.toNat * 128 + a.toNat * 4096)
  | .fcvtWSSat d a => some (32, 201326621 + d.toNat * 128 + a.toNat * 4096)
  | .fcvtWuSSat d a => some (32, 205520925 + d.toNat * 128 + a.toNat * 4096)
  | .fcvtLSSat d a => some (32, 209715229 + d.toNat * 128 + a.toNat * 4096)
  | .fcvtLuSSat d a => some (32, 213909533 + d.toNat * 128 + a.toNat * 4096)
  | .fcvtWDSat d a => some (32, 218103837 + d.toNat * 128 + a.toNat * 4096)
  | .fcvtWuDSat d a => some (32, 222298141 + d.toNat * 128 + a.toNat * 4096)
  | .fcvtLDSat d a => some (32, 226492445 + d.toNat * 128 + a.toNat * 4096)
  | .fcvtLuDSat d a => some (32, 230686749 + d.toNat * 128 + a.toNat * 4096)
  | .fcvtSW d a => some (32, 234881053 + d.toNat * 128 + a.toNat * 4096)
  | .fcvtSWu d a => some (32, 239075357 + d.toNat * 128 + a.toNat * 4096)
  | .fcvtSL d a => some (32, 243269661 + d.toNat * 128 + a.toNat * 4096)
  | .fcvtSLu d a => some (32, 247463965 + d.toNat * 128 + a.toNat * 4096)
  | .fcvtDW d a => some (32, 251658269 + d.toNat * 128 + a.toNat * 4096)
  | .fcvtDWu d a => some (32, 255852573 + d.toNat * 128 + a.toNat * 4096)
  | .fcvtDL d a => some (32, 260046877 + d.toNat * 128 + a.toNat * 4096)
  | .fcvtDLu d a => some (32, 264241181 + d.toNat * 128 + a.toNat * 4096)
  | .bcEq a b o => some (32, 31 + a.toNat * 128 + b.toNat * 4096 + o.toNat * 1048576)
  | .bcNe a b o => some (32, 131103 + a.toNat * 128 + b.toNat * 4096 + o.toNat * 1048576)
  | .bcLt a b o => some (32, 262175 + a.toNat * 128 + b.toNat * 4096 + o.toNat * 1048576)
  | .bcGe a b o => some (32, 393247 + a.toNat * 128 + b.toNat * 4096 + o.toNat * 1048576)
  | .bcLtu a b o => some (32, 524319 + a.toNat * 128 + b.toNat * 4096 + o.toNat * 1048576)
  | .bcGeu a b o => some (32, 655391 + a.toNat * 128 + b.toNat * 4096 + o.toNat * 1048576)
  | .jal d o => some (32, 33 + d.toNat * 128 + o.toNat * 4096)
  | .jalr d a i => some (32, 35 + d.toNat * 128 + a.toNat * 4096 + i.toNat * 131072)
  | .ptb t o => some (32, 37 + t.toNat * 128 + o.toNat * 4096)
  | .bt t g => some (32, 39 + t.toNat * 128 + g.toNat * 4096)
  | .btn t g => some (32, 4194343 + t.toNat * 128 + g.toNat * 4096)
  | .bta t => some (32, 8388647 + t.toNat * 128)
  | .ptbr t a => some (32, 12582951 + t.toNat * 128 + a.toNat * 4096)
  | .callt d t => some (32, 16777255 + d.toNat * 128 + t.toNat * 4096)
  | .ldB d a s i => some (32, 41 + d.toNat * 128 + a.toNat * 4096 + s.toNat * 131072 + i.toNat * 8388608)
  | .ldBu d a s i => some (32, 1048617 + d.toNat * 128 + a.toNat * 4096 + s.toNat * 131072 + i.toNat * 8388608)
  | .ldH d a s i => some (32, 2097193 + d.toNat * 128 + a.toNat * 4096 + s.toNat * 131072 + i.toNat * 8388608)
  | .ldHu d a s i => some (32, 3145769 + d.toNat * 128 + a.toNat * 4096 + s.toNat * 131072 + i.toNat * 8388608)
  | .ldW d a s i => some (32, 4194345 + d.toNat * 128 + a.toNat * 4096 + s.toNat * 131072 + i.toNat * 8388608)
  | .ldWu d a s i => some (32, 5242921 + d.toNat * 128 + a.toNat * 4096 + s.toNat * 131072 + i.toNat * 8388608)
  | .ldD d a s i => some (32, 6291497 + d.toNat * 128 + a.toNat * 4096 + s.toNat * 131072 + i.toNat * 8388608)
  | .st d a s w i => some (32, 43 + d.toNat * 128 + a.toNat * 4096 + s.toNat * 131072 + w.toNat * 1048576 + i.toNat * 8388608)
  | .ldsK d a s z i => some (32, 4194349 + d.toNat * 128 + a.toNat * 4096 + s.toNat * 131072 + z.toNat * 2097152 + i.toNat * 8388608)
  | .ldsC d a s z i => some (32, 5242925 + d.toNat * 128 + a.toNat * 4096 + s.toNat * 131072 + z.toNat * 2097152 + i.toNat * 8388608)
  | .stf d a s z i => some (32, 4194351 + d.toNat * 128 + a.toNat * 4096 + s.toNat * 131072 + z.toNat * 2097152 + i.toNat * 8388608)
  | .stfE d a s z i => some (32, 5242927 + d.toNat * 128 + a.toNat * 4096 + s.toNat * 131072 + z.toNat * 2097152 + i.toNat * 8388608)
  | .feset a s => some (32, 49 + a.toNat * 4096 + s.toNat * 131072)
  | .feclr a s => some (32, 4194353 + a.toNat * 4096 + s.toNat * 131072)
  | .fetest d a s => some (32, 8388657 + d.toNat * 128 + a.toNat * 4096 + s.toNat * 131072)
  | .fewait a s => some (32, 12582961 + a.toNat * 4096 + s.toNat * 131072)
  | .ldv d a s i => some (32, 51 + d.toNat * 128 + a.toNat * 4096 + s.toNat * 131072 + i.toNat * 8388608)
  | .stv d a s i => some (32, 1048627 + d.toNat * 128 + a.toNat * 4096 + s.toNat * 131072 + i.toNat * 8388608)
  | .ldvs d a s i => some (32, 2097203 + d.toNat * 128 + a.toNat * 4096 + s.toNat * 131072 + i.toNat * 8388608)
  | .stvf d a s i => some (32, 3145779 + d.toNat * 128 + a.toNat * 4096 + s.toNat * 131072 + i.toNat * 8388608)
  | .ldvh d a s i => some (32, 4194355 + d.toNat * 128 + a.toNat * 4096 + s.toNat * 131072 + i.toNat * 8388608)
  | .stvh d a s i => some (32, 5242931 + d.toNat * 128 + a.toNat * 4096 + s.toNat * 131072 + i.toNat * 8388608)
  | .ldvb d a s i => some (32, 6291507 + d.toNat * 128 + a.toNat * 4096 + s.toNat * 131072 + i.toNat * 8388608)
  | .ldx d a s g n => some (32, 53 + d.toNat * 128 + a.toNat * 4096 + s.toNat * 131072 + g.toNat * 4194304 + n.toNat * 33554432)
  | .ldxb d a s g n => some (32, 67108917 + d.toNat * 128 + a.toNat * 4096 + s.toNat * 131072 + g.toNat * 4194304 + n.toNat * 33554432)
  | .stblk d a s g n => some (32, 134217781 + d.toNat * 512 + a.toNat * 4096 + s.toNat * 131072 + g.toNat * 4194304 + n.toNat * 33554432)
  | .pref a s g n => some (32, 201326645 + a.toNat * 4096 + s.toNat * 131072 + g.toNat * 4194304 + n.toNat * 33554432)
  | .amsend d a b g n => some (32, 57 + d.toNat * 128 + a.toNat * 4096 + b.toNat * 262144 + g.toNat * 4194304 + n.toNat * 33554432)
  | .amret a g n => some (32, 67108921 + a.toNat * 4096 + g.toNat * 4194304 + n.toNat * 33554432)
  | .rfetch d a b g n => some (32, 134217785 + d.toNat * 128 + a.toNat * 4096 + b.toNat * 262144 + g.toNat * 4194304 + n.toNat * 33554432)
  | .atomAdd d a b c r => some (32, 61 + d.toNat * 128 + a.toNat * 4096 + b.toNat * 131072 + c.toNat * 4194304 + r.toNat * 134217728)
  | .atomAnd d a b c r => some (32, 536870973 + d.toNat * 128 + a.toNat * 4096 + b.toNat * 131072 + c.toNat * 4194304 + r.toNat * 134217728)
  | .atomOr d a b c r => some (32, 1073741885 + d.toNat * 128 + a.toNat * 4096 + b.toNat * 131072 + c.toNat * 4194304 + r.toNat * 134217728)
  | .atomXor d a b c r => some (32, 1610612797 + d.toNat * 128 + a.toNat * 4096 + b.toNat * 131072 + c.toNat * 4194304 + r.toNat * 134217728)
  | .atomXchg d a b c r => some (32, 2147483709 + d.toNat * 128 + a.toNat * 4096 + b.toNat * 131072 + c.toNat * 4194304 + r.toNat * 134217728)
  | .atomMin d a b c r => some (32, 2684354621 + d.toNat * 128 + a.toNat * 4096 + b.toNat * 131072 + c.toNat * 4194304 + r.toNat * 134217728)
  | .atomMax d a b c r => some (32, 3221225533 + d.toNat * 128 + a.toNat * 4096 + b.toNat * 131072 + c.toNat * 4194304 + r.toNat * 134217728)
  | .atomCas d a b c r => some (32, 3758096445 + d.toNat * 128 + a.toNat * 4096 + b.toNat * 262144 + c.toNat * 4194304 + r.toNat * 134217728)
  | .atomwAdd d a b c r => some (32, 63 + d.toNat * 128 + a.toNat * 4096 + b.toNat * 131072 + c.toNat * 4194304 + r.toNat * 134217728)
  | .atomwAnd d a b c r => some (32, 536870975 + d.toNat * 128 + a.toNat * 4096 + b.toNat * 131072 + c.toNat * 4194304 + r.toNat * 134217728)
  | .atomwOr d a b c r => some (32, 1073741887 + d.toNat * 128 + a.toNat * 4096 + b.toNat * 131072 + c.toNat * 4194304 + r.toNat * 134217728)
  | .atomwXor d a b c r => some (32, 1610612799 + d.toNat * 128 + a.toNat * 4096 + b.toNat * 131072 + c.toNat * 4194304 + r.toNat * 134217728)
  | .atomwXchg d a b c r => some (32, 2147483711 + d.toNat * 128 + a.toNat * 4096 + b.toNat * 131072 + c.toNat * 4194304 + r.toNat * 134217728)
  | .atomwMin d a b c r => some (32, 2684354623 + d.toNat * 128 + a.toNat * 4096 + b.toNat * 131072 + c.toNat * 4194304 + r.toNat * 134217728)
  | .atomwMax d a b c r => some (32, 3221225535 + d.toNat * 128 + a.toNat * 4096 + b.toNat * 131072 + c.toNat * 4194304 + r.toNat * 134217728)
  | .atomwCas d a b c r => some (32, 3758096447 + d.toNat * 128 + a.toNat * 4096 + b.toNat * 262144 + c.toNat * 4194304 + r.toNat * 134217728)
  | .atomxMinu d a b c r => some (32, 65 + d.toNat * 128 + a.toNat * 4096 + b.toNat * 131072 + c.toNat * 4194304 + r.toNat * 134217728)
  | .atomxMaxu d a b c r => some (32, 536870977 + d.toNat * 128 + a.toNat * 4096 + b.toNat * 131072 + c.toNat * 4194304 + r.toNat * 134217728)
  | .atomxFminS d a b c r => some (32, 1073741889 + d.toNat * 128 + a.toNat * 4096 + b.toNat * 131072 + c.toNat * 4194304 + r.toNat * 134217728)
  | .atomxFmaxS d a b c r => some (32, 1610612801 + d.toNat * 128 + a.toNat * 4096 + b.toNat * 131072 + c.toNat * 4194304 + r.toNat * 134217728)
  | .atomxFminD d a b c r => some (32, 2147483713 + d.toNat * 128 + a.toNat * 4096 + b.toNat * 131072 + c.toNat * 4194304 + r.toNat * 134217728)
  | .atomxFmaxD d a b c r => some (32, 2684354625 + d.toNat * 128 + a.toNat * 4096 + b.toNat * 131072 + c.toNat * 4194304 + r.toNat * 134217728)
  | .xset a b => some (32, 67 + a.toNat * 4096 + b.toNat * 131072)
  | .xaddS a b => some (32, 134217795 + a.toNat * 4096 + b.toNat * 131072)
  | .xaddD a b => some (32, 268435523 + a.toNat * 4096 + b.toNat * 131072)
  | .xaddB a b c => some (32, 402653251 + a.toNat * 4096 + b.toNat * 131072 + c.toNat * 4194304)
  | .xrdS d a => some (32, 536870979 + d.toNat * 128 + a.toNat * 4096)
  | .xrdD d a => some (32, 671088707 + d.toNat * 128 + a.toNat * 4096)
  | .xmaxe d a b => some (32, 805306435 + d.toNat * 128 + a.toNat * 4096 + b.toNat * 131072)
  | .fenceAcq a => some (32, 4194373 + a.toNat * 4096)
  | .fenceRel a => some (32, 8388677 + a.toNat * 4096)
  | .fenceAr a => some (32, 12582981 + a.toNat * 4096)
  | .vadd d a b m t => some (32, 71 + d.toNat * 128 + a.toNat * 4096 + b.toNat * 131072 + m.toNat * 4194304 + t.toNat * 33554432)
  | .vsub d a b m t => some (32, 134217799 + d.toNat * 128 + a.toNat * 4096 + b.toNat * 131072 + m.toNat * 4194304 + t.toNat * 33554432)
  | .vmul d a b m t => some (32, 268435527 + d.toNat * 128 + a.toNat * 4096 + b.toNat * 131072 + m.toNat * 4194304 + t.toNat * 33554432)
  | .vmulh d a b m t => some (32, 402653255 + d.toNat * 128 + a.toNat * 4096 + b.toNat * 131072 + m.toNat * 4194304 + t.toNat * 33554432)
  | .vmulhn d a b m t => some (32, 536870983 + d.toNat * 128 + a.toNat * 4096 + b.toNat * 131072 + m.toNat * 4194304 + t.toNat * 33554432)
  | .vand d a b m t => some (32, 671088711 + d.toNat * 128 + a.toNat * 4096 + b.toNat * 131072 + m.toNat * 4194304 + t.toNat * 33554432)
  | .vor d a b m t => some (32, 805306439 + d.toNat * 128 + a.toNat * 4096 + b.toNat * 131072 + m.toNat * 4194304 + t.toNat * 33554432)
  | .vxor d a b m t => some (32, 939524167 + d.toNat * 128 + a.toNat * 4096 + b.toNat * 131072 + m.toNat * 4194304 + t.toNat * 33554432)
  | .vandn d a b m t => some (32, 1073741895 + d.toNat * 128 + a.toNat * 4096 + b.toNat * 131072 + m.toNat * 4194304 + t.toNat * 33554432)
  | .vshl d a b m t => some (32, 1207959623 + d.toNat * 128 + a.toNat * 4096 + b.toNat * 131072 + m.toNat * 4194304 + t.toNat * 33554432)
  | .vshr d a b m t => some (32, 1342177351 + d.toNat * 128 + a.toNat * 4096 + b.toNat * 131072 + m.toNat * 4194304 + t.toNat * 33554432)
  | .vsra d a b m t => some (32, 1476395079 + d.toNat * 128 + a.toNat * 4096 + b.toNat * 131072 + m.toNat * 4194304 + t.toNat * 33554432)
  | .vmin d a b m t => some (32, 1610612807 + d.toNat * 128 + a.toNat * 4096 + b.toNat * 131072 + m.toNat * 4194304 + t.toNat * 33554432)
  | .vmax d a b m t => some (32, 1744830535 + d.toNat * 128 + a.toNat * 4096 + b.toNat * 131072 + m.toNat * 4194304 + t.toNat * 33554432)
  | .vminn d a b m t => some (32, 1879048263 + d.toNat * 128 + a.toNat * 4096 + b.toNat * 131072 + m.toNat * 4194304 + t.toNat * 33554432)
  | .vmaxn d a b m t => some (32, 2013265991 + d.toNat * 128 + a.toNat * 4096 + b.toNat * 131072 + m.toNat * 4194304 + t.toNat * 33554432)
  | .vabs d a m t => some (32, 2147483719 + d.toNat * 128 + a.toNat * 4096 + m.toNat * 4194304 + t.toNat * 33554432)
  | .vneg d a m t => some (32, 2281701447 + d.toNat * 128 + a.toNat * 4096 + m.toNat * 4194304 + t.toNat * 33554432)
  | .vadds d a b m t => some (32, 2415919175 + d.toNat * 128 + a.toNat * 4096 + b.toNat * 131072 + m.toNat * 4194304 + t.toNat * 33554432)
  | .vsubs d a b m t => some (32, 2550136903 + d.toNat * 128 + a.toNat * 4096 + b.toNat * 131072 + m.toNat * 4194304 + t.toNat * 33554432)
  | .vaddf d a b m p => some (32, 73 + d.toNat * 128 + a.toNat * 4096 + b.toNat * 131072 + m.toNat * 4194304 + p.toNat * 33554432)
  | .vsubf d a b m p => some (32, 67108937 + d.toNat * 128 + a.toNat * 4096 + b.toNat * 131072 + m.toNat * 4194304 + p.toNat * 33554432)
  | .vmulf d a b m p => some (32, 134217801 + d.toNat * 128 + a.toNat * 4096 + b.toNat * 131072 + m.toNat * 4194304 + p.toNat * 33554432)
  | .vdivf d a b m p => some (32, 201326665 + d.toNat * 128 + a.toNat * 4096 + b.toNat * 131072 + m.toNat * 4194304 + p.toNat * 33554432)
  | .vminf d a b m p => some (32, 268435529 + d.toNat * 128 + a.toNat * 4096 + b.toNat * 131072 + m.toNat * 4194304 + p.toNat * 33554432)
  | .vmaxf d a b m p => some (32, 335544393 + d.toNat * 128 + a.toNat * 4096 + b.toNat * 131072 + m.toNat * 4194304 + p.toNat * 33554432)
  | .vabsf d a m p => some (32, 402653257 + d.toNat * 128 + a.toNat * 4096 + m.toNat * 4194304 + p.toNat * 33554432)
  | .vnegf d a m p => some (32, 469762121 + d.toNat * 128 + a.toNat * 4096 + m.toNat * 4194304 + p.toNat * 33554432)
  | .vsqrt d a m p => some (32, 536870985 + d.toNat * 128 + a.toNat * 4096 + m.toNat * 4194304 + p.toNat * 33554432)
  | .vrcp d a m p => some (32, 603979849 + d.toNat * 128 + a.toNat * 4096 + m.toNat * 4194304 + p.toNat * 33554432)
  | .vrsq d a m p => some (32, 671088713 + d.toNat * 128 + a.toNat * 4096 + m.toNat * 4194304 + p.toNat * 33554432)
  | .vexp2 d a m p => some (32, 738197577 + d.toNat * 128 + a.toNat * 4096 + m.toNat * 4194304 + p.toNat * 33554432)
  | .vlog2 d a m p => some (32, 805306441 + d.toNat * 128 + a.toNat * 4096 + m.toNat * 4194304 + p.toNat * 33554432)
  | .vsinpi d a m p => some (32, 872415305 + d.toNat * 128 + a.toNat * 4096 + m.toNat * 4194304 + p.toNat * 33554432)
  | .vcospi d a m p => some (32, 939524169 + d.toNat * 128 + a.toNat * 4096 + m.toNat * 4194304 + p.toNat * 33554432)
  | .vfloor d a m p => some (32, 1006633033 + d.toNat * 128 + a.toNat * 4096 + m.toNat * 4194304 + p.toNat * 33554432)
  | .vceil d a m p => some (32, 1073741897 + d.toNat * 128 + a.toNat * 4096 + m.toNat * 4194304 + p.toNat * 33554432)
  | .vtrunc d a m p => some (32, 1140850761 + d.toNat * 128 + a.toNat * 4096 + m.toNat * 4194304 + p.toNat * 33554432)
  | .vrint d a m p => some (32, 1207959625 + d.toNat * 128 + a.toNat * 4096 + m.toNat * 4194304 + p.toNat * 33554432)
  | .vclass d a m p => some (32, 1275068489 + d.toNat * 128 + a.toNat * 4096 + m.toNat * 4194304 + p.toNat * 33554432)
  | .vaddd d a b m => some (32, 2147483721 + d.toNat * 128 + a.toNat * 4096 + b.toNat * 131072 + m.toNat * 4194304)
  | .vsubd d a b m => some (32, 2214592585 + d.toNat * 128 + a.toNat * 4096 + b.toNat * 131072 + m.toNat * 4194304)
  | .vmuld d a b m => some (32, 2281701449 + d.toNat * 128 + a.toNat * 4096 + b.toNat * 131072 + m.toNat * 4194304)
  | .vdivd d a b m => some (32, 2348810313 + d.toNat * 128 + a.toNat * 4096 + b.toNat * 131072 + m.toNat * 4194304)
  | .vmind d a b m => some (32, 2415919177 + d.toNat * 128 + a.toNat * 4096 + b.toNat * 131072 + m.toNat * 4194304)
  | .vmaxd d a b m => some (32, 2483028041 + d.toNat * 128 + a.toNat * 4096 + b.toNat * 131072 + m.toNat * 4194304)
  | .vsqrtd d a m => some (32, 2550136905 + d.toNat * 128 + a.toNat * 4096 + m.toNat * 4194304)
  | .vfmad d a b m => some (32, 2617245769 + d.toNat * 128 + a.toNat * 4096 + b.toNat * 131072 + m.toNat * 4194304)
  | .vfma d a b c m => some (32, 75 + d.toNat * 128 + a.toNat * 4096 + b.toNat * 131072 + c.toNat * 4194304 + m.toNat * 134217728)
  | .vfms d a b c m => some (32, 1073741899 + d.toNat * 128 + a.toNat * 4096 + b.toNat * 131072 + c.toNat * 4194304 + m.toNat * 134217728)
  | .vfnma d a b c m => some (32, 2147483723 + d.toNat * 128 + a.toNat * 4096 + b.toNat * 131072 + c.toNat * 4194304 + m.toNat * 134217728)
  | .vfnms d a b c m => some (32, 3221225547 + d.toNat * 128 + a.toNat * 4096 + b.toNat * 131072 + c.toNat * 4194304 + m.toNat * 134217728)
  | .vfmah d a b c m => some (32, 83 + d.toNat * 128 + a.toNat * 4096 + b.toNat * 131072 + c.toNat * 4194304 + m.toNat * 134217728)
  | .vdot4i d a b c m => some (32, 1073741907 + d.toNat * 128 + a.toNat * 4096 + b.toNat * 131072 + c.toNat * 4194304 + m.toNat * 134217728)
  | .vdot4n d a b c m => some (32, 2147483731 + d.toNat * 128 + a.toNat * 4096 + b.toNat * 131072 + c.toNat * 4194304 + m.toNat * 134217728)
  | .vdot2bf d a b c m => some (32, 3221225555 + d.toNat * 128 + a.toNat * 4096 + b.toNat * 131072 + c.toNat * 4194304 + m.toNat * 134217728)
  | .vcmpEq g k a b m => some (32, 77 + g.toNat * 128 + k.toNat * 1024 + a.toNat * 4096 + b.toNat * 131072 + m.toNat * 4194304)
  | .vcmpNe g k a b m => some (32, 268435533 + g.toNat * 128 + k.toNat * 1024 + a.toNat * 4096 + b.toNat * 131072 + m.toNat * 4194304)
  | .vcmpLt g k a b m => some (32, 536870989 + g.toNat * 128 + k.toNat * 1024 + a.toNat * 4096 + b.toNat * 131072 + m.toNat * 4194304)
  | .vcmpGe g k a b m => some (32, 805306445 + g.toNat * 128 + k.toNat * 1024 + a.toNat * 4096 + b.toNat * 131072 + m.toNat * 4194304)
  | .vcmpLtu g k a b m => some (32, 1073741901 + g.toNat * 128 + k.toNat * 1024 + a.toNat * 4096 + b.toNat * 131072 + m.toNat * 4194304)
  | .vcmpGeu g k a b m => some (32, 1342177357 + g.toNat * 128 + k.toNat * 1024 + a.toNat * 4096 + b.toNat * 131072 + m.toNat * 4194304)
  | .vcmpFeq g k a b m => some (32, 1610612813 + g.toNat * 128 + k.toNat * 1024 + a.toNat * 4096 + b.toNat * 131072 + m.toNat * 4194304)
  | .vcmpFlt g k a b m => some (32, 1879048269 + g.toNat * 128 + k.toNat * 1024 + a.toNat * 4096 + b.toNat * 131072 + m.toNat * 4194304)
  | .vcmpFle g k a b m => some (32, 2147483725 + g.toNat * 128 + k.toNat * 1024 + a.toNat * 4096 + b.toNat * 131072 + m.toNat * 4194304)
  | .vcmpFun g k a b m => some (32, 2415919181 + g.toNat * 128 + k.toNat * 1024 + a.toNat * 4096 + b.toNat * 131072 + m.toNat * 4194304)
  | .vsel d a b m => some (32, 33554509 + d.toNat * 128 + a.toNat * 4096 + b.toNat * 131072 + m.toNat * 4194304)
  | .vbcast d a m => some (32, 301989965 + d.toNat * 128 + a.toNat * 4096 + m.toNat * 4194304)
  | .vins d a b m => some (32, 570425421 + d.toNat * 128 + a.toNat * 4096 + b.toNat * 131072 + m.toNat * 4194304)
  | .vext d a b => some (32, 868221005 + d.toNat * 128 + a.toNat * 4096 + b.toNat * 131072)
  | .vperm d a b m => some (32, 1107296333 + d.toNat * 128 + a.toNat * 4096 + b.toNat * 131072 + m.toNat * 4194304)
  | .vshuf d a b m => some (32, 1375731789 + d.toNat * 128 + a.toNat * 4096 + b.toNat * 131072 + m.toNat * 4194304)
  | .vredaddf d a m => some (32, 1644167245 + d.toNat * 128 + a.toNat * 4096 + m.toNat * 4194304)
  | .vredmaxf d a m => some (32, 1912602701 + d.toNat * 128 + a.toNat * 4096 + m.toNat * 4194304)
  | .vredminf d a m => some (32, 2181038157 + d.toNat * 128 + a.toNat * 4096 + m.toNat * 4194304)
  | .vredaddi d a m => some (32, 2449473613 + d.toNat * 128 + a.toNat * 4096 + m.toNat * 4194304)
  | .vmov d a m => some (32, 2717909069 + d.toNat * 128 + a.toNat * 4096 + m.toNat * 4194304)
  | .viota d a m => some (32, 2986344525 + d.toNat * 128 + a.toNat * 4096 + m.toNat * 4194304)
  | .vcvt d a m t dst src => some (32, 79 + d.toNat * 128 + a.toNat * 4096 + m.toNat * 4194304 + t.toNat * 33554432 + dst.toNat * 67108864 + src.toNat * 536870912)
  | .mzero d g n => some (32, 81 + d.toNat * 128 + g.toNat * 4194304 + n.toNat * 33554432)
  | .mlda d a b g n => some (32, 67108945 + d.toNat * 128 + a.toNat * 4096 + b.toNat * 131072 + g.toNat * 4194304 + n.toNat * 33554432)
  | .mldb d a b g n => some (32, 134217809 + d.toNat * 128 + a.toNat * 4096 + b.toNat * 131072 + g.toNat * 4194304 + n.toNat * 33554432)
  | .mma d g n => some (32, 201326673 + d.toNat * 128 + g.toNat * 4194304 + n.toNat * 33554432)
  | .mgang d a g n => some (32, 268435537 + d.toNat * 128 + a.toNat * 4096 + g.toNat * 4194304 + n.toNat * 33554432)
  | .mdrain d a b g n => some (32, 335544401 + d.toNat * 128 + a.toNat * 4096 + b.toNat * 131072 + g.toNat * 4194304 + n.toNat * 33554432)
  | .mdrainr d a b g n => some (32, 402653265 + d.toNat * 128 + a.toNat * 4096 + b.toNat * 262144 + g.toNat * 4194304 + n.toNat * 33554432)
  | .mldcb a b g n => some (32, 469762129 + a.toNat * 4096 + b.toNat * 131072 + g.toNat * 4194304 + n.toNat * 33554432)
  | .mfmt a => some (32, 566231121 + a.toNat * 4096)
  | .mstat d => some (32, 633339985 + d.toNat * 128)
  | .cpy d a b g n => some (32, 85 + d.toNat * 128 + a.toNat * 4096 + b.toNat * 131072 + g.toNat * 4194304 + n.toNat * 33554432)
  | .cpyt a g n => some (32, 67108949 + a.toNat * 4096 + g.toNat * 4194304 + n.toNat * 33554432)
  | .cpym d a b g n => some (32, 134217813 + d.toNat * 128 + a.toNat * 4096 + b.toNat * 131072 + g.toNat * 4194304 + n.toNat * 33554432)
  | .cpyb d a b g n => some (32, 201326677 + d.toNat * 128 + a.toNat * 4096 + b.toNat * 262144 + g.toNat * 4194304 + n.toNat * 33554432)
  | .cwait d g n => some (32, 268435541 + d.toNat * 128 + g.toNat * 4194304 + n.toNat * 33554432)
  | .cpyh d a b g n => some (32, 335544405 + d.toNat * 128 + a.toNat * 4096 + b.toNat * 131072 + g.toNat * 4194304 + n.toNat * 33554432)
  | .halloc d a b => some (32, 87 + d.toNat * 128 + a.toNat * 4096 + b.toNat * 131072)
  | .hfree a => some (32, 4194391 + a.toNat * 4096)
  | .hpass a b => some (32, 8388695 + a.toNat * 4096 + b.toNat * 131072)
  | .hopen d => some (32, 12582999 + d.toNat * 128)
  | .pjoin d a => some (32, 89 + d.toNat * 128 + a.toNat * 4096)
  | .pleave a => some (32, 4194393 + a.toNat * 4096)
  | .psize d a => some (32, 8388697 + d.toNat * 128 + a.toNat * 4096)
  | .prank d a => some (32, 12583001 + d.toNat * 128 + a.toNat * 4096)
  | .pmask d a => some (32, 16777305 + d.toNat * 128 + a.toNat * 4096)
  | .minit a b g n => some (32, 91 + a.toNat * 4096 + b.toNat * 131072 + g.toNat * 4194304 + n.toNat * 33554432)
  | .marrive a b g n => some (32, 67108955 + a.toNat * 4096 + b.toNat * 131072 + g.toNat * 4194304 + n.toNat * 33554432)
  | .mwait d a b g n => some (32, 134217819 + d.toNat * 128 + a.toNat * 4096 + b.toNat * 131072 + g.toNat * 4194304 + n.toNat * 33554432)
  | .msync d a g n => some (32, 201326683 + d.toNat * 128 + a.toNat * 4096 + g.toNat * 4194304 + n.toNat * 33554432)
  | .mdebt a b g n => some (32, 268435547 + a.toNat * 4096 + b.toNat * 131072 + g.toNat * 4194304 + n.toNat * 33554432)
  | .forkp d a b g n => some (32, 93 + d.toNat * 128 + a.toNat * 4096 + b.toNat * 262144 + g.toNat * 4194304 + n.toNat * 33554432)
  | .takep d a b g n => some (32, 67108957 + d.toNat * 512 + a.toNat * 4096 + b.toNat * 131072 + g.toNat * 4194304 + n.toNat * 33554432)
  | .ptest d a b g n => some (32, 134217821 + d.toNat * 128 + a.toNat * 4096 + b.toNat * 262144 + g.toNat * 4194304 + n.toNat * 33554432)
  | .pnode d a b g n => some (32, 201326685 + d.toNat * 1024 + a.toNat * 4096 + b.toNat * 131072 + g.toNat * 4194304 + n.toNat * 33554432)
  | .pdone g n => some (32, 268435549 + g.toNat * 4194304 + n.toNat * 33554432)
  | .topen d a g n => some (32, 335544413 + d.toNat * 128 + a.toNat * 4096 + g.toNat * 4194304 + n.toNat * 33554432)
  | .fork d a b => some (32, 95 + d.toNat * 128 + a.toNat * 4096 + b.toNat * 131072)
  | .join d a => some (32, 4194399 + d.toNat * 128 + a.toNat * 4096)
  | .joinall d => some (32, 8388703 + d.toNat * 128)
  | .rdecl d a b => some (32, 12583007 + d.toNat * 128 + a.toNat * 4096 + b.toNat * 131072)
  | .rstat d a => some (32, 16777311 + d.toNat * 128 + a.toNat * 4096)
  | .tsend a b => some (32, 97 + a.toNat * 4096 + b.toNat * 262144)
  | .trecv d b => some (32, 4194401 + d.toNat * 512 + b.toNat * 131072)
  | .rqpush a b => some (32, 8388705 + a.toNat * 4096 + b.toNat * 131072)
  | .rqpop d => some (32, 12583009 + d.toNat * 128)
  | .yield => some (32, 16777313)
  | .sleep a b => some (32, 20971617 + a.toNat * 4096 + b.toNat * 131072)
  | .wfe => some (32, 25165921)
  | .launch d a => some (32, 29360225 + d.toNat * 128 + a.toNat * 4096)
  | .done => some (32, 33554529)
  | .timer d a => some (32, 37748833 + d.toNat * 128 + a.toNat * 4096)
  | .migrate a => some (32, 41943137 + a.toNat * 4096)
  | .specopen a b => some (32, 99 + a.toNat * 4096 + b.toNat * 131072)
  | .spectag a => some (32, 4194403 + a.toNat * 4096)
  | .speccommit d a b => some (32, 8388707 + d.toNat * 128 + a.toNat * 4096 + b.toNat * 131072)
  | .specabort d a => some (32, 12583011 + d.toNat * 128 + a.toNat * 4096)
  | .kvpos d a b => some (32, 16777315 + d.toNat * 128 + a.toNat * 4096 + b.toNat * 262144)
  | .kvadv a b => some (32, 20971619 + a.toNat * 4096 + b.toNat * 131072)
  | .balloc d a b => some (32, 25165923 + d.toNat * 128 + a.toNat * 4096 + b.toNat * 131072)
  | .bfree a b => some (32, 29360227 + a.toNat * 4096 + b.toNat * 131072)
  | .pxlook d a b => some (32, 33554531 + d.toNat * 512 + a.toNat * 4096 + b.toNat * 262144)
  | .pxins d a b => some (32, 37748835 + d.toNat * 128 + a.toNat * 4096 + b.toNat * 131072)
  | .specenter a => some (32, 41943139 + a.toNat * 4096)
  | .emitp a g n => some (32, 101 + a.toNat * 4096 + g.toNat * 4194304 + n.toNat * 33554432)
  | .seqwm a g n => some (32, 67108965 + a.toNat * 4096 + g.toNat * 4194304 + n.toNat * 33554432)
  | .seqwmHold a g n => some (32, 67109093 + a.toNat * 4096 + g.toNat * 4194304 + n.toNat * 33554432)
  | .fout a b g n => some (32, 134217829 + a.toNat * 4096 + b.toNat * 262144 + g.toNat * 4194304 + n.toNat * 33554432)
  | .fquad d b g n => some (32, 201326693 + d.toNat * 512 + b.toNat * 131072 + g.toNat * 4194304 + n.toNat * 33554432)
  | .rframeOpen d a g n => some (32, 268435557 + d.toNat * 128 + a.toNat * 4096 + g.toNat * 4194304 + n.toNat * 33554432)
  | .rframeLift g n => some (32, 268566629 + g.toNat * 4194304 + n.toNat * 33554432)
  | .rframeClose d g n => some (32, 268697701 + d.toNat * 128 + g.toNat * 4194304 + n.toNat * 33554432)
  | .rcvpost a b g n => some (32, 103 + a.toNat * 4096 + b.toNat * 262144 + g.toNat * 4194304 + n.toNat * 33554432)
  | .tsarm d a g n => some (32, 67108967 + d.toNat * 128 + a.toNat * 4096 + g.toNat * 4194304 + n.toNat * 33554432)
  | .tscan d a g n => some (32, 134217831 + d.toNat * 128 + a.toNat * 4096 + g.toNat * 4194304 + n.toNat * 33554432)
  | .ctrrd d a g n => some (32, 201326695 + d.toNat * 128 + a.toNat * 4096 + g.toNat * 4194304 + n.toNat * 33554432)
  | .ctradd a b g n => some (32, 268435559 + a.toNat * 4096 + b.toNat * 131072 + g.toNat * 4194304 + n.toNat * 33554432)
  | .csrr d c => some (32, 105 + d.toNat * 128 + c.toNat * 131072)
  | .csrw d a c => some (32, 536871017 + d.toNat * 128 + a.toNat * 4096 + c.toNat * 131072)
  | .csrs d a c => some (32, 1073741929 + d.toNat * 128 + a.toNat * 4096 + c.toNat * 131072)
  | .csrc d a c => some (32, 1610612841 + d.toNat * 128 + a.toNat * 4096 + c.toNat * 131072)
  | .trap a t => some (32, 107 + a.toNat * 4096 + t.toNat * 131072)
  | .eret => some (32, 4194411)
  | .brk => some (32, 8388715)
  | .segld s a => some (32, 12583019 + s.toNat * 128 + a.toNat * 4096)
  | .pwr d a => some (32, 16777323 + d.toNat * 128 + a.toNat * 4096)
  | .fbpop d a => some (32, 20971627 + d.toNat * 512 + a.toNat * 4096)
  | .replay a => some (32, 25165931 + a.toNat * 4096)
  | .tlbinv a b => some (32, 29360235 + a.toNat * 4096 + b.toNat * 131072)
  | .pgpin d a => some (32, 33554539 + d.toNat * 128 + a.toNat * 4096)
  | .pgunpin d a => some (32, 37748843 + d.toNat * 128 + a.toNat * 4096)
  | .nop => some (32, 41943147)
  | .movC d s => some (16, 0 + d.toNat * 32 + s.toNat * 1024)
  | .vmovC d s => some (16, 32768 + d.toNat * 32 + s.toNat * 1024)
  | .addC d s => some (16, 2 + d.toNat * 32 + s.toNat * 1024)
  | .vaddC d s => some (16, 32770 + d.toNat * 32 + s.toNat * 1024)
  | .subC d s => some (16, 4 + d.toNat * 32 + s.toNat * 1024)
  | .vsubC d s => some (16, 32772 + d.toNat * 32 + s.toNat * 1024)
  | .andC d s => some (16, 6 + d.toNat * 32 + s.toNat * 1024)
  | .vandC d s => some (16, 32774 + d.toNat * 32 + s.toNat * 1024)
  | .orC d s => some (16, 8 + d.toNat * 32 + s.toNat * 1024)
  | .vorC d s => some (16, 32776 + d.toNat * 32 + s.toNat * 1024)
  | .xorC d s => some (16, 10 + d.toNat * 32 + s.toNat * 1024)
  | .vxorC d s => some (16, 32778 + d.toNat * 32 + s.toNat * 1024)
  | .addiC d i => some (16, 12 + d.toNat * 32 + i.toNat * 1024)
  | .li d i => some (16, 14 + d.toNat * 32 + i.toNat * 1024)
  | .slliC d h => some (16, 16 + d.toNat * 32 + h.toNat * 1024)
  | .srliC d h => some (16, 18 + d.toNat * 32 + h.toNat * 1024)
  | .sraiC d h => some (16, 20 + d.toNat * 32 + h.toNat * 1024)
  | .ldd d s => some (16, 22 + d.toNat * 32 + s.toNat * 1024)
  | .std d s => some (16, 24 + d.toNat * 32 + s.toNat * 1024)
  | .vaddfF32C d s => some (16, 26 + d.toNat * 32 + s.toNat * 1024)
  | .vaddfF16C d s => some (16, 32794 + d.toNat * 32 + s.toNat * 1024)
  | .vmulfF32C d s => some (16, 28 + d.toNat * 32 + s.toNat * 1024)
  | .vmulfF16C d s => some (16, 32796 + d.toNat * 32 + s.toNat * 1024)
  | .btC t g => some (16, 30 + t.toNat * 32 + g.toNat * 1024)
  | .btnC t g => some (16, 32798 + t.toNat * 32 + g.toNat * 1024)
  | .mzeroExec _ => none
  | .mldaExec _ => none
  | .mldbExec _ => none
  | .mmaExec _ => none
  | .mgangBarrier _ => none
  | .mgangExec _ => none
  | .mdrainExec _ => none
  | .mdrainrExec _ => none
  | .mdrainrWrite _ => none
  | .leaveGrant _ => none
  | .copyChunk _ => none
  | .copyChunkArrival _ => none
  | .cwaitResolve _ => none
  | .reset => none
  | .thermalShutdown => none
  | .governorLevel _ _ => none
  | .tail _ _ => none
  | .enable _ _ => none
  | .registerWrite _ _ => none
  | .retrain _ => none
  | .waitovf _ => none
  | .correctedErrorCount _ => none
  | .attestationRequest _ => none
  | .hostAccess _ _ _ _ => none
  | .contextCreate _ => none
  | .launchRecordRead _ _ => none
  | .placeLaunch _ _ _ => none
  | .dispatch _ _ => none
  | .counterUp _ => none
  | .counterDone _ => none
  | .deadlineCheck _ => none
  | .preemptionRequest _ => none
  | .haltSignal _ => none
  | .haltingComplete _ => none
  | .resume _ => none
  | .save _ => none
  | .restore _ _ => none
  | .resize _ _ => none
  | .dump _ => none
  | .destroy _ => none
  | .reply _ => none
  | .acknowledgement _ => none
  | .messageArrival _ => none
  | .handlerStart _ => none
  | .load _ => none
  | .store _ => none
  | .syncLoad _ => none
  | .fill _ => none
  | .fe _ => none
  | .atomic _ => none
  | .deferredResend _ => none
  | .chainWord _ => none
  | .migrationArrival _ => none
  | .timerExpiry _ _ => none
  | .asyncTrap _ _ => none
  | .taskMessageVerdict _ => none
  | .forwardDelivery _ => none
  | .bounce _ => none
  | .taskEntryReclaim _ _ => none
  | .musterStep _ => none
  | .musterAnswer _ => none
  | .pollReissue _ _ => none
  | .stealRound _ _ => none
  | .stealArrival _ => none
  | .traversalCountMessage _ => none
  | .traversalEnd _ _ => none
  | .commitStep _ _ => none
  | .faultService _ => none
  | .faultBufferCapacity _ _ => none
  | .evictionSelect _ _ => none
  | .commitPoint _ _ => none
  | .copyOutComplete _ _ _ => none
  | .recall _ _ _ => none
  | .duplicate _ _ => none
  | .trailPageMap _ _ => none
  | .packetReceived _ _ _ _ => none
  | .packetReturned _ _ _ _ => none
  | .backoffResend _ _ _ => none
  | .sendComplete _ _ _ => none
  | .linkTrained _ _ => none
  | .linkLoss _ => none
  | .linkDisable _ => none
  | .dieLinkFailure _ => none
  | .uncorrectableError _ => none
  | .correctedError _ => none
  | .scrub _ => none
  | .telemetryUpdate _ _ _ => none
  | .primitiveArrival _ => none
  | .watermarkFlit _ => none
  | .fragmentStart _ _ _ _ => none
  | .blend _ _ => none
  | .frameCloseComplete _ => none
  | .flitReplay _ => none
  | .cb4LeaveEnd _ => none
  | .antiRollbackRaise _ => none

/-- The bytes of an instruction in memory order. -/
def encodeBytes (i : Instr) : Option (List Byte) :=
  (encode i).map fun p => leBytes (p.1 / 8) p.2

end Sys2Proof
end

