-- ==== Sys2Proof/Machine/State.lean ====
section
/-!
DEFINITION. The state of the device, as plain data: threads, cores, clusters, dies, contexts, main memory, the messages
in flight, and the model's own schedule. Large regular parts (cores, memory, tables) are sparse: an entry that is not
listed has its reset value. The names are those of the spec; each structure names the rules that give it.
-/

namespace Sys2Proof.Machine

/-- A sparse table: entries by rising key, and what is not listed has its reset value. -/
abbrev SMap (α : Type) := List (Nat × α)

/-! ## Threads (05) -/

/-- A guard: its state and its mask (R107). -/
structure Guard where
  pending : Bool
  mask : BitVec 8
deriving DecidableEq, Repr

/-- The states of a slot (R96), with IDLE and HANDLING for the message slot (R95). -/
inductive Phase where
  | empty | bound | run | parked | trapped | halted | retired | idle | handling
deriving DecidableEq, Repr

/-- A slot of a core: the core's key (context * 2^20 + packed coordinate of R63) and the slot number. -/
structure Ref where
  core : Nat
  slot : Nat
deriving DecidableEq, Repr

/-- Where the value of a reply goes when it arrives (R104, R163). -/
inductive ReplyTo where
  /-- LD: size code w of R152 into x[d]. -/
  | load (d : Nat) (w : Nat)
  /-- LDS: 4 or 8 bytes into x[d]. -/
  | sync (d : Nat) (size : Nat)
  /-- LDV, LDVS, LDVH, LDVB: VMEM form w into v[d]. -/
  | vec (d : Nat) (w : Nat)
  /-- FETEST into x[d]. -/
  | fetest (d : Nat)
  /-- FEWAIT, and every wait for a bare answer. -/
  | bare
  /-- ATOM and ATOMX on whole registers, and ATOMW: old value of 4 or 8 bytes; `sx` extends by sign, `acq` is the
  scope of an acquire (0: none). -/
  | atom (d : Nat) (size : Nat) (sx : Bool) (acq : Nat)
  /-- XRD: a whole cell, rounded to FP64 or FP32 into x[d]. -/
  | cell (d : Nat) (double : Bool)
  /-- XMAXE. -/
  | maxe (d : Nat)
  /-- LDX and LDXB: `n` lanes of v[d] with their flags, `n` draws taken (R160). -/
  | elems (d n : Nat)
  /-- RFETCH into x[d]. -/
  | rfetch (d : Nat)
  /-- MINIT through a CORE segment; the address word for TRAPVAL. -/
  | minit (word : Word)
  /-- The record of a LAUNCH through a CORE segment, whose launch id goes into x[d] (R306). -/
  | launch (d : Nat)
  /-- A synchronous wait on a muster; the address word for TRAPVAL. -/
  | muster (word : Word)
  /-- Bytes that the instruction, when it issues again, takes as an operand in memory (EMITP, PXINS). -/
  | operand
  /-- HPASS and HFREE at a handle's HOME: the reference, and the thread that HPASS names (R218). -/
  | handle (ref : Word) (pass : Option Word)
  /-- A form that a unit performs (R329, R386): its result goes into x[d], if it has one, and it acquires at `scope` (0: none). -/
  | unit (d : Option Nat) (scope : Nat)
deriving DecidableEq, Repr

/-- What a parked thread waits for (R104). -/
inductive Wait where
  /-- Nothing. -/
  | none
  /-- The instruction reissues as soon as it would not park again. -/
  | retry
  /-- A page fault: woken by REPLAY or Hjelec on the die (R277). -/
  | page (va : Nat) (die : Nat)
  /-- A reply; `sg` and `off` give the trap of an access beyond the owner's SP (R148). -/
  | reply (dest : ReplyTo) (sg : Nat) (off : Word)
  /-- WFE: the event flag (R121). -/
  | event
  /-- SLEEP: the ready queue or the slot timer (R291). -/
  | sleep
  /-- A future's wait table entry at its home slice (R322). -/
  | future
  /-- Poll mode of a future: the next reissue's cycle (R323). -/
  | poll (cycle : Nat)
  /-- TAKEP: a pair or the end of the traversal (R351). -/
  | take
  /-- A migration's step 3: its engine queues, guards and writes (R122). -/
  | leave (target : Nat) (again : Bool)
  /-- MIGRATE and the migration of R88: arrival at the target core; `again` when the instruction runs there (R88). -/
  | migrate (target : Nat) (again : Bool)
  /-- LAUNCH: Hjelec's read of the record, which gives the launch id for x[d] (R297, R306). -/
  | launch (d : Nat)
  /-- HPASS: room in the receiving slot's handle inbox (R218). -/
  | pass
  /-- PGPIN: Hjelec's recall of the page (R279). -/
  | recall (va : Nat)
  /-- TLBINV: the threads whose accesses an entry that it removed has translated, while they wait at their words' home slices
  (R278, R322). -/
  | flush (who : List Ref)
deriving DecidableEq, Repr

/-- An accumulator tile: 64 FP32 elements in row-major order, and its fault tag (R185). -/
structure Acc where
  tile : Vector (BitVec 32) 64
  tag : BitVec 8
deriving DecidableEq, Repr

/-- A latch of 288 bytes by its fields (R186): eight rows of 32 bytes, the codebook copy, the scales. -/
structure Latch where
  rows : Vector (BitVec 256) 8
  table : BitVec 256
  scales : Vector (BitVec 16) 8
  fmt : BitVec 8
  valid : Bool
  poison : Bool
deriving DecidableEq, Repr

/-- The writable CSRs and the fields of STATUS of one slot (R127). -/
structure Csrs where
  spec : Bool
  sys : Bool
  chain : Bool
  tm : Bool
  rnd : BitVec 3
  fflags : BitVec 5
  ftrapen : BitVec 5
  seed : Word
  draw : Word
  stamp : Word
  specd : BitVec 8
  task : BitVec 32
  timer : Word
  copyst : Word
  matst : Word
  amsrc : BitVec 20
  trappc : Word
  trapcause : BitVec 8
  trapval : Word
  tvec : Word
  tscratch : Word
  deadline : Word
  trailAtoms : Bool
  apxctl : BitVec 17
deriving DecidableEq, Repr

/-- When a queued engine command may start (R109). -/
inductive Gate where
  | go
  | drop
  /-- Waits for the guard; `gs` as in R78. -/
  | await (guard : Nat) (gs : Bool)
deriving DecidableEq, Repr

/-- Power leave of a command (R201, R422). -/
inductive Leave where
  | none | asked | granted
deriving DecidableEq, Repr

/-- The matrix commands with their captured operands (R191). -/
inductive MatOp where
  | zero (acc : Nat)
  /-- MLDA (`b` = false) and MLDB: OFF, ROWS, PITCH, the eight row indices, format code and codebook slot. -/
  | load (b : Bool) (off rows pitch : Nat) (idx : List Nat) (fmt cb : Nat)
  | mma (acc : Nat)
  | gang (acc : Nat) (tag : Nat) (share : Bool)
  /-- MDRAIN (no target) and MDRAINR: guard, accumulator, drain word, captured RND, SEED and first draw. -/
  | drain (guard acc : Nat) (word : Word) (target : Option Nat) (rnd : BitVec 3) (seed draw : Word)
deriving DecidableEq, Repr

/-- A queued matrix command. -/
structure MatCmd where
  op : MatOp
  gate : Gate
  specd : BitVec 8
  leave : Leave
  /-- A gang offer made at the barrier (R198). -/
  offered : Bool
  /-- The gang's barrier is met and the gang may perform (R198). -/
  ready : Bool
  /-- MDRAINR: granules already sent, and whether the target awaits them (R202). -/
  pos : Nat
  sent : Bool
deriving DecidableEq, Repr

/-- A copy address with the descriptor captured for it (R205). -/
structure CopyEnd where
  seg : SegWord
  off : Nat
deriving DecidableEq, Repr

/-- The copy commands with their captured operands (R206). -/
inductive CopyOp where
  /-- CPY and CPYB; the muster offset when bound. -/
  | plain (src dst : CopyEnd) (muster : Option Nat)
  /-- CPYT: the descriptor's scratchpad offset; its bytes once read. -/
  | tensor (desc : Nat) (bytes : List Byte) (src dst : CopyEnd)
  /-- CPYM: the multicast word, the source, and the targets fixed at the start. -/
  | multi (word : Word) (src : CopyEnd) (targets : List Nat)
  | wait (guard : Nat)
  /-- CPYH: reference, direction, the address, the offset within the buffer. -/
  | handle (ref : Word) (toBuffer : Bool) (addr : CopyEnd) (boff : Nat)
deriving DecidableEq, Repr

/-- The window a thread is a member of: the address word, the descriptor's VA by which the home slice knows it, and WGEN (R382). -/
structure Member where
  word : Word
  desc : Nat
  wgen : BitVec 32
deriving DecidableEq, Repr

/-- A queued copy command. -/
structure CopyCmd where
  op : CopyOp
  gate : Gate
  specd : BitVec 8
  /-- The window that the tag belongs to (R383). -/
  window : Option Member
  scope : Nat
  len : Nat
  /-- Engine format of the pages of a DECODE or ENCODE, that of the first it reaches (R209). -/
  format : Nat
  started : Bool
  /-- Destination bytes of the whole chunks performed. -/
  pos : Nat
  /-- Chunks sent whose arrival is still to come. -/
  flight : Nat
  /-- Held on a page fault, with the address (R213). -/
  held : Option Nat
  /-- The failure met, if any. -/
  failed : Option (BitVec 8)
  /-- Targets whose SP refused the delivery (R210). -/
  refused : List Nat
  /-- The handle's entry is pinned (R217). -/
  pinned : Bool
  /-- The next chunk's source bytes in another core's scratchpad: asked of their owner (`some none`), and then at hand. -/
  fetch : Option (Option (List Byte))
  leave : Leave
  /-- The number of the request that asked for them: an answer to an earlier one is discarded (R216). -/
  asked : Nat
  /-- Its failure has been sent to the muster it is bound to (R211). -/
  faulted : Bool
deriving DecidableEq, Repr

/-- A task message, with its sender (R284). -/
structure TaskMsg where
  lo : Word
  hi : Word
  task : BitVec 32
  sender : Ref
  number : BitVec 32
  /-- Status of a bounce (R285, R291); 0 for a message. -/
  status : Nat
  /-- Number of its verdict at the task's home slice (R285). -/
  order : Nat
deriving DecidableEq, Repr

/-- A pair record (R341) with the handle it belongs to. -/
structure Pair where
  a : BitVec 32
  b : BitVec 32
  self : Bool
  depth : Nat
  stamp : Word
  user : Word
  handle : Word
deriving DecidableEq, Repr

/-- A revision: the cluster key of the Fuller that holds it and its entry (R370). -/
structure RevRef where
  home : Nat
  index : Nat
deriving DecidableEq, Repr

/-- A child a thread has forked and not joined (R372). -/
structure Child where
  ref : RevRef
  gen : Nat
  stamp : Word
deriving DecidableEq, Repr

/-- A fragment thread's quad: owner, primitive SEQ, place, coverage and what FOUT has sent (R403, R406). -/
structure Quad where
  owner : Nat
  /-- The primitive's number at its owner, in the order of arrival. -/
  prim : Nat
  seq : Word
  qx : Nat
  qy : Nat
  coverage : BitVec 16
  /-- SAMPLES of the frame. -/
  samples : Nat
  attr : Word
  user : Word
  /-- The barycentric weights of V1 and V2 at the four pixel centres, FP32. -/
  bary : List (BitVec 32)
  out : Bool
deriving DecidableEq, Repr

/-- A user message or a built-in message (R163, R169). -/
inductive Request where
  /-- AMSEND and RFETCH: handler, payload; `reply` for RFETCH. -/
  | user (handler : Word) (lo hi : Word) (reply : Bool)
  /-- Load of `size` bytes. -/
  | load (addr size : Nat)
  /-- A copy engine's read of a chunk's source: runs of bytes by offset and length, and the end of the command's source range for the
  owner's check (R213), and the request's number at the engine. -/
  | source (runs : List (Nat × Nat)) (check tag : Nat)
  /-- Posted store. -/
  | store (addr : Nat) (bytes : List Byte)
  /-- LDS and LDVS: `clear` for .C. -/
  | syncLoad (addr size : Nat) (clear : Bool)
  /-- STF and STVF: `empty` for .E. -/
  | fill (addr : Nat) (bytes : List Byte) (empty : Bool)
  /-- FESET 0, FECLR 1, FETEST 2, FEWAIT 3. -/
  | fe (addr op : Nat)
  /-- ATOM, ATOMW, ATOMX: operation, size, operand and CAS's new value. -/
  | atomic (addr op size : Nat) (v new : Word)
  /-- HPASS (with the coordinate and slot that it names) and HFREE at the handle's HOME (R218). -/
  | handle (ref : Word) (pass : Option Word)
  /-- XCELL: operation of R244 and its operands. -/
  | cell (addr op : Nat) (b c : Word)
  /-- Muster steps of R319: 0 MINIT, 1 MARRIVE, 2 MWAIT, 3 MSYNC, 4 MDEBT, 5 a wait held for a thread of the core itself,
  with the operand word; `guard` < 7 for an asynchronous wait. -/
  | muster (op addr : Nat) (v : Word) (guard : Nat)
deriving DecidableEq, Repr

/-- A request with its sender, as it waits in a queue. -/
structure Message where
  src : Ref
  req : Request
deriving DecidableEq, Repr

/-- One slot of a core: the thread's visible state (R94), and the control state the chapters give a slot. -/
structure Thread where
  phase : Phase
  /-- The state a parked thread parked from (R96). -/
  parkedFrom : Phase
  /-- The state pre-emption remembers; none for a thread halted for good (R96, R97). -/
  haltedFrom : Option Phase
  wait : Wait
  /-- Length in bytes of the instruction that parked. -/
  parkLen : Nat
  /-- The trap found no handler and the thread retires at its next issue (R412). -/
  retiring : Bool
  pc : Word
  x : Vector Word 32
  v : Vector VReg 32
  acc : Vector Acc 4
  latchA : Latch
  latchB : Latch
  g : Vector Guard 8
  tb : Vector Word 4
  seg : Vector SegWord 8
  csr : Csrs
  /-- STATUS.CHAIN saved at trap entry (R412). -/
  savedChain : Bool
  /-- The next home cycle is given away (R120). -/
  yielded : Bool
  /-- The cycle of the previous issue (R100). -/
  lastIssue : Option Nat
  /-- A double fault of a window's member that waits for its writes (R394). -/
  doubling : Bool
  /-- The slot may not issue in this cycle: its thread was dispatched, resumed or woken in it (R96, R104). -/
  soon : Bool
  event : Bool
  matq : List MatCmd
  copyq : List CopyCmd
  /-- The widest SCOPE of the copies that have ended since the last CWAIT, and of the MDRAINRs since an MSTAT that read 0: what
  has read their end acquires there (R195, R212, R228). -/
  copyScope : Nat
  drainScope : Nat
  /-- Pending asynchronous traps (R289, R291). -/
  msgLost : Bool
  timerTrap : Bool
  lost : BitVec 16
  lostTask : BitVec 32
  mailbox : List TaskMsg
  bounces : List TaskMsg
  refusal : List (BitVec 32)
  overflowed : Bool
  number : BitVec 32
  /-- Handle inbox: references, each with the core that passed it (R218). -/
  inbox : List (Word × Nat)
  /-- A reference that a parked HPASS has given to a slot whose inbox has no room yet (R218). -/
  passing : Option (Word × Ref)
  chainIn : List Word
  /-- A word popped by an instruction that awaits its reply (R170). -/
  popped : Option Word
  /-- An operand in another core's scratchpad that the instruction at PC has fetched. -/
  fetched : Option (List Byte)
  up : Option Ref
  down : Option Ref
  parties : List (Nat × Nat)
  /-- Posted CORE writes not yet acknowledged (R163). -/
  unacked : Nat
  /-- Asynchronous muster waits outstanding (R319). -/
  asyncWaits : Nat
  launch : BitVec 32
  rank : BitVec 32
  ltag : Nat
  /-- Entries of the task table: the first index of the thread's run, and how many (R284). -/
  taskBase : Nat
  taskRun : Nat
  held : Option Pair
  rev : Option RevRef
  depth : Nat
  children : List Child
  /-- JOINALL, or the one implicit in DONE, in progress: children merged and discarded (R368, R372). -/
  joinMerged : Nat
  joinDropped : Nat
  window : Option Member
  /-- A geometry thread's floor and geometry die (R400). -/
  geo : Option (Word × Nat)
  quad : Option Quad
  /-- Count of the slot's recorded atomics (R358). -/
  recorded : BitVec 16
  /-- Message slot: the handler's address, its instruction count, and the message it runs (R165, R166). -/
  handler : Word
  issues : Nat
  current : Option Message
deriving DecidableEq, Repr

/-! ## Cores (01, 05, 10, 15, 16) -/

/-- A handle table entry (R217). -/
structure Handle where
  gen : BitVec 8
  /-- 0 FREE, 1 OWNED, 2 FREEING. -/
  state : Nat
  owner : Ref
  pins : Nat
  base : Nat
  size : Nat
deriving DecidableEq, Repr

/-- A deferred request: a synchronising access or a held wait on a muster (R151, R318). -/
structure Deferred where
  src : Ref
  req : Request
  /-- A muster wait's parity. -/
  parity : Bool
deriving DecidableEq, Repr

/-- A sleep table entry (R287). -/
structure Sleeper where
  task : BitVec 32
  prio : Nat
  woken : Bool
deriving DecidableEq, Repr

/-- A bind record (R299). -/
structure Bind where
  pc : Word
  stamp : Word
  part : BitVec 32
  sys : Bool
  chain : Bool
  prio : Nat
  rank : BitVec 32
  task : BitVec 32
  launch : BitVec 32
  up : Option Ref
  down : Option Ref
  ltag : Nat
  /-- The launch record's copy (LREC). -/
  record : BitVec 512
  taskBase : Nat
  taskRun : Nat
  /-- A fragment thread's quad and the launch id it is given in x7 (R403). -/
  quad : Option Quad
  openLaunch : BitVec 32
deriving DecidableEq, Repr

/-- A core. -/
structure Core where
  slots : Vector Thread 16
  /-- Scratchpad bytes that are not zero, by offset. -/
  pool : SMap Byte
  /-- Full granules (R14), by number, in rising order. -/
  full : List Nat
  /-- Poisoned granules (R417). -/
  poison : List Nat
  /-- The partition word of the core's live work and its kernel image (R105, R297); kept after the work ends. -/
  part : BitVec 32
  kimg : Word
  /-- Live counters and status words, one per LTAG, and the launch each tag stands for (R301). -/
  live : Vector Nat 4
  status : Vector (BitVec 32) 4
  tags : Vector (Option (BitVec 32)) 4
  binds : SMap Bind
  /-- Inbound message queue (R163) and deferred-request list (R151), oldest first. -/
  inq : List Message
  /-- How many of the queue's last messages arrived in this cycle, and are pending from the next (R99). -/
  arrived : Nat
  deferred : List Deferred
  handles : SMap Handle
  /-- Ready queue by priority, and sleep table in order of entry (R287). -/
  ready : Vector (List (BitVec 32)) 4
  sleepers : List Sleeper
  handlerBounces : BitVec 16
  /-- The last user slot that received a donated cycle (R100). -/
  donated : Option Nat
  /-- The slot each engine last served (R15). -/
  matServed : Option Nat
  copyServed : Option Nat
  /-- Requests for source bytes that the copy engine has sent. -/
  sourceAsks : Nat
  /-- The cycle of the last cb4 MMA, and whether the cb4 grant is held (R201). -/
  lastCb4 : Option Nat
  cb4Leave : Bool
  gated : Bool
  /-- Basket quarters: offset, and 4 * (VA / 65536) + the quarter's number (R273). -/
  quarters : List (Nat × Nat)
  /-- The core has been bound while it held no live work: its first dispatch writes the kernel's image (R70, R300). -/
  imageDue : Bool
  /-- Dispatch has placed the core, so that its message slot's segments are loaded (R257). -/
  placed : Bool
  /-- The halt signal has reached the core (R418). -/
  halting : Bool
deriving DecidableEq, Repr

/-! ## Clusters (01, 14, 17, 20, 21) -/

/-- A leaf as the walk found it: base half, format half, the entry's PA, and whether the page is of 256 MiB. -/
structure Leaf where
  base : Word
  fmt : Word
  entry : Nat
  large : Bool
deriving DecidableEq, Repr

/-- The states of a revision table entry (R369). -/
inductive RevPhase where
  | running | done | merging | halted
deriving DecidableEq, Repr

/-- A version of a merge granule: its bytes and the STAMP of its last writer (R365). -/
structure Version where
  bytes : BitVec 512
  stamp : Word
deriving DecidableEq, Repr

/-- A revision table entry in use (R369); an entry not listed is FREE. -/
structure Rev where
  phase : RevPhase
  orphan : Bool
  parent : Option RevRef
  /-- The forking thread, and the child's number. -/
  owner : Ref
  ownerNumber : BitVec 32
  child : Ref
  /-- Versions of the revision, and ancestors retained for it, by granule VA / 64. -/
  versions : SMap Version
  ancestors : SMap Version
  /-- Granules merged by a JOIN that was interrupted (R368). -/
  merged : Nat
deriving DecidableEq, Repr

/-- A home entry of a traversal (R342, R349). -/
structure Traversal where
  nodeA : Word
  countA : Nat
  nodeB : Word
  countB : Nat
  self : Bool
  tkey : BitVec 16
  cap : Nat
  party : Nat
  steal : Bool
  apx : BitVec 17
  /-- LTAG and launch of the opening thread. -/
  ltag : Nat
  launch : BitVec 32
  /-- Clusters whose count is nonzero, as reported to the home (R347), the home's own apart. -/
  members : List Nat
  ended : Bool
deriving DecidableEq, Repr

/-- What a cluster holds of a traversal: its count, by handle (R347). -/
structure MemberEntry where
  handle : Word
  /-- Its entry of the cluster's table of sixteen. -/
  index : Nat
  count : Nat
deriving DecidableEq, Repr

/-- A waiting taker (R344), with the time of its next round of steals. -/
structure Taker where
  who : Ref
  handle : Word
  dest : Nat
  guard : Nat
  next : Nat
deriving DecidableEq, Repr

/-- A cluster unit. -/
structure Cluster where
  /-- Cluster cache: lines by PA / 64, oldest first (R12, R231). -/
  cache : SMap (BitVec 512)
  /-- First-level TLB: page key and leaf, oldest first (R266). -/
  tlb : SMap Leaf
  /-- Cluster party table: party and the sixteen core counts (R309). -/
  parties : SMap (List Nat)
  /-- Hamper: pending pairs in the order stored, traversal entries, member entries, generations of the sixteen entries, takers. -/
  pairs : List Pair
  traversals : SMap Traversal
  members : List MemberEntry
  gens : SMap Nat
  takers : List Taker
  /-- Fuller: revision entries and generations; FORKs that wait, in order (R371). -/
  revs : SMap Rev
  revGens : SMap Nat
  forkers : List Ref
  /-- Power leave: requests in order and grants held (R422), by core and slot; to the slot's number an MGANG adds 16, for
  its leader, and a CPYM 32. -/
  leaveAsked : List Ref
  leaveHeld : List Ref
deriving DecidableEq, Repr

/-! ## Dies (14, 20, 23, 24, 25) -/

/-- A fault record (R270). -/
structure FaultRec where
  ctx : Nat
  va : Nat
  core : Nat
  slot : Nat
  kind : Nat
  cause : BitVec 8
  cycle : Word
  found : BitVec 8
deriving DecidableEq, Repr

/-- A Z-die. -/
structure Die where
  level : BitVec 4
  /-- Second-level TLB (R266). -/
  tlb : SMap Leaf
  /-- Fault buffer, oldest first; pending set of (context, page); DROPPED contexts; capacity and the one to take effect (R269, R271). -/
  faults : List FaultRec
  pendingSet : List (Nat × Nat)
  dropped : List Nat
  capacity : Nat
  newCapacity : Option Nat
  /-- Leave grants issued (R425). -/
  grants : BitVec 24
deriving DecidableEq, Repr

/-! ## Contexts (13, 15, 16, 17, 19 to 23) -/

/-- The states of a context (R252); a number that is not listed has a context that is NEW or DESTROYED. -/
inductive CtxPhase where
  | idle | running | halting | halted | saved | faulted
deriving DecidableEq, Repr

/-- Events of R252 that wait until the state of their context changes. -/
inductive CtxEvent where
  | preempt
  | resume
  | save
  /-- RESIZE, with the virtual indices of the clusters to be removed. -/
  | resize (removed : List Nat)
  /-- A halt that a dump follows, with its reason and what it reports (R252, R337). -/
  | halt (reason : BitVec 8) (val : Word)
deriving DecidableEq, Repr

/-- The states of a launch (R305). -/
inductive LaunchPhase where
  | read | placing | running | done
deriving DecidableEq, Repr

/-- A revision region (R363). -/
structure Region where
  base : Nat
  size : Nat
  type : Nat
deriving DecidableEq, Repr

/-- What a launch takes from a kernel image (R294, R295). -/
structure Kernel where
  part : BitVec 32
  textsz : Nat
  localsz : Nat
  entry : Word
  deadline : Nat
  trees : List (Nat × Nat)
  regions : List Region
  /-- Scope ids with the VAs of their bitmaps, and codebook slots with those of their tables. -/
  scopes : List (Nat × Nat)
  books : List (Nat × Nat)
deriving DecidableEq, Repr

/-- A launch table entry. The tree's counters are by node: 0 the root, 1 + d a Z-die, 16 + c a cluster of the grid. -/
structure Launch where
  record : BitVec 512
  phase : LaunchPhase
  /-- The queue it was read from: a host queue's number, or 64 for the device launch queue. -/
  queue : Nat
  kernel : Kernel
  /-- Cycles of RUNNING counted (R304). -/
  ran : Nat
  tree : SMap Nat
  /-- Status words gathered at the tree's nodes (R302). -/
  words : SMap (BitVec 32)
  /-- The first index of the task entries reserved for it, once they are (R284, R286). -/
  taskBase : Option Nat
  /-- The pages pinned for its trees, by the VA of their start (R338), and whether DONEFUT's page is pinned (R303). -/
  treePins : List Nat
  pinned : Bool
deriving DecidableEq, Repr

/-- The states of a task-table entry (R284). -/
inductive TaskPhase where
  | unplaced | placed | swapped | exited
deriving DecidableEq, Repr

/-- A task-table entry in use; an entry not listed is FREE, its generation in `Context.taskGens`. -/
structure Task where
  phase : TaskPhase
  want : Bool
  place : Ref
  mbox : List TaskMsg
  /-- MHEAD: the place of the memory mailbox's oldest entry in its ring (R284). -/
  mhead : Nat
  /-- Verdicts given so far (R285). -/
  verdicts : Nat
deriving DecidableEq, Repr

/-- A party record (R308): MAP as the list of virtual cluster numbers cy * 256 + cx. -/
structure Party where
  size : Nat
  joins : BitVec 32
  map : List Nat
deriving DecidableEq, Repr

/-- A posted window (R330): the pieces of its physical range, its length and its counter. -/
structure Window where
  pieces : List (Nat × Nat)
  len : Nat
  counter : Nat
  pages : List Nat
deriving DecidableEq, Repr

/-- An arm entry in use (R331); states 1 ARMED, 2 SENDING, 3 FAILED. -/
structure Arm where
  gen : BitVec 8
  state : Nat
  reason : Nat
  src : CopyEnd
  ctxCore : Nat
  /-- The arming thread's slot, and whether it was in system mode. -/
  slot : Nat
  sys : Bool
  /-- A firing send waits for a page of its source (R263, R269). -/
  held : Bool
  len : Nat
  doff : Nat
  rctx : BitVec 16
  dev : Nat
  win : Nat
  tctr : Nat
  sctr : Nat
  thresh : Word
  accepted : Nat
  /-- Packets of a firing send that are not yet accepted: offset in the window, bytes, back-off cycles, and the cycle at
  which a returned one is sent again. -/
  packets : SMap (Nat × List Byte × Nat × Option Nat)
deriving DecidableEq, Repr

/-- The Trail (R357 to R361). -/
structure Trail where
  mode : Nat
  full : Bool
  /-- Mapped pages. -/
  pages : Nat
  /-- Replay: the entries as Hjelec has indexed them (R361), and the indices of those consumed. -/
  index : List (BitVec 128)
  consumed : List Nat
  /-- Recorded or replayed atomics performed, by 8-byte word PA / 8. -/
  positions : SMap (BitVec 16)
  /-- Hjelec has no page to give. -/
  exhausted : Bool
deriving DecidableEq, Repr

/-- The states of a frame (R396). -/
inductive FramePhase where
  | closed | opened | closing
deriving DecidableEq, Repr

/-- A primitive copy at an owner (R407). -/
structure Prim where
  number : Nat
  record : BitVec 1024
  released : Bool
  /-- The state entry as read at the release; none where its read or its values fail (R399). -/
  entry : Option (BitVec 128)
  /-- Quads not yet started. -/
  todo : List Quad
  /-- Places of the quads that have started and have not been applied. -/
  started : List (Nat × Nat)
deriving DecidableEq, Repr

/-- A result or discard of a quad that waits to be blended (R404, R405). -/
structure Fragment where
  prim : Nat
  seq : Word
  qx : Nat
  qy : Nat
  coverage : BitVec 16
  /-- None: discarded. -/
  colours : Option (List (BitVec 32))
  kill : BitVec 4
  byFault : Bool
deriving DecidableEq, Repr

/-- A render owner (R396, R401). -/
structure Owner where
  flits : SMap Word
  prims : List Prim
  results : List Fragment
  quads : Nat
  /-- Primitives that have arrived. -/
  arrivals : Nat
deriving DecidableEq, Repr

/-- A geometry die's part in the frame (R400). -/
structure GeoDie where
  hold : Word
  published : Word
  binner : List (BitVec 1024)
deriving DecidableEq, Repr

/-- The frame of a context (R396). -/
structure Frame where
  phase : FramePhase
  desc : BitVec 1024
  /-- The core and offset where OPEN read the descriptor. -/
  core : Nat
  offset : Nat
  /-- The record of FLREC, the fragment launch id, and OPEN's launch and LTAG. -/
  record : BitVec 512
  launch : BitVec 32
  openLaunch : BitVec 32
  ltag : Nat
  owners : SMap Owner
  geo : SMap GeoDie
  /-- CLOSE's thread and guard. -/
  closer : Option (Ref × Nat)
  /-- FAULT, and the cause of the first fault recorded (R409, R410). -/
  faulted : Bool
  fault : Option (BitVec 8)
  discarded : Nat
deriving DecidableEq, Repr

/-- An open speculative window (R381, R383): draft versions by draft and granule VA / 64 (those of a page's scale bytes from 2^56 on,
log 117), and the committer. -/
structure SpecWindow where
  kv : Nat × Nat
  recur : Nat × Nat
  scope : Nat
  whome : Nat
  drafts : SMap (SMap Version)
  /-- Leaves that the home slice has still to count, since the descriptor's page is away (R430). -/
  owed : Nat
  commit : Option (Ref × Nat × Nat)
  /-- WGEN while it is open. -/
  wgen : BitVec 32
deriving DecidableEq, Repr

/-- A PXINS that the home slice of its index has still to perform (R392): its thread and guard, the header's VA, the candidate, its
buffer, the thread's STAMP, and, in replay, whether its entry makes it the winner (R393). -/
structure PrefixWait where
  who : Ref
  guard : Nat
  header : Nat
  bytes : List Byte
  dest : CopyEnd
  stamp : Word
  wins : Option Bool
deriving DecidableEq, Repr

/-- A saved cluster (R254). -/
structure Image where
  cores : List (Nat × Core)
  cluster : Cluster
deriving DecidableEq, Repr

/-- A context. -/
structure Context where
  record : BitVec 1024
  phase : CtxPhase
  /-- Why it halts, what the reason reports (LINK_FATAL: the die link's number, R337), and that a dump must follow (R252, R304). -/
  reason : Option (BitVec 8)
  haltVal : Word
  mustDump : Bool
  /-- A RUNNING context halts for a resize that removes these clusters; and it is to stay HALTED when the resize ends (R255). -/
  resize : Option (List Nat)
  stay : Bool
  /-- Events that wait until the state changes, oldest first (R252). -/
  waiting : List CtxEvent
  /-- Virtual indices whose part of the save area holds an image, the arrangement of whose bytes is Hjelec's (R254). -/
  saved : List Nat
  /-- The leaves that walks have put into TLBs since a TLBINV of their page, by TLB key: where lines of old frames may still be (R278). -/
  walked : SMap (List Leaf)
  /-- The routers' copy of the cluster map: virtual index to entry (R250). -/
  map : SMap (BitVec 16)
  /-- Scope-table entries that a `.scope` has defined, with the set bits of the bitmap copied (R251). -/
  scopes : SMap (List Nat)
  launchId : BitVec 32
  launches : SMap Launch
  /-- Device launch queue: each record with the thread whose LAUNCH awaits its id (R283, R306). -/
  ring : List (BitVec 512 × Ref)
  threadNumber : BitVec 32
  tasks : SMap Task
  taskGens : SMap (BitVec 12)
  parties : SMap Party
  regions : List Region
  /-- STAMP of the last writer of a region granule of the root, by VA / 64. -/
  rootStamps : SMap Word
  windows : SMap Window
  counters : SMap Word
  arms : SMap Arm
  armGens : SMap (BitVec 8)
  trail : Trail
  frame : Frame
  /-- By the VA of the descriptor, as the home slice knows it. -/
  spec : SMap SpecWindow
  /-- By the VA of a sequence descriptor that an instruction has named: the base and size of its KV region and of its
  recurrent region (R383). -/
  sequences : SMap ((Nat × Nat) × (Nat × Nat))
  prefixWaits : List PrefixWait
  images : SMap Image
  /-- Host memory that Hjelec keeps pages in (R272): by VA / 65536 of the page's start, the bytes that are not zero by
  offset, those of a scale frame from offset 2^32 on, and a 1 for each full word from 2^33 (R321), each poisoned line
  from 2^34 on, and each of a scale frame from 2^35 on (R417); of a page in the basket only the last three. -/
  away : SMap (List Host.Cell)
  /-- The entries that evictions have under way, by PA; a software write of one takes it out (R266). From the commit point on, with
  the bytes of the page's frame as the copy-out reads them, and its scale frame's, future bits and poison, as in `away` (R272). -/
  evicting : SMap (Option (List Host.Cell))
deriving DecidableEq, Repr

/-! ## The device -/

/-- A host-queue block (R281). -/
structure HostQueue where
  base : Word
  log2n : BitVec 8
  ctxnum : BitVec 16
  enable : Bool
  overrun : Bool
  badrec : Bool
  head : BitVec 32
  tail : BitVec 32
deriving DecidableEq, Repr

/-- A peer link (R327): states 0 DOWN, 1 TRAIN, 2 UP8, 3 UP4, 4 FAILED. -/
structure PeerLink where
  state : Nat
  lanes : Nat
  replays : BitVec 16
  returns : BitVec 32
  attempts : Nat
  /-- The cycles of the replays within the last 2^20. -/
  recent : List Nat
deriving DecidableEq, Repr

/-- The device status word (R325). -/
structure DevStatus where
  ready : Bool
  bootfail : Bool
  ue : Bool
  peerdn : Bool
  diefail : Bool
  ctxref : Bool
  refctx : BitVec 16
  refcode : BitVec 8
  /-- A die link has failed: no new work until the next reset (R336); no bit of the word. -/
  linkFatal : Bool
deriving DecidableEq, Repr

/-- A waiter at a home slice (R322): kinds 0 LDS.K.D, 1 LDS.C.D, 2 FEWAIT, 3 STF.E.D. -/
structure FutureWait where
  who : Ref
  word : Nat
  kind : Nat
  dest : Nat
  value : Word
  /-- The VA by which the access reached the word. -/
  va : Nat
  /-- SCOPE of the segment, at which the answer acquires. -/
  scope : Nat
deriving DecidableEq, Repr

/-- What a boot-flash image slot holds (R421): whether its signature verifies, and its version. -/
structure ImageSlot where
  verifies : Bool
  version : Nat
deriving DecidableEq, Repr

/-- An attestation report (R427): the nonce, the state counter, the slot and the hash of the running image, the anti-rollback value,
and the hashes of the core map and of the identity's public key. -/
structure Report where
  nonce : BitVec 256
  counter : Nat
  slot : Option Nat
  image : BitVec 256
  rollback : Nat
  coreMap : BitVec 256
  key : BitVec 256
deriving DecidableEq, Repr

/-- Identity and attestation (R426, R427). -/
structure Attest where
  counter : Nat
  fuse : Nat
  leaves : Nat
  /-- The last answer: none before any; `some none` an error; else the report signed. -/
  report : Option (Option Report)
deriving DecidableEq, Repr

/-- A message in flight (R163, R164, R301, R332, R401). Each is one event of the table when it arrives. -/
inductive Packet where
  /-- A request on its way to a core's inbound queue. -/
  | request (dst : Nat) (m : Message)
  /-- A refused request, sent again after 256 cycles (R151). -/
  | resend (dst : Nat) (m : Message) (due : Nat)
  /-- A data reply: its bytes, or the cause by which the access failed. -/
  | reply (dst : Ref) (src : Nat) (data : Except (BitVec 8) (List Byte))
  /-- The bytes of a chunk's source for the engine of a slot, or the cause by which the command fails; with the request's number. -/
  | source (dst : Ref) (src tag : Nat) (data : Except (BitVec 8) (List Byte))
  /-- An acknowledgement of a posted CORE write. -/
  | ack (dst : Ref) (src : Nat)
  | chainWord (src dst : Ref) (w : Word)
  | task (src : Ref) (m : TaskMsg)
  /-- A forward to a slot; `asked` when the core requested it (R285). -/
  | forward (dst : Ref) (m : TaskMsg) (asked : Bool)
  /-- A request for a task's next forward that its home slice has received while an earlier forward is under way (R285). -/
  | ask (dst : Ref) (id : BitVec 32)
  | bounce (m : TaskMsg)
  /-- An answer of a muster wait: guard 7 for a synchronous one. -/
  | answer (dst : Ref) (src : Nat) (guard : Nat) (ok : Bool) (scope : Nat)
  /-- Completion tree: child to parent node of a launch. -/
  | up (ctx : Nat) (launch : BitVec 32) (child parent : Nat)
  | done (ctx : Nat) (launch : BitVec 32) (child parent : Nat) (word : BitVec 32)
  /-- A thread that has asked to move to a core, and waits parked in its slot (R122). -/
  | migrant (src : Ref) (dst : Nat)
  /-- A chunk of a copy: writes of bytes, granules to set full, the muster and bytes of a bound delivery (0 bytes: the
  command has failed), and the end of the destination range for the target's check. -/
  | chunk (src : Ref) (dst : Nat) (addr : Nat) (bytes : SMap Byte) (fill : List Nat) (debt : Option (Nat × Nat)) (check : Nat)
  /-- A granule of MDRAINR, with the end of the image for the target's check. -/
  | drain (src : Ref) (dst : Nat) (addr : Nat) (bytes : List Byte) (endOff : Nat) (first last : Bool)
  /-- A stolen pair on its way to the thief. -/
  | stolen (victim : Nat) (taker : Taker) (p : Pair)
  /-- Traversal count messages between member and home clusters. -/
  | count (handle : Word) (src home : Nat) (up : Bool)
  /-- A primitive copy and a watermark flit from a die to an owner of a context's frame. -/
  | prim (ctx die owner : Nat) (rec : BitVec 1024)
  | flit (ctx die owner : Nat) (value : Word)
deriving DecidableEq, Repr

/-- What a physical core keeps from one context to the next: the slot that its last donated cycle went to, and the slots its
engines last served (R15, R100). -/
structure Rotor where
  donated : Option Nat
  matServed : Option Nat
  copyServed : Option Nat
deriving DecidableEq, Repr

/-- A turn that the schedule names: a step of the device, or the issue of the rotation's next cycle. -/
inductive Turn where
  | event (i : Instr)
  | issue
deriving DecidableEq, Repr

/-- The device. -/
structure State where
  /-- The model's own schedule: which steps come next (log 3). -/
  agenda : List Turn
  /-- The thread whose instruction executes: core key and slot. -/
  cur : Nat × Fin 16
  /-- The instruction's bits as fetched, which TRAPVAL reports (R92). -/
  iword : BitVec 32
  /-- The core whose issue cycle comes next, by position among the listed cores. -/
  focus : Nat
  /-- Free values used so far. -/
  free : Nat
  cycle : Nat
  cores : SMap Core
  clusters : SMap Cluster
  dies : SMap Die
  contexts : SMap Context
  /-- The last generation that each task entry of a destroyed context has had, by the context's number: the indices that the next
  context of that number takes last, so that a stale id fails on its generation (R256). -/
  oldGens : SMap (SMap (BitVec 12))
  /-- Of the physical cores, by 16 times the cluster's number (die * 1024 + py * 32 + px) plus k, that no context holds. -/
  rotors : SMap Rotor
  /-- Main memory bytes that are not zero, by PA, in rising order. -/
  mem : List Host.Cell
  /-- Full words of device memory (R321), by PA / 8. -/
  futures : List Nat
  /-- Poisoned lines (R417), by PA / 64. -/
  poisoned : List Nat
  /-- Capacity in bytes of the eight modules of each memory group; 0 where there is none (R10). -/
  modules : Vector (Vector Nat 8) 4
  /-- Absent clusters of each Z-die (R24), as py * 32 + px. -/
  absent : SMap (List Nat)
  power : Bool
  images : Vector ImageSlot 2
  runningImage : Option Nat
  rollback : Nat
  status : DevStatus
  hostq : SMap HostQueue
  peers : SMap PeerLink
  /-- The route table of the port dies, which Hjelec sets at bring-up: by device, the peer link over which packets to it leave (R326). -/
  routes : SMap Nat
  /-- The die links that do not train at bring-up (R420). -/
  dieLinks : List Nat
  waits : SMap (List FutureWait)
  waitovf : SMap (BitVec 32)
  corrected : SMap Word
  telemetry : SMap Word
  attest : Attest
  net : List Packet
  /-- The number of this device in the pod (R326). -/
  deviceNumber : Nat
  /-- The last value a host read returned (R23, R325). -/
  hostRead : Word
deriving DecidableEq, Repr

/-! ## How a step can stop -/

/-- Faults of the model: none, since every step has the effect that the spec gives it. -/
inductive Fault where
deriving DecidableEq, Repr

/-- Refusals of the model. -/
inductive Refusal where
  /-- Raised by an arm of exec whose instruction has no meaning yet. Safe: nothing follows from it. -/
  | notModelled (mnemonic : String)
deriving DecidableEq, Repr

/-! ## Reset (R420 and the reset columns of the tables) -/

def Acc.zero : Acc := { tile := Vector.replicate 64 0, tag := 0 }

def Latch.zero : Latch :=
  { rows := Vector.replicate 8 0, table := 0, scales := Vector.replicate 8 0, fmt := 0, valid := false, poison := false }

/-- The guards of R94 and R107: `g0` to `g6` RESOLVED with mask 0, `g7` with all ones. -/
def Guard.initial : Vector Guard 8 := (Vector.replicate 8 ⟨false, 0⟩).set 7 ⟨false, 0xFF⟩

def Csrs.initial : Csrs :=
  { spec := false, sys := false, chain := false, tm := false, rnd := 0, fflags := 0, ftrapen := 0, seed := 0, draw := 0
    stamp := 0, specd := 0xFF, task := 0, timer := 0, copyst := 0, matst := 0, amsrc := 0, trappc := 0, trapcause := 0
    trapval := 0, tvec := 0, tscratch := 0, deadline := 0, trailAtoms := false, apxctl := 0 }

/-- A slot right after reset; the message slot (15) is IDLE where a user slot is EMPTY. -/
def Thread.initial (phase : Phase) : Thread :=
  { phase := phase, parkedFrom := .run, haltedFrom := none, wait := .none, parkLen := 4, retiring := false, pc := 0, x := Vector.replicate 32 0
    v := Vector.replicate 32 0, acc := Vector.replicate 4 Acc.zero, latchA := Latch.zero, latchB := Latch.zero
    g := Guard.initial, tb := Vector.replicate 4 0, seg := Vector.replicate 8 0, csr := Csrs.initial, savedChain := false
    yielded := false, lastIssue := none, doubling := false, soon := false, event := false, matq := [], copyq := [], copyScope := 0, drainScope := 0, msgLost := false
    timerTrap := false, lost := 0, lostTask := 0, mailbox := [], bounces := [], refusal := [], overflowed := false
    number := 0, inbox := [], passing := none, chainIn := [], popped := none, fetched := none, up := none, down := none, parties := [], unacked := 0, asyncWaits := 0
    launch := 0, rank := 0, ltag := 0, taskBase := 0, taskRun := 0, held := none, rev := none, depth := 0, children := []
    joinMerged := 0, joinDropped := 0, window := none, geo := none, quad := none, recorded := 0, handler := 0, issues := 0, current := none }

def Core.initial : Core :=
  { slots := (Vector.replicate 16 (Thread.initial .empty)).set 15 (Thread.initial .idle), pool := [], full := [], poison := []
    part := 0, kimg := 0, live := Vector.replicate 4 0, status := Vector.replicate 4 0, tags := Vector.replicate 4 none
    binds := [], inq := [], arrived := 0, deferred := [], handles := [], ready := Vector.replicate 4 [], sleepers := [], handlerBounces := 0
    donated := none, matServed := none, copyServed := none, sourceAsks := 0, lastCb4 := none, cb4Leave := false, gated := false, quarters := []
    imageDue := false, placed := false, halting := false }

def Cluster.initial : Cluster :=
  { cache := [], tlb := [], parties := [], pairs := [], traversals := [], members := [], gens := [], takers := [], revs := []
    revGens := [], forkers := [], leaveAsked := [], leaveHeld := [] }

/-- A Z-die at reset, with the buffer capacity of R18 (log 8). -/
def Die.initial : Die :=
  { level := 0, tlb := [], faults := [], pendingSet := [], dropped := [], capacity := 1024, newCapacity := none, grants := 0 }

def HostQueue.initial : HostQueue :=
  { base := 0, log2n := 0, ctxnum := 0, enable := false, overrun := false, badrec := false, head := 0, tail := 0 }

def PeerLink.initial : PeerLink := { state := 0, lanes := 0, replays := 0, returns := 0, attempts := 0, recent := [] }

/-- The device released from reset, before bring-up: READY is 0 (R325, R420), and the first steps are those of RESET. -/
def State.reset : State :=
  { agenda := [], cur := (0, 0), iword := 0, focus := 0, free := 0, cycle := 0, cores := [], clusters := [], dies := []
    contexts := [], oldGens := [], rotors := [], mem := [], futures := [], poisoned := [], modules := Vector.replicate 4 (Vector.replicate 8 (2 ^ 37)), absent := []
    power := true, images := Vector.replicate 2 ⟨true, 1⟩, runningImage := none, rollback := 1
    status := ⟨false, false, false, false, false, false, 0, 0, false⟩, hostq := [], peers := [], routes := [], dieLinks := [], waits := []
    waitovf := [], corrected := [], telemetry := [], attest := ⟨0, 0, 2 ^ 20, none⟩, net := [], deviceNumber := 0, hostRead := 0 }

end Sys2Proof.Machine
end

