-- ==== Sys2Proof/Machine/Base.lean ====
section
/-!
DEFINITION. Named operations over the parts of the state: sparse tables, bytes, cores and slots, main memory and
scratchpads, registers and guards. Everything else reads and writes the state through these.
-/

namespace Sys2Proof.Machine

/-! ## Sparse tables -/

/-- The entry of a key, if it is listed. -/
def mapGet? {α : Type} : SMap α → Nat → Option α
  | [], _ => none
  | (k, a) :: r, q => if k = q then some a else mapGet? r q

/-- The entry of a key, or a default. -/
def mapGet {α : Type} (m : SMap α) (q : Nat) (d : α) : α :=
  match mapGet? m q with
  | some a => a
  | none => d

/-- Set a key's entry, keeping the keys in rising order. -/
def mapSet {α : Type} : SMap α → Nat → α → SMap α
  | [], q, a => [(q, a)]
  | (k, b) :: r, q, a =>
    if q < k then (q, a) :: (k, b) :: r
    else if k = q then (q, a) :: r
    else (k, b) :: mapSet r q a

/-- Remove a key's entry. -/
def mapErase {α : Type} (m : SMap α) (q : Nat) : SMap α := m.filter fun p => p.1 != q

/-- A set of numbers in rising order: add and remove. -/
def setAdd : List Nat → Nat → List Nat
  | [], q => [q]
  | k :: r, q => if q < k then q :: k :: r else if k = q then k :: r else k :: setAdd r q

def setDel (l : List Nat) (q : Nat) : List Nat := l.filter (fun k => k != q)

/-- Add or remove under a condition. -/
def setPut (l : List Nat) (q : Nat) (on : Bool) : List Nat := if on then setAdd l q else setDel l q

/-! ## Bytes (R2) -/

/-- What a byte that nothing has written reads as: zero, which step 3 of bring-up writes (R420); host memory alike (log 5). -/
def blankByte : Byte := 0

/-- One byte of a memory held as the bytes that are not blank. -/
def cellGet (m : List Host.Cell) (a : Nat) : Byte := mapGet m a blankByte

/-- Write one byte, keeping the canonical form: keys rising, and no blank byte listed. -/
def cellSet (m : List Host.Cell) (a : Nat) (b : Byte) : List Host.Cell :=
  if b = blankByte then mapErase m a else mapSet m a b

/-- The canonical form of a memory: strictly rising addresses and no blank byte. -/
def Memory.wf : List Host.Cell → Bool
  | [] => true
  | [(_, b)] => b != blankByte
  | (a, b) :: (a', b') :: r => b != blankByte && decide (a < a') && Memory.wf ((a', b') :: r)

/-- `n` bytes from an address upwards. -/
def cellsGet (m : List Host.Cell) (a : Nat) : Nat → List Byte
  | 0 => []
  | n + 1 => cellGet m a :: cellsGet m (a + 1) n

/-- Write bytes from an address upwards. -/
def cellsSet (m : List Host.Cell) (a : Nat) : List Byte → List Host.Cell
  | [] => m
  | b :: bs => cellsSet (cellSet m a b) (a + 1) bs

/-- Bytes as a bit vector of `w` bits, the first byte lowest. -/
def bytesVal (w : Nat) (bs : List Byte) : BitVec w := BitVec.ofNat w (leNat bs)

/-- A bit vector's low `n` bytes, lowest first. -/
def valBytes {w : Nat} (n : Nat) (v : BitVec w) : List Byte := leBytes n v.toNat

/-- The low `n` bits extended by sign to 64 (R129). -/
def sextW (v : Word) (n : Nat) : Word := (v.setWidth n).signExtend 64

/-- The low `n` bits extended by zeros to 64 (R129). -/
def zextW (v : Word) (n : Nat) : Word := (v.setWidth n).setWidth 64

/-- A field of a wider word as a number: bits from `lo`, `n` of them. -/
def fieldOf {w : Nat} (v : BitVec w) (lo n : Nat) : Nat := v.toNat / 2 ^ lo % 2 ^ n

/-- Put a number into a field of a word. -/
def setField (v : Word) (lo n : Nat) (x : Nat) : Word :=
  v - BitVec.ofNat 64 (fieldOf v lo n * 2 ^ lo) + BitVec.ofNat 64 (x % 2 ^ n * 2 ^ lo)

/-- Clear bit 0 (R75). -/
def evenPc (pc : Word) : Word := pc &&& ~~~1#64

def wordOf (n : Nat) : Word := BitVec.ofNat 64 n

/-! ## Places -/

/-- A core's key from its context and packed coordinate (R63). -/
def coreKey (ctx packed : Nat) : Nat := ctx * 2 ^ 20 + packed
def ctxOf (core : Nat) : Nat := core / 2 ^ 20
def packedOf (core : Nat) : Nat := core % 2 ^ 20
/-- The core's number k in its cluster, and the cluster's key. -/
def coreIndex (core : Nat) : Nat := core % 16
def clusterOf (core : Nat) : Nat := core / 16
/-- The first core of a cluster. -/
def firstCore (cluster : Nat) : Nat := cluster * 16
/-- The cluster's coordinates in the grid. -/
def cxOf (core : Nat) : Nat := packedOf core / 4096
def cyOf (core : Nat) : Nat := packedOf core / 16 % 256

/-! ## Cores, slots and threads -/

def getCore (s : State) (k : Nat) : Core := mapGet s.cores k Core.initial
def setCore (s : State) (k : Nat) (c : Core) : State := { s with cores := mapSet s.cores k c }
def modCore (s : State) (k : Nat) (f : Core → Core) : State := setCore s k (f (getCore s k))

def getCluster (s : State) (k : Nat) : Cluster := mapGet s.clusters k Cluster.initial
def setCluster (s : State) (k : Nat) (c : Cluster) : State := { s with clusters := mapSet s.clusters k c }
def modCluster (s : State) (k : Nat) (f : Cluster → Cluster) : State := setCluster s k (f (getCluster s k))

def getDie (s : State) (d : Nat) : Die := mapGet s.dies d Die.initial
def modDie (s : State) (d : Nat) (f : Die → Die) : State := { s with dies := mapSet s.dies d (f (getDie s d)) }

def getCtx? (s : State) (c : Nat) : Option Context := mapGet? s.contexts c
def setCtx (s : State) (n : Nat) (c : Context) : State := { s with contexts := mapSet s.contexts n c }
def modCtx (s : State) (n : Nat) (f : Context → Context) : State :=
  match getCtx? s n with
  | some c => setCtx s n (f c)
  | none => s

/-- A slot of a core. -/
def coreSlot (c : Core) (i : Fin 16) : Thread := c.slots.get i
def coreSetSlot (c : Core) (i : Fin 16) (t : Thread) : Core := { c with slots := c.slots.set i t }

/-- A slot number of an event's operands. -/
def slotOf (n : Nat) : Fin 16 := Fin.ofNat 16 n

def getThread (s : State) (k : Nat) (i : Fin 16) : Thread := coreSlot (getCore s k) i
def setThread (s : State) (k : Nat) (i : Fin 16) (t : Thread) : State := setCore s k (coreSetSlot (getCore s k) i t)
def modThread (s : State) (k : Nat) (i : Fin 16) (f : Thread → Thread) : State := setThread s k i (f (getThread s k i))
def refThread (s : State) (r : Ref) : Thread := getThread s r.core (slotOf r.slot)
def modRef (s : State) (r : Ref) (f : Thread → Thread) : State := modThread s r.core (slotOf r.slot) f

/-- The thread whose instruction executes, and the same slot with a new content. -/
def curThread (s : State) : Thread := getThread s s.cur.1 s.cur.2
def putThread (s : State) (t : Thread) : State := setThread s s.cur.1 s.cur.2 t
def modCur (s : State) (f : Thread → Thread) : State := putThread s (f (curThread s))
def curCore (s : State) : Core := getCore s s.cur.1
def curRef (s : State) : Ref := ⟨s.cur.1, s.cur.2.val⟩
def curCtx (s : State) : Nat := ctxOf s.cur.1
/-- Whether the message slot executes (R95). -/
def inMsgSlot (s : State) : Bool := s.cur.2.val == 15

/-! ## Registers (R94) and guards (R107) -/

def getX (t : Thread) (i : BitVec 5) : Word := t.x.get ⟨i.toNat, i.isLt⟩
def setX (t : Thread) (i : BitVec 5) (v : Word) : Thread := { t with x := t.x.set i.toNat v i.isLt }
def getV (t : Thread) (i : BitVec 5) : VReg := t.v.get ⟨i.toNat, i.isLt⟩
def setV (t : Thread) (i : BitVec 5) (v : VReg) : Thread := { t with v := t.v.set i.toNat v i.isLt }
def getTb (t : Thread) (i : BitVec 2) : Word := t.tb.get ⟨i.toNat, i.isLt⟩
def setTb (t : Thread) (i : BitVec 2) (v : Word) : Thread := { t with tb := t.tb.set i.toNat v i.isLt }
def getSeg (t : Thread) (i : BitVec 3) : SegWord := t.seg.get ⟨i.toNat, i.isLt⟩
def setSeg (t : Thread) (i : BitVec 3) (v : SegWord) : Thread := { t with seg := t.seg.set i.toNat v i.isLt }

/-- Read a guard; `g7` is RESOLVED with mask 0xFF (R107). -/
def getG (t : Thread) (i : BitVec 3) : Guard := if i = 7 then ⟨false, 0xFF⟩ else t.g.get ⟨i.toNat, i.isLt⟩
/-- Write a guard; a write to `g7` is discarded (R107). -/
def putG (t : Thread) (i : BitVec 3) (g : Guard) : Thread :=
  if i = 7 then t else { t with g := t.g.set i.toNat g i.isLt }
def setG (t : Thread) (i : BitVec 3) (mask : BitVec 8) : Thread := putG t i ⟨false, mask⟩
def pendG (t : Thread) (i : BitVec 3) : Thread := putG t i ⟨true, (getG t i).mask⟩

/-- A register by a number that an event holds. -/
def regNo (n : Nat) : BitVec 5 := BitVec.ofNat 5 n
def guardNo (n : Nat) : BitVec 3 := BitVec.ofNat 3 n

/-- A command's gate once a guard has been resolved (R109): it waits no longer. -/
def settleGate (g : Gate) (i : Nat) (ok : Bool) : Gate :=
  match g with
  | .await j gs => if j = i then (if ok != gs then .go else .drop) else g
  | _ => g

/-- A producer resolves a guard: true is 0xFF, false is 0x00 (R192); commands queued behind it have their gate, and the
slot's event flag is set (R121). -/
def resolveG (t : Thread) (i : BitVec 3) (ok : Bool) : Thread :=
  { setG t i (if ok then 0xFF else 0) with
    event := true
    matq := t.matq.map fun q => { q with gate := settleGate q.gate i.toNat ok }
    copyq := t.copyq.map fun q => { q with gate := settleGate q.gate i.toNat ok } }

/-- Whether every guard is RESOLVED (R122, R306). -/
def guardsResolved (t : Thread) : Bool := (List.range 8).all fun i => !(getG t (guardNo i)).pending

/-! ## The partition word (R105, R106) -/

def partSlots (p : BitVec 32) : Nat := fieldOf p 0 4 + 1
def partX (p : BitVec 32) : Nat := 8 * (fieldOf p 4 2 + 1)
def partV (p : BitVec 32) : Nat := match fieldOf p 6 2 with
  | 0 => 0
  | 1 => 8
  | 2 => 16
  | _ => 32
def partAcc (p : BitVec 32) : Nat := fieldOf p 8 3
def partRev (p : BitVec 32) : Nat := fieldOf p 11 5

/-- T, the bytes of one slot's state (R106). -/
def slotBytes (p : BitVec 32) : Nat :=
  8 * partX p + 32 * partV p + 256 * partAcc p + (if partAcc p > 0 then 576 else 0)

/-- SP, the size of the scratchpad (R106). -/
def scratchSize (p : BitVec 32) : Nat := 61440 - partSlots p * slotBytes p - 2048 * partRev p

def curSP (s : State) : Nat := scratchSize (curCore s).part

/-- The registers a slot declares: the partition's, and the fixed ones of the message slot (R95). -/
def declX (s : State) : Nat := if inMsgSlot s then 16 else partX (curCore s).part
def declV (s : State) : Nat := if inMsgSlot s then 4 else partV (curCore s).part
def declAcc (s : State) : Nat := if inMsgSlot s then 0 else partAcc (curCore s).part

/-! ## Context record fields (R249) -/

def recField (r : BitVec 1024) (lo n : Nat) : Nat := r.toNat / 2 ^ lo % 2 ^ n
def ctxRoot (c : Context) : Nat := recField c.record 0 64
def ctxSegtab (c : Context) : Nat := recField c.record 64 64
def ctxSegcnt (c : Context) : Nat := recField c.record 128 16
def ctxNum (c : Context) : Nat := recField c.record 144 16
def ctxPrio (c : Context) : Nat := recField c.record 160 8
def ctxPager (c : Context) : Bool := recField c.record 176 1 = 1
def ctxScopetab (c : Context) : Nat := recField c.record 192 64
def ctxCbtab (c : Context) : Nat := recField c.record 256 64
def ctxTvec (c : Context) : Word := wordOf (recField c.record 320 64)
def ctxDeadline (c : Context) : Nat := recField c.record 384 64
def ctxTrailbase (c : Context) : Nat := recField c.record 448 64
def ctxTrailpages (c : Context) : Nat := recField c.record 512 32
def ctxRevpool (c : Context) : Nat := recField c.record 576 64
def ctxRevsize (c : Context) : Nat := recField c.record 640 64
def ctxGridW (c : Context) : Nat := recField c.record 704 16
def ctxGridH (c : Context) : Nat := recField c.record 720 16
def ctxMboxcap (c : Context) : Nat := recField c.record 736 16
def ctxCmap (c : Context) : Nat := recField c.record 768 64
def ctxSavebase (c : Context) : Nat := recField c.record 832 64

/-- Whether a packed coordinate lies in the partition's grid (R250). -/
def inGrid (c : Context) (packed : Nat) : Bool := packed / 4096 < ctxGridW c && packed / 16 % 256 < ctxGridH c

/-- The virtual index of a cluster, and the Z-die of the physical cluster behind it (R250). -/
def virtIndex (c : Context) (core : Nat) : Nat := cyOf core * ctxGridW c + cxOf core
def mapEntry (c : Context) (core : Nat) : BitVec 16 := mapGet c.map (virtIndex c core) 0
def dieOf (s : State) (core : Nat) : Nat :=
  match getCtx? s (ctxOf core) with
  | some c => fieldOf (mapEntry c core) 13 3
  | none => 0

/-- The physical cluster behind a core, die * 1024 + py * 32 + px, and the physical core (R250). -/
def entryPhys (e : BitVec 16) : Nat := fieldOf e 13 3 * 1024 + fieldOf e 3 10
def physCore (s : State) (core : Nat) : Nat :=
  match getCtx? s (ctxOf core) with
  | some c => entryPhys (mapEntry c core) * 16 + coreIndex core
  | none => 0

/-- The cluster of a virtual index. -/
def gridCluster (ctx : Nat) (c : Context) (i : Nat) : Nat :=
  clusterOf (coreKey ctx (i % ctxGridW c * 4096 + i / ctxGridW c * 16))

/-- Whether a context is SAVED. -/
def ctxSaved (s : State) (ctx : Nat) : Bool :=
  match getCtx? s ctx with
  | some c => c.phase == .saved
  | none => false

/-- Whether a core's cluster is placed. -/
def corePlaced (s : State) (core : Nat) : Bool :=
  match getCtx? s (ctxOf core) with
  | some c => inGrid c (packedOf core) && fieldOf (mapEntry c core) 0 1 == 1
  | none => false

/-- The clusters' cores leave their physical ones, which keep where their searches stood (R15, R100). -/
def leaveCores (s : State) (ks : List Nat) : State :=
  { s with rotors := ks.foldl (fun m k =>
      let c := getCore s k
      let r : Rotor := ⟨c.donated, c.matServed, c.copyServed⟩
      if r = ⟨none, none, none⟩ then mapErase m (physCore s k) else mapSet m (physCore s k) r) s.rotors }

/-- A cluster placed anew takes up the searches where its physical cores left them (R15, R100). -/
def takeRotors (s : State) (cluster : Nat) : State :=
  (List.range 16).foldl (fun s i =>
    let k := firstCore cluster + i
    match mapGet? s.rotors (physCore s k) with
    | some r => { modCore s k fun c => { c with donated := r.donated, matServed := r.matServed, copyServed := r.copyServed } with
        rotors := mapErase s.rotors (physCore s k) }
    | none => s) s

/-! ## Main memory (R9, R10) -/

def memByte (s : State) (pa : Nat) : Byte := cellGet s.mem pa
def memBytes (s : State) (pa n : Nat) : List Byte := cellsGet s.mem pa n
def memNat (s : State) (pa n : Nat) : Nat := leNat (memBytes s pa n)
def memWrite (s : State) (pa : Nat) (bs : List Byte) : State := { s with mem := cellsSet s.mem pa bs }

/-- The bytes of a memory group, whose eight modules have one capacity (R10). -/
def groupSize (s : State) (g : Nat) : Nat := 8 * (s.modules.get (Fin.ofNat 4 g)).get 0

/-- Device memory that is populated (R10), and host memory (R9). -/
def isDevice (s : State) (pa : Nat) : Bool := pa < 2 ^ 42 && decide (pa % 2 ^ 40 < groupSize s (pa / 2 ^ 40))
def isHost (pa : Nat) : Bool := 2 ^ 48 ≤ pa && pa < 2 ^ 51
def isBacked (s : State) (pa : Nat) : Bool := isDevice s pa || isHost pa

/-- The byte address, at the module of its link, of a device-memory address (R9). -/
def moduleByte (pa : Nat) : Nat := pa % 2 ^ 40 / 512 * 64 + pa % 64

/-- The home slice of a device-memory address, which is the number of its memory link (R9). -/
def homeSlice (pa : Nat) : Nat := 8 * (pa / 2 ^ 40 % 4) + ((pa / 64 % 8) ^^^ (pa / 512 % 8))

/-! ## Scratchpads and their tags (R149, R150) -/

def poolBytes (c : Core) (off n : Nat) : List Byte := cellsGet c.pool off n
def poolWrite (c : Core) (off : Nat) (bs : List Byte) : Core := { c with pool := cellsSet c.pool off bs }
def isFull (c : Core) (g : Nat) : Bool := c.full.contains g
def setFull (c : Core) (g : Nat) (on : Bool) : Core := { c with full := setPut c.full g on }
/-- The granules that `n` bytes from `off` touch. -/
def granulesOf (off n : Nat) : List Nat := (List.range ((off + n - 1) / 16 + 1 - off / 16)).map (· + off / 16)

/-- A write by an agent other than the slot's own thread sets the event flags of the core's other slots (R121). -/
def signalSlots (c : Core) (but : Nat) : Core :=
  { c with slots := (Vector.ofFn fun i : Fin 16 =>
      let t := c.slots.get i
      if i.val = but || i.val = 15 then t else { t with event := true }) }

/-- A write that covers a poisoned granule whole clears its poison (R417). -/
def clearPoison (c : Core) (off n : Nat) : Core :=
  { c with poison := c.poison.filter fun g => !(off ≤ 16 * g && 16 * g + 16 ≤ off + n) }

/-- Whether some byte of a range is poisoned. -/
def poolPoisoned (c : Core) (off n : Nat) : Bool := c.poison.any fun g => decide (16 * g < off + n) && decide (off < 16 * g + 16)

/-! ## Messages -/

/-- Send: messages between one pair of places arrive in the order sent (R164). -/
def send (s : State) (p : Packet) : State := { s with net := s.net ++ [p] }

/-- The next free value: what a value that the spec leaves open takes (log 4). -/
def takeFree (s : State) : State × Word := ({ s with free := s.free + 1 }, Config.freeWord s.free)

/-- What `CYCLE` reads: one count for every core, so that no two counters ever differ (R20 allows 8 cycles; log 111). -/
def nowWord (s : State) : Word := wordOf s.cycle

end Sys2Proof.Machine
end

