-- ==== Sys2Proof/Machine/Access.lean ====
section
/-!
DEFINITION. The path of an access: the segment check (R148), the walk and the TLBs (R260 to R266), page faults and their
records (R269), duplication (R274), and reads and writes of main memory through the cluster cache (R231).
-/

namespace Sys2Proof.Machine

/-! ## Cause codes (R416) -/

def causeIllegalOpcode : BitVec 8 := 0x00
def causeIllegalFunction : BitVec 8 := 0x01
def causeIllegalField : BitVec 8 := 0x02
def causeBadRnd : BitVec 8 := 0x03
def causeExtAbsent : BitVec 8 := 0x04
def causePrivileged : BitVec 8 := 0x05
def causeUndeclaredReg : BitVec 8 := 0x06
def causeBadCsr : BitVec 8 := 0x07
def causeSegDenied : BitVec 8 := 0x08
def causeBadCore : BitVec 8 := 0x09
def causeBreakpoint : BitVec 8 := 0x0A
def causeNotInTrap : BitVec 8 := 0x0B
def causePwrOperand : BitVec 8 := 0x0C
def causeSegLimit (sg : Nat) : BitVec 8 := BitVec.ofNat 8 (0x10 + sg)
def causeSegRights (sg : Nat) : BitVec 8 := BitVec.ofNat 8 (0x18 + sg)
def causeMisaligned : BitVec 8 := 0x20
def causeFmtStore : BitVec 8 := 0x21
def causeNotFormatted : BitVec 8 := 0x22
def causePaUnbacked : BitVec 8 := 0x23
def causeAtomOperand : BitVec 8 := 0x24
def causePageRights : BitVec 8 := 0x25
def causePtBad : BitVec 8 := 0x26
def causePgOperand : BitVec 8 := 0x27
def causePinOverflow : BitVec 8 := 0x28
def causePfUnmapped : BitVec 8 := 0x29
def causePfAway : BitVec 8 := 0x2A
def causeSyncForm : BitVec 8 := 0x30
def causeBadScope : BitVec 8 := 0x31
def causeMusterOperand : BitVec 8 := 0x32
def causeMusterBusy : BitVec 8 := 0x33
def causeMusterFault : BitVec 8 := 0x34
def causeMatOperand : BitVec 8 := 0x40
def causeMatFormat : BitVec 8 := 0x41
def causeCodebookRange : BitVec 8 := 0x42
def causeMatState : BitVec 8 := 0x43
def causeMatRemote : BitVec 8 := 0x44
def causeCopyOperand : BitVec 8 := 0x45
def causeCopyFormat : BitVec 8 := 0x46
def causeCopyRemote : BitVec 8 := 0x47
def causeHandleStale : BitVec 8 := 0x48
def causeHandleOwner : BitVec 8 := 0x49
def causeHandleFull : BitVec 8 := 0x4A
def causeFpNv : BitVec 8 := 0x50
def causeFpDz : BitVec 8 := 0x51
def causeFpOf : BitVec 8 := 0x52
def causeFpUf : BitVec 8 := 0x53
def causeFpNx : BitVec 8 := 0x54
def causePairOperand : BitVec 8 := 0x60
def causePairStale : BitVec 8 := 0x61
def causeNodeBad : BitVec 8 := 0x62
def causeHamperBusy : BitVec 8 := 0x63
def causeRevAtomic : BitVec 8 := 0x64
def causeRevPool : BitVec 8 := 0x65
def causeRevOperand : BitVec 8 := 0x66
def causeRevStale : BitVec 8 := 0x67
def causeBadParty : BitVec 8 := 0x6E
def causePartyFull : BitVec 8 := 0x6F
def causeSeqOperand : BitVec 8 := 0x70
def causeSeqState : BitVec 8 := 0x71
def causeSeqPos : BitVec 8 := 0x72
def causeSpecAtomic : BitVec 8 := 0x73
def causeHandlerLong : BitVec 8 := 0x80
def causeSlotForbidden : BitVec 8 := 0x81
def causeRemoteFault : BitVec 8 := 0x82
def causeChainNone : BitVec 8 := 0x83
def causeMsgLost : BitVec 8 := 0x84
def causeBadTask : BitVec 8 := 0x85
def causeRqFull : BitVec 8 := 0x86
def causeSleepFull : BitVec 8 := 0x87
def causeTimer : BitVec 8 := 0x88
def causeLinkOperand : BitVec 8 := 0x89
def causeRasterSeq : BitVec 8 := 0x90
def causeRasterState : BitVec 8 := 0x91
def causeRasterOperand : BitVec 8 := 0x92
def causeSyscall (n : Nat) : BitVec 8 := BitVec.ofNat 8 (0xA0 + n)
def causeDeadlineOverrun : BitVec 8 := 0xB0
def causeDoubleFault : BitVec 8 := 0xB1
def causeLinkFatal : BitVec 8 := 0xB2
def causeTrailExhausted : BitVec 8 := 0xB3
def causeReplayDiverged : BitVec 8 := 0xB4
def causePoisoned : BitVec 8 := 0xB5

/-! ## Why an access goes no further -/

/-- A trap, a page fault, or a park with the reason to wait. -/
inductive Stop where
  | trap (cause : BitVec 8) (val : Word)
  /-- A page fault at `va`: KIND, cause and FOUND of R270. -/
  | fault (va kind : Nat) (cause found : BitVec 8)
  | park (w : Wait)
deriving DecidableEq, Repr

/-! ## Segments (R147, R148) -/

def segBase (d : SegWord) : Nat := fieldOf d 0 56
def segLimit (d : SegWord) : Nat := fieldOf d 56 32
def segKind (d : SegWord) : Nat := fieldOf d 88 2
/-- Rights as a number: R 1, W 2, A 4, S 8. -/
def segRights (d : SegWord) : Nat := fieldOf d 90 4
def segScope (d : SegWord) : Nat := fieldOf d 94 5
def segTarget (d : SegWord) : Nat := fieldOf d 104 20

def needR : Nat := 1
def needW : Nat := 2
def needA : Nat := 4
def needS : Nat := 8

def kindLocal : Nat := 0
def kindCore : Nat := 1
def kindGlobal : Nat := 2

/-- Whether every right of `need` is among `have_`. -/
def hasRights (have_ need : Nat) : Bool := have_ &&& need == need

/-- Where an access goes once it has passed the check: KIND, TARGET, address and SCOPE, with the segment number and
the offset that a later trap reports. -/
structure Place where
  kind : Nat
  target : Nat
  addr : Nat
  scope : Nat
  sg : Nat
  off : Word
deriving DecidableEq, Repr

/-- SegCheck of R148. `scalar` is an access of the scalar families; `align` is left out for copies (R205). -/
def segCheckWith (sp : Nat) (d : SegWord) (sg : Nat) (off : Word) (z need : Nat) (scalar align : Bool) : Except Stop Place :=
  let o := off.toNat
  let addr := segBase d + o
  if hasRights need needS && segKind d == kindGlobal && !(scalar && z == 8) then .error (.trap causeSyncForm off)
  else if !hasRights (segRights d) need then .error (.trap (causeSegRights sg) off)
  else if o + z > segLimit d then .error (.trap (causeSegLimit sg) off)
  else if segKind d == kindLocal && decide (addr + z > sp) then .error (.trap (causeSegLimit sg) off)
  else if segKind d == kindGlobal && decide (addr + z > 2 ^ 56) then .error (.trap (causeSegLimit sg) off)
  else if align && addr % z != 0 then .error (.trap causeMisaligned off)
  else .ok ⟨segKind d, segTarget d, addr, segScope d, sg, off⟩

/-- SegCheck for the current thread. -/
def segCheck (s : State) (sg : BitVec 3) (base disp : Word) (z need : Nat) (scalar : Bool) : Except Stop Place :=
  segCheckWith (curSP s) (getSeg (curThread s) sg) sg.toNat (base + disp) z need scalar true

/-! ## Scopes (R225, R251) -/

/-- Whether scope id `n` names a defined entry: the fixed scopes 0 to 4, or a filled entry of the scope table. -/
def scopeDefined (s : State) (ctx n : Nat) : Bool :=
  n < 5 || match getCtx? s ctx with
    | some c => (mapGet? c.scopes n).isSome
    | none => false

/-- The clusters of the grid that a set scope names, as numbers cy * 256 + cx. -/
def scopeSet (s : State) (ctx n : Nat) : List Nat :=
  match getCtx? s ctx with
  | some c =>
    let bits := mapGet c.scopes n []
    (List.range (ctxGridW c * ctxGridH c)).filterMap fun i =>
      let num := i / ctxGridW c * 256 + i % ctxGridW c
      if bits.contains num then some num else none
  | none => []

/-- The number cy * 256 + cx of a core's cluster. -/
def clusterNumber (core : Nat) : Nat := cyOf core * 256 + cxOf core

/-- Whether a scope of the given core reaches beyond its cluster: DIE or wider, or a set other than one that names
that cluster alone (R226). -/
def scopeWide (s : State) (core n : Nat) : Bool :=
  if n < 2 then false else if n < 5 then true
  else scopeSet s (ctxOf core) n != [clusterNumber core]

/-- Whether an acquire at the scope drops the clean lines of the core's cluster cache (R231). -/
def scopeInvalidates (s : State) (core n : Nat) : Bool :=
  if n < 2 then false else if n < 5 then true
  else (scopeSet s (ctxOf core) n).any (· != clusterNumber core)

/-! ## Page table entries (R260, R261) -/

def pteState (e : Word) : Nat := fieldOf e 13 3
def pteCommit (e : Word) : Bool := fieldOf e 12 1 = 1
def pteFrame (e : Word) : Nat := fieldOf e 16 36 * 65536
def ptePins (e : Word) : Nat := fieldOf e 56 8
def pteLeaf (e : Word) : Bool := fieldOf e 1 1 = 1
def pteFmt (f : Word) : Nat := fieldOf f 60 4
def pteScale (f : Word) : Nat := fieldOf f 0 40 * 4096
def pteCb (f : Word) : Nat := fieldOf f 50 8

def stUnmapped : Nat := 0
def stResident : Nat := 1
def stDuplicated : Nat := 2
def stPinned : Nat := 3
def stEvicting : Nat := 4
def stBasket : Nat := 5
def stHost : Nat := 6

def setPteState (e : Word) (st : Nat) (commit : Bool) : Word := setField (setField e 13 3 st) 12 1 (if commit then 1 else 0)

/-- The rules of R260 to R262 that a leaf must keep (R263 step 1). FRAME carries no meaning in BASKET and HOST. -/
def leafOk (e f : Word) (large : Bool) : Bool :=
  let fmt := pteFmt f
  let away := pteState e == stBasket || pteState e == stHost
  let scaleAlign := (if fmt == 7 then 8192 else 4096) * (if large then 4096 else 1)
  fieldOf e 52 4 == 0 && fieldOf e 8 4 == 0 && fieldOf e 5 1 == 0 && fieldOf e 0 1 == 0 && pteState e != 7
    && fieldOf f 58 2 == 0 && fieldOf f 40 10 == 0 && decide (fmt < 8)
    && (away || !large || pteFrame e % 2 ^ 28 == 0)
    && (fmt == 7 || pteCb f == 0)
    && (if fmt ≥ 4 then pteScale f % scaleAlign == 0 else pteScale f == 0)
    && !(fieldOf e 4 1 == 1 && fmt != 0)

/-- The rules that a non-leaf entry must keep: only FRAME and STATE 0 or 1, and a zero format half (R261, R262). -/
def nonLeafOk (e f : Word) : Bool :=
  decide (pteState e < 2) && f == 0 && fieldOf e 52 12 == 0 && fieldOf e 0 13 == 0

/-- Whether a byte of a range of main memory is poisoned (R417). -/
def memPoisoned (s : State) (pa n : Nat) : Bool := s.poisoned.any fun l => decide (64 * l < pa + n) && decide (pa < 64 * l + 64)

/-- The walk of R262 over the levels that remain, each given by the index's place and width in the VA. -/
def walkFrom (s : State) (va table : Nat) : List (Nat × Nat × Nat) → Except (BitVec 8 × BitVec 8) Leaf
  | [] => .error (causePtBad, 0)
  | (lvl, lo, n) :: more =>
    let pa := table + 16 * (va / 2 ^ lo % 2 ^ n)
    if !(isBacked s pa) then .error (causePtBad, 0)
    else if memPoisoned s pa 16 then .error (causePoisoned, 0)
    else
      let e : Word := wordOf (memNat s pa 8)
      let f : Word := wordOf (memNat s (pa + 8) 8)
      if pteLeaf e then
        if lvl < 3 || !leafOk e f (lvl == 3) then .error (causePtBad, 0)
        else
          let st := pteState e
          let found : BitVec 8 := BitVec.ofNat 8 (st + (if pteCommit e then 8 else 0))
          if st == stUnmapped then .error (causePfUnmapped, found)
          else if st == stBasket || st == stHost || (st == stEvicting && pteCommit e) then .error (causePfAway, found)
          else .ok ⟨e, f, pa, lvl == 3⟩
      else if lvl == 4 || !nonLeafOk e f then .error (causePtBad, 0)
      else if pteState e == stUnmapped then .error (causePfUnmapped, 0)
      else walkFrom s va (pteFrame e) more

/-- The four levels of R262. -/
def walkLevels : List (Nat × Nat × Nat) := [(1, 44, 12), (2, 32, 12), (3, 28, 4), (4, 16, 12)]

def walk (s : State) (ctx va : Nat) : Except (BitVec 8 × BitVec 8) Leaf :=
  match getCtx? s ctx with
  | some c => walkFrom s va (ctxRoot c) walkLevels
  | none => .error (causePtBad, 0)

/-! ## TLBs (R266) -/

/-- The key of a page in a TLB: context, page number, and whether the page is large. -/
def tlbKey (ctx va : Nat) (large : Bool) : Nat :=
  if large then (ctx * 2 ^ 28 + va / 2 ^ 28) * 2 + 1 else (ctx * 2 ^ 40 + va / 65536) * 2

def tlbFind (m : SMap Leaf) (ctx va : Nat) : Option Leaf :=
  match mapGet? m (tlbKey ctx va false) with
  | some l => some l
  | none => mapGet? m (tlbKey ctx va true)

/-- Enter an item into a table of limited capacity; which item gives way is free (log 11). -/
def boundedSet {α : Type} (cap : Nat) (m : SMap α) (k : Nat) (a : α) : SMap α :=
  let m := if (mapGet? m k).isNone && decide (m.length ≥ cap) then m.eraseIdx (Config.freeVictim k % m.length) else m
  mapSet m k a

/-- A walk's leaf enters the TLBs: the lines of its frame may now lie in cluster caches until a TLBINV of the page (R278). -/
def noteWalk (s : State) (ctx va : Nat) (l : Leaf) : State :=
  modCtx s ctx fun c =>
    let k := tlbKey ctx va l.large
    let old := mapGet c.walked k []
    if old.any fun o => pteFrame o.base == pteFrame l.base && pteScale o.fmt == pteScale l.fmt then c
    else { c with walked := mapSet c.walked k (l :: old) }

/-- Drop every line of a core's cluster cache: an acquire at DIE or wider (R231). -/
def dropCache (s : State) (core : Nat) : State := modCluster s (clusterOf core) fun c => { c with cache := [] }

/-- Find the leaf of a page for the agents of a core: first-level TLB, second-level TLB, then a walk, which acquires at DEVICE, and whose
leaf enters both and sets A (R265). -/
def findLeaf (s : State) (core va : Nat) : Except (BitVec 8 × BitVec 8) (State × Leaf) :=
  let ctx := ctxOf core
  let cl := clusterOf core
  let d := dieOf s core
  match tlbFind (getCluster s cl).tlb ctx va with
  | some l => .ok (s, l)
  | none =>
    match tlbFind (getDie s d).tlb ctx va with
    | some l => .ok (modCluster s cl fun c => { c with tlb := boundedSet 64 c.tlb (tlbKey ctx va l.large) l }, l)
    | none =>
      match walk s ctx va with
      | .error e => .error e
      | .ok l =>
        let s := dropCache s core
        let l' : Leaf := { l with base := l.base ||| 0x40 }
        let s := if l.base = l'.base then s else memWrite s l.entry (valBytes 8 l'.base)
        let s := modDie (noteWalk s ctx va l') d fun x => { x with tlb := boundedSet 8192 x.tlb (tlbKey ctx va l.large) l' }
        .ok (modCluster s cl fun c => { c with tlb := boundedSet 64 c.tlb (tlbKey ctx va l.large) l' }, l')

/-- Remove a page's translations from every TLB of the device (R272, R274, R278). -/
def shootdown (s : State) (ctx va : Nat) : State :=
  let drop (m : SMap Leaf) := mapErase (mapErase m (tlbKey ctx va false)) (tlbKey ctx va true)
  { s with
    clusters := s.clusters.map fun p => (p.1, { p.2 with tlb := drop p.2.tlb })
    dies := s.dies.map fun p => (p.1, { p.2 with tlb := drop p.2.tlb }) }

/-- Remove a range of lines from every cluster cache. -/
def dropLines (s : State) (pa size : Nat) : State :=
  { s with clusters := s.clusters.map fun p =>
      (p.1, { p.2 with cache := p.2.cache.filter fun l => !(pa / 64 ≤ l.1 && decide (l.1 < (pa + size) / 64)) }) }

/-- Access kinds of R270. -/
def accLoad : Nat := 0
def accStore : Nat := 1
def accAtomic : Nat := 2
def accFetch : Nat := 3
def accCopyRead : Nat := 4
def accCopyWrite : Nat := 5

/-- The rights an access needs of the leaf (R263 step 3), as W, R and X at bits 3, 2 and 4 of the base half. -/
def leafAllows (e : Word) (kind : Nat) (sys : Bool) : Bool :=
  let r := fieldOf e 2 1 == 1
  let w := fieldOf e 3 1 == 1
  let x := fieldOf e 4 1 == 1
  (if kind == accLoad || kind == accCopyRead then r
   else if kind == accFetch then r && x
   else if kind == accAtomic then r && w
   else w) && (sys || fieldOf e 7 1 == 0)

/-- The replica of a duplicated page that a read on Z-die d uses (R274). -/
def replicaGroup (d : Nat) : Nat := if d % 4 ≤ 1 then d / 4 else 2 + d / 4

/-- The bytes of a page of a leaf, and of its scale frame (R264); 0 for a format without one. -/
def leafSize (l : Leaf) : Nat := if l.large then 2 ^ 28 else 65536
def scaleSize (l : Leaf) : Nat :=
  if pteFmt l.fmt < 4 then 0 else (if pteFmt l.fmt = 7 then 8192 else 4096) * (if l.large then 4096 else 1)

/-- Drop the lines of a leaf's frame, and of its scale frame, from every cluster cache, in every memory group where `all`. -/
def dropPage (s : State) (l : Leaf) (all : Bool) : State :=
  let drop (s : State) (pa size : Nat) : State :=
    if size = 0 then s
    else if all then (List.range 4).foldl (fun s g => dropLines s (pa % 2 ^ 40 + g * 2 ^ 40) size) s
    else dropLines s pa size
  drop (drop s (pteFrame l.base) (leafSize l)) (pteScale l.fmt) (scaleSize l)

/-- Collapse a duplicated page: its replicas' translations and lines go, and its STATE, as memory holds it, is RESIDENT (R274). -/
def collapse (s : State) (ctx va : Nat) (l : Leaf) : State :=
  let s := dropPage (shootdown s ctx va) l true
  let e : Word := wordOf (memNat s l.entry 8)
  if pteState e = stDuplicated then memWrite s l.entry (valBytes 8 (setPteState e stResident false)) else s

/-- A leaf as a write uses it: a duplicated page by its primary frames (R274). -/
def primaryLeaf (l : Leaf) : Leaf := if pteState l.base = stDuplicated then { l with base := setPteState l.base stResident false } else l


/-- The physical address of a VA within its leaf's page. -/
def leafPa (l : Leaf) (va : Nat) : Nat := pteFrame l.base + va % (if l.large then 2 ^ 28 else 65536)

/-- Translate one access of an agent of a core (R263), up to its rights and the backing of its physical address (R9). A read of a
duplicated page uses its die's replica; a write has the primary frame, and collapses the page once nothing stops it (`settleDup`).
An error carries the state as the walk left it. -/
def translate (s : State) (core va kind : Nat) (sys : Bool) : Except (State × Stop) (State × Leaf × Nat) :=
  match findLeaf s core va with
  | .error (c, found) =>
    let s := dropCache s core
    if c = causePtBad ∨ c = causePoisoned then .error (s, .trap c (wordOf va)) else .error (s, .fault va kind c found)
  | .ok (s, l) =>
    if !leafAllows l.base kind sys then .error (s, .trap causePageRights (wordOf va))
    else
      let reads := kind == accLoad || kind == accFetch || kind == accCopyRead
      let dup := pteState l.base == stDuplicated
      let pa := leafPa l va
      let pa := if dup && reads then pa % 2 ^ 40 + replicaGroup (dieOf s core) * 2 ^ 40 else pa
      if isBacked s pa then .ok (s, l, pa) else .error (s, .trap causePaUnbacked (wordOf va))

/-! ## Walks by Hjelec and units: straight to main memory, without TLB and rights -/

/-- A place of memory that is reserved to Hjelec: a number of Config, brought into memory group 0 and aligned. -/
def reservedPa (s : State) (n align : Nat) : Nat := n % (groupSize s 0 / align) * align

/-- The leaf of a page as memory holds it, whatever its state. -/
def rawLeafFrom (s : State) (va table : Nat) : List (Nat × Nat × Nat) → Option Leaf
  | [] => none
  | (lvl, lo, n) :: more =>
    let pa := table + 16 * (va / 2 ^ lo % 2 ^ n)
    let e : Word := wordOf (memNat s pa 8)
    let f : Word := wordOf (memNat s (pa + 8) 8)
    if pteLeaf e then some ⟨e, f, pa, lvl == 3⟩
    else if pteState e == stResident then rawLeafFrom s va (pteFrame e) more
    else none

/-- None too for an address beyond the 56 bits of R262. -/
def rawLeaf (s : State) (ctx va : Nat) : Option Leaf :=
  match getCtx? s ctx with
  | some c => if va < 2 ^ 56 then rawLeafFrom s va (ctxRoot c) walkLevels else none
  | none => none

/-! ## Page faults (R269) -/

/-- The page of a fault in the pending set, by the VA / 65536 of its start: of 256 MiB where a leaf of level 3 maps it. -/
def faultPage (s : State) (ctx va : Nat) : Nat :=
  match rawLeaf s ctx va with
  | some l => if l.large then va / 2 ^ 28 * 4096 else va / 65536
  | none => va / 65536

/-- Record a page fault in the die's buffer (R269): attach, append, or drop. -/
def recordFault (s : State) (core slot va kind : Nat) (cause found : BitVec 8) : State :=
  let d := dieOf s core
  let die := getDie s d
  let ctx := ctxOf core
  let page := faultPage s ctx va
  if die.pendingSet.contains (ctx, page) then s
  else if die.pendingSet.length < die.capacity && die.faults.length < die.capacity then
    let r : FaultRec := ⟨ctx, va, packedOf core, slot, kind, cause, nowWord s, found⟩
    modDie s d fun x => { x with pendingSet := x.pendingSet ++ [(ctx, page)], faults := x.faults ++ [r] }
  else modDie s d fun x => { x with dropped := setAdd x.dropped ctx }

/-! ## Main memory through the cluster (R231) -/

/-- A line of main memory as the home slice holds it. -/
def homeLine (s : State) (line : Nat) : BitVec 512 := BitVec.ofNat 512 (memNat s (line * 64) 64)

/-- Read bytes that lie within one line, through the cluster cache of a core: a line that is present answers with its
own bytes, however old; another is brought in (R231). -/
def cachedRead (s : State) (core pa n : Nat) : State × List Byte :=
  let cl := clusterOf core
  let line := pa / 64
  match mapGet? (getCluster s cl).cache line with
  | some v => (s, leBytes n (v.toNat / 2 ^ (8 * (pa % 64))))
  | none =>
    let v := homeLine s line
    (modCluster s cl fun c => { c with cache := boundedSet 2048 c.cache line v }, leBytes n (v.toNat / 2 ^ (8 * (pa % 64))))

/-- Bytes of a line with others written over them. -/
def lineWrite (v : BitVec 512) (off : Nat) (bs : List Byte) : BitVec 512 :=
  let n := bs.length
  let low := v.toNat % 2 ^ (8 * off)
  let high := v.toNat / 2 ^ (8 * (off + n))
  BitVec.ofNat 512 (low + leNat bs * 2 ^ (8 * off) + high * 2 ^ (8 * (off + n)))

/-- A line that a write covers whole loses its poison (R417). -/
def clearLine (s : State) (pa n : Nat) : State :=
  { s with poisoned := s.poisoned.filter fun l => !(pa ≤ 64 * l && 64 * l + 64 ≤ pa + n) }

/-- Software has written memory: an eviction whose entry lies there is abandoned at its next step (R266). -/
def abandonEvictions (s : State) (pa n : Nat) : State :=
  { s with contexts := s.contexts.map fun p =>
      (p.1, { p.2 with evicting := p.2.evicting.filter fun e => !(decide (pa < e.1 + 16) && decide (e.1 < pa + n)) }) }

/-- An acquire at a scope by an agent of a core. -/
def acquireAt (s : State) (core scope : Nat) : State := if scopeInvalidates s core scope then dropCache s core else s

/-- A write that nothing stops, for an agent of a core, collapses a duplicated page, and acquires at DEVICE what the holders of its
replicas have acknowledged (R228, R274); the leaf as it stands then. -/
def settleDup (s : State) (core va : Nat) (l : Leaf) : State × Leaf :=
  if pteState l.base = stDuplicated then (dropCache (collapse s (ctxOf core) va l) core, primaryLeaf l) else (s, l)

/-- A cached line takes the home slice's value, so that a later read of the cluster goes back on nothing (R222). -/
def refreshLine (s : State) (core pa : Nat) : State :=
  modCluster s (clusterOf core) fun c =>
    if (mapGet? c.cache (pa / 64)).isSome then { c with cache := mapSet c.cache (pa / 64) (homeLine s (pa / 64)) } else c

/-- The smallest fixed scope that covers two cores (R168). -/
def coverScope (s : State) (a b : Nat) : Nat :=
  if a = b then 0 else if clusterOf a = clusterOf b then 1 else if dieOf s a = dieOf s b then 2 else 3

/-! ## Reads and pins by Hjelec and units -/

/-- Whether a leaf translates now: RESIDENT, DUPLICATED, PINNED, or EVICTING before its commit point. -/
def leafHere (l : Leaf) : Bool :=
  let st := pteState l.base
  st == stResident || st == stDuplicated || st == stPinned || (st == stEvicting && !pteCommit l.base)

/-- Read bytes of a context's address space as Hjelec does, page by page; none where a byte is not mapped and resident. -/
def vaBytes (s : State) (ctx va : Nat) : Nat → Option (List Byte)
  | 0 => some []
  | n + 1 =>
    match rawLeaf s ctx va with
    | some l => if leafHere l && isBacked s (leafPa l va) then
        match vaBytes s ctx (va + 1) n with
        | some bs => some (memByte s (leafPa l va) :: bs)
        | none => none
      else none
    | none => none

def setLeaf (s : State) (l : Leaf) (base : Word) : State := memWrite s l.entry (valBytes 8 base)

/-- What pinning a page comes to (R279). -/
inductive PinResult where
  | pinned (s : State) (count : Nat)
  | unmapped
  | overflow
  /-- The page is away and must be recalled first. -/
  | away
deriving Repr

/-- The leaf that a pin finds: none where its walk does not come to an entry that keeps the rules, or meets poison (R263, R417). -/
def pinLeaf (s : State) (ctx va : Nat) : Option Leaf :=
  match walk s ctx va with
  | .error (c, _) => if c = causePtBad ∨ c = causePoisoned then none else rawLeaf s ctx va
  | .ok _ => rawLeaf s ctx va

/-- PGPIN's change of a leaf (R279). -/
def pinPage (s : State) (ctx va : Nat) : PinResult :=
  match pinLeaf s ctx va with
  | none => .unmapped
  | some l =>
    let st := pteState l.base
    let pinOne (s : State) (e : Word) : PinResult :=
      .pinned (setLeaf s l (setField (setPteState e stPinned false) 56 8 1)) 1
    if st == stUnmapped || st == 7 then .unmapped
    else if st == stPinned then
      if ptePins l.base = 255 then .overflow
      else .pinned (setLeaf s l (setField l.base 56 8 (ptePins l.base + 1))) (ptePins l.base + 1)
    else if ptePins l.base = 255 then .overflow
    else if st == stResident then pinOne s l.base
    else if st == stDuplicated then pinOne (collapse s ctx va l) l.base
    else if st == stEvicting && !pteCommit l.base then pinOne s l.base
    else .away

/-- PGUNPIN's change of a leaf: the new count, or none where it is not PINNED (R279). -/
def unpinPage (s : State) (ctx va : Nat) : Option (State × Nat) :=
  match rawLeaf s ctx va with
  | none => none
  | some l =>
    if pteState l.base == stPinned then
      let n := ptePins l.base - 1
      let e := setField l.base 56 8 n
      some (setLeaf s l (if n = 0 then setPteState e stResident false else e), n)
    else none

/-- Unpin, doing nothing where the page is not pinned. -/
def releasePin (s : State) (ctx va : Nat) : State :=
  match unpinPage s ctx va with
  | some (s, _) => s
  | none => s

end Sys2Proof.Machine
end

