-- ==== Sys2Proof/Machine/Numbers.lean ====
section
/-!
DEFINITION. Number formats, exact values and rounding (R27 to R42): every result is computed exactly as a real number
and rounded once. A real number is held by its sign and a way to ask for the floor of its magnitude at any weight.
-/

namespace Sys2Proof.Machine

/-! ## Flags (R39) -/

/-- The five flags, at the bit positions of `FFLAGS` (R127). -/
abbrev FFlags := BitVec 5

def flagNX : FFlags := 1
def flagUF : FFlags := 2
def flagOF : FFlags := 4
def flagDZ : FFlags := 8
def flagNV : FFlags := 16

/-- Raise a flag under a condition (R39). -/
def raiseIf (c : Bool) (f : FFlags) : FFlags := if c then f else 0

/-! ## Formats (R28) -/

/-- The floating-point formats. -/
inductive Fmt where
  | fp64 | fp32 | fp16 | bf16 | e4m3 | e5m2
deriving DecidableEq, Repr

/-- Width in bits (R28). -/
def fmtWidth : Fmt → Nat
  | .fp64 => 64 | .fp32 => 32 | .fp16 => 16 | .bf16 => 16 | .e4m3 => 8 | .e5m2 => 8

/-- Fraction bits (R28). -/
def fmtFrac : Fmt → Nat
  | .fp64 => 52 | .fp32 => 23 | .fp16 => 10 | .bf16 => 7 | .e4m3 => 3 | .e5m2 => 2

/-- Exponent bias (R28). -/
def fmtBias : Fmt → Int
  | .fp64 => 1023 | .fp32 => 127 | .fp16 => 15 | .bf16 => 127 | .e4m3 => 7 | .e5m2 => 15

/-- The encoding of the largest finite value (R28). -/
def fmtMax : Fmt → Nat
  | .fp64 => 0x7FEFFFFFFFFFFFFF | .fp32 => 0x7F7FFFFF | .fp16 => 0x7BFF | .bf16 => 0x7F7F | .e4m3 => 0x7E | .e5m2 => 0x7B

/-- Whether the format has infinities: all but e4m3 (R28). -/
def fmtHasInf : Fmt → Bool
  | .e4m3 => false
  | _ => true

/-- The canonical NaN (R29). -/
def fmtCanon : Fmt → Nat
  | .fp64 => 0x7FF8000000000000 | .fp32 => 0x7FC00000 | .fp16 => 0x7E00 | .bf16 => 0x7FC0 | .e4m3 => 0x7F | .e5m2 => 0x7E

/-- The exponent of a subnormal's unit: the least spacing of the format (R28). -/
def fmtUnit (F : Fmt) : Int := 1 - fmtBias F - fmtFrac F

/-- The exponent of the smallest normal value (R28). -/
def fmtMinExp (F : Fmt) : Int := 1 - fmtBias F

/-- The sign bit's weight. -/
def fmtSign (F : Fmt) : Nat := 2 ^ (fmtWidth F - 1)

/-- A sign in front of a magnitude's encoding. -/
def withSign (F : Fmt) (neg : Bool) (code : Nat) : Nat := if neg then fmtSign F + code else code

/-- The encoding of an infinity; in e4m3, which has none, the NaN 0x7F for either sign (R35, R36). -/
def infCode (F : Fmt) (neg : Bool) : Nat :=
  if fmtHasInf F then withSign F neg (fmtMax F + 1) else fmtCanon F

/-! ## Exact values -/

/-- An encoded value: a NaN, an infinity, a signed zero, or (-1)^neg * m * 2^e with m > 0. -/
inductive FVal where
  | nan (signalling : Bool)
  | inf (neg : Bool)
  | zero (neg : Bool)
  | fin (neg : Bool) (m : Nat) (e : Int)
deriving DecidableEq, Repr

/-- Decode(bits, F): the exact value of an encoding (R28, R29, R51). -/
def decodeNum (F : Fmt) (bits : Nat) : FVal :=
  let neg := decide (bits / fmtSign F % 2 = 1)
  let mag := bits % fmtSign F
  let f := mag % 2 ^ fmtFrac F
  let e := mag / 2 ^ fmtFrac F
  if mag > fmtMax F then
    if fmtHasInf F && f = 0 then .inf neg
    else .nan (fmtHasInf F && f < 2 ^ (fmtFrac F - 1))
  else if mag = 0 then .zero neg
  else if e = 0 then .fin neg f (fmtUnit F)
  else .fin neg (2 ^ fmtFrac F + f) (fmtUnit F + (e - 1))

def numIsNaN : FVal → Bool
  | .nan _ => true
  | _ => false

def numIsSNaN : FVal → Bool
  | .nan s => s
  | _ => false

def numIsInf : FVal → Bool
  | .inf _ => true
  | _ => false

def numIsZero : FVal → Bool
  | .zero _ => true
  | _ => false

/-- The sign of a value; a NaN counts as positive. -/
def numNeg : FVal → Bool
  | .nan _ => false
  | .inf n => n
  | .zero n => n
  | .fin n _ _ => n

/-- A value with its sign inverted. -/
def numNegate : FVal → FVal
  | .nan s => .nan s
  | .inf n => .inf !n
  | .zero n => .zero !n
  | .fin n m e => .fin (!n) m e

/-- The magnitude of a nonzero real: the floor of its binary logarithm, and for each k the floor of its quotient by
2^k with whether something remains. -/
structure Mag where
  ex : Int
  floorAt : Int → Nat × Bool

/-- A real number, an infinity or a NaN that is to be rounded. -/
inductive Exact where
  | nan (signalling : Bool)
  | inf (neg : Bool)
  | zero (neg : Bool)
  | real (neg : Bool) (mag : Mag)

/-- m * 2^e as a magnitude. -/
def dyadicMag (m : Nat) (e : Int) : Mag where
  ex := m.log2 + e
  floorAt k :=
    if k ≤ e then (m * 2 ^ (e - k).toNat, false)
    else if k > e + m.log2 then (0, true)
    else
      let d := (k - e).toNat
      (m / 2 ^ d, decide (m % 2 ^ d ≠ 0))

/-- m / n * 2^e as a magnitude. -/
def ratioMag (m n : Nat) (e : Int) : Mag :=
  let l : Int := (m.log2 : Int) - (n.log2 : Int)
  let below : Bool := if l ≥ 0 then decide (m < n * 2 ^ l.toNat) else decide (m * 2 ^ (-l).toNat < n)
  { ex := (if below then l - 1 else l) + e
    floorAt := fun k =>
      if k ≤ e then
        let a := m * 2 ^ (e - k).toNat
        (a / n, decide (a % n ≠ 0))
      else if k > e + l + 1 then (0, true)
      else
        let b := n * 2 ^ (k - e).toNat
        (m / b, decide (m % b ≠ 0)) }

/-- The integer square root by bits, from the bit of weight 2^(j-1) downwards. -/
def isqrtFrom (n : Nat) : Nat → Nat → Nat
  | 0, r => r
  | j + 1, r =>
    let t := r + 2 ^ j
    isqrtFrom n j (if t * t ≤ n then t else r)

/-- The integer square root. -/
def isqrt (n : Nat) : Nat := isqrtFrom n (n.log2 / 2 + 1) 0

/-- The floor of the square root of m * 2^e, with whether something remains. -/
def sqrtFloor (m : Nat) (e : Int) : Nat × Bool :=
  if e ≥ 0 then
    let a := m * 2 ^ e.toNat
    let r := isqrt a
    (r, decide (r * r ≠ a))
  else
    let d := 2 ^ (-e).toNat
    let r := isqrt (m / d)
    (r, decide (r * r * d ≠ m))

/-- The square root of m * 2^e as a magnitude. -/
def sqrtMag (m : Nat) (e : Int) : Mag where
  ex := ((m.log2 : Int) + e) / 2
  floorAt k := sqrtFloor m (e - 2 * k)

/-- The reciprocal square root of m * 2^e as a magnitude. -/
def rsqrtMag (m : Nat) (e : Int) : Mag :=
  let j : Int := (m.log2 : Int) + e
  { ex := if m = 2 ^ m.log2 then (-j) / 2 else (-(j + 1)) / 2
    floorAt := fun k =>
      let s := -2 * k - e
      if s < 0 then (0, true)
      else
        let a := 2 ^ s.toNat
        let r := isqrt (a / m)
        (r, decide (r * r * m ≠ a)) }

/-- A value as a number to round. -/
def numExact : FVal → Exact
  | .nan s => .nan s
  | .inf n => .inf n
  | .zero n => .zero n
  | .fin n m e => .real n (dyadicMag m e)

/-! ## Rounding (R34 to R36) -/

/-- How an operation rounds: the mode of R34 and, under RSH, the draw u of R37. -/
structure Rounding where
  mode : BitVec 3
  u : Nat := 0
deriving DecidableEq, Repr

def rne : Rounding := { mode := 0 }
def rtz : Rounding := { mode := 1 }
def rdn : Rounding := { mode := 2 }
def rup : Rounding := { mode := 3 }

/-- Whether the mode rounds toward minus infinity, which gives exact zero sums a minus sign (ZeroSign of R35). -/
def isRdn (r : Rounding) : Bool := r.mode = 2

/-- Whether the candidate of larger magnitude is taken. `lo` is the smaller candidate, and the value lies
`frac` / 2^34 above it, and a little more when `sticky` (R34). -/
def roundsUp (r : Rounding) (neg : Bool) (lo frac : Nat) (sticky : Bool) : Bool :=
  let half := 2 ^ 33
  match r.mode with
  | 0 => decide (frac > half) || (frac == half && (sticky || lo % 2 == 1))
  | 1 => false
  | 2 => neg
  | 3 => !neg
  | 4 => decide (frac ≥ half)
  | 5 => if neg then decide (4 * r.u + frac ≥ 2 ^ 34) else decide (4 * r.u < frac) || (4 * r.u == frac && sticky)
  | _ => lo % 2 == 0

/-- The magnitude |x| in units of 2^k under the mode, with whether it was inexact (R34). -/
def roundMagAt (r : Rounding) (neg : Bool) (x : Mag) (k : Int) : Nat × Bool :=
  let (n, sticky) := x.floorAt (k - 34)
  let lo := n / 2 ^ 34
  let frac := n % 2 ^ 34
  if frac = 0 && !sticky then (lo, false)
  else (if roundsUp r neg lo frac sticky then lo + 1 else lo, true)

/-- The weight of the last place of the candidates around x: precision and subnormal spacing of F, and no upper
limit of the exponent (R35). -/
def ulpExp (F : Fmt) (x : Mag) : Int := max (x.ex - fmtFrac F) (fmtUnit F)

/-- OverflowValue (R36). -/
def overflowValue (F : Fmt) (neg : Bool) (r : Rounding) (sat : Bool) : Nat :=
  let big := withSign F neg (fmtMax F)
  if sat then big
  else match r.mode with
    | 1 => big
    | 6 => big
    | 2 => if neg then infCode F neg else big
    | 3 => if neg then big else infCode F neg
    | _ => infCode F neg

/-- Round(x, F, mode, sat) for a mode other than 7 (R35). The encoding of a candidate y in units of 2^k is
(k - unit) * 2^frac + y, in normal and subnormal range alike. -/
def round (F : Fmt) (r : Rounding) (sat : Bool) (x : Exact) : Nat × FFlags :=
  match x with
  | .nan s => (fmtCanon F, raiseIf s flagNV)
  | .inf neg =>
    if sat then (withSign F neg (fmtMax F), flagOF ||| flagNX)
    else if fmtHasInf F then (infCode F neg, 0)
    else (fmtCanon F, flagOF ||| flagNX)
  | .zero neg => (withSign F neg 0, 0)
  | .real neg mag =>
    let k := ulpExp F mag
    let (y, inexact) := roundMagAt r neg mag k
    let code : Int := (k - fmtUnit F) * (2 ^ fmtFrac F : Nat) + (y : Int)
    if code > (fmtMax F : Int) then (overflowValue F neg r sat, flagOF ||| flagNX)
    else (withSign F neg code.toNat,
      raiseIf inexact flagNX ||| raiseIf (inexact && decide (mag.ex < fmtMinExp F)) flagUF)

/-! ## Deterministic stochastic rounding (R37) -/

/-- Mix(z) of R37. -/
def mix (z : Word) : Word :=
  let z := z ^^^ (z >>> 32)
  let z := z * 0xD6E8FEB86659FD93
  let z := z ^^^ (z >>> 29)
  let z := z * 0xA0F6E5C13B274D19
  z ^^^ (z >>> 32)

/-- The draw u that RshBits takes at a value of `DRAW` (R37). -/
def rshBits (seed draw : Word) : Nat := (mix (seed + draw * 0x9E3779B97F4A7C15)).toNat / 2 ^ 32

/-- The state that rounding reads: `RND`, `SEED` and `DRAW` (R37, R38). -/
structure RndState where
  mode : BitVec 3
  seed : Word
  draw : Word
deriving DecidableEq, Repr

/-- The rounding of the j-th element that an operation produces (R38). -/
def roundingOf (r : RndState) (j : Nat) : Rounding :=
  { mode := r.mode, u := if r.mode = 5 then rshBits r.seed (r.draw + BitVec.ofNat 64 j) else 0 }

/-- `DRAW` after `n` elements: RSH consumes one draw for each (R38). -/
def drawAfter (r : RndState) (n : Nat) : Word := if r.mode = 5 then r.draw + BitVec.ofNat 64 n else r.draw

/-! ## Exact arithmetic -/

/-- The signed integer that m * 2^e is in units of 2^k, for k at most e. -/
def scaledInt (neg : Bool) (m : Nat) (e k : Int) : Int :=
  let a : Int := (m * 2 ^ (e - k).toNat : Nat)
  if neg then -a else a

/-- A signed integer in units of 2^k as a value; zero takes the sign given. -/
def intNum (n k : Int) (zeroNeg : Bool) : FVal :=
  if n = 0 then .zero zeroNeg else .fin (decide (n < 0)) n.natAbs k

/-- The exact sum, with the sign of a zero sum by ZeroSign (R35); infinities of both signs are invalid (R140). -/
def addNum (r : Rounding) (p q : FVal) : FVal × FFlags :=
  match p, q with
  | .nan a, .nan b => (.nan false, raiseIf (a || b) flagNV)
  | .nan a, _ => (.nan false, raiseIf a flagNV)
  | _, .nan b => (.nan false, raiseIf b flagNV)
  | .inf a, .inf b => if a = b then (.inf a, 0) else (.nan false, flagNV)
  | .inf a, _ => (.inf a, 0)
  | _, .inf b => (.inf b, 0)
  | .zero a, .zero b => (.zero (if a = b then a else isRdn r), 0)
  | .zero _, .fin n m e => (.fin n m e, 0)
  | .fin n m e, .zero _ => (.fin n m e, 0)
  | .fin n m e, .fin n' m' e' =>
    let k := min e e'
    (intNum (scaledInt n m e k + scaledInt n' m' e' k) k (isRdn r), 0)

/-- The exact product; zero times infinity is invalid (R140). -/
def mulNum (p q : FVal) : FVal × FFlags :=
  match p, q with
  | .nan a, .nan b => (.nan false, raiseIf (a || b) flagNV)
  | .nan a, _ => (.nan false, raiseIf a flagNV)
  | _, .nan b => (.nan false, raiseIf b flagNV)
  | .inf _, .zero _ => (.nan false, flagNV)
  | .zero _, .inf _ => (.nan false, flagNV)
  | .inf a, q => (.inf (a != numNeg q), 0)
  | p, .inf b => (.inf (numNeg p != b), 0)
  | .zero a, q => (.zero (a != numNeg q), 0)
  | p, .zero b => (.zero (numNeg p != b), 0)
  | .fin n m e, .fin n' m' e' => (.fin (n != n') (m * m') (e + e'), 0)

/-- The exact quotient with the special cases of FDIV (R140). -/
def divNum (p q : FVal) : Exact × FFlags :=
  match p, q with
  | .nan a, .nan b => (.nan false, raiseIf (a || b) flagNV)
  | .nan a, _ => (.nan false, raiseIf a flagNV)
  | _, .nan b => (.nan false, raiseIf b flagNV)
  | .inf _, .inf _ => (.nan false, flagNV)
  | .zero _, .zero _ => (.nan false, flagNV)
  | .inf a, q => (.inf (a != numNeg q), 0)
  | p, .inf b => (.zero (numNeg p != b), 0)
  | .zero a, .fin b _ _ => (.zero (a != b), 0)
  | .fin a _ _, .zero b => (.inf (a != b), flagDZ)
  | .fin n m e, .fin n' m' e' => (.real (n != n') (ratioMag m m' (e - e')), 0)

/-- The exact square root with the special cases of FSQRT (R140, R43). -/
def sqrtNum (p : FVal) : Exact × FFlags :=
  match p with
  | .nan a => (.nan false, raiseIf a flagNV)
  | .inf true => (.nan false, flagNV)
  | .inf false => (.inf false, 0)
  | .zero n => (.zero n, 0)
  | .fin true _ _ => (.nan false, flagNV)
  | .fin false m e => (.real false (sqrtMag m e), 0)

/-- The exact p * q + s of a fused multiply-add (R144): a NaN result raises NV for a signalling operand and for
0 times infinity, the latter even beside a quiet NaN. -/
def fmaNum (r : Rounding) (p q s : FVal) : FVal × FFlags :=
  let (t, f) := mulNum p q
  let (u, g) := addNum r t s
  (u, f ||| g)

/-- -1, 0 or 1 as p is below, equal to or above q; zeros of either sign are equal, and no operand is a NaN. -/
def cmpNum (p q : FVal) : Int :=
  match p, q with
  | .nan _, _ => 0
  | _, .nan _ => 0
  | .inf a, .inf b => if a = b then 0 else if a then -1 else 1
  | .inf a, _ => if a then -1 else 1
  | _, .inf b => if b then 1 else -1
  | .zero _, .zero _ => 0
  | .zero _, .fin n _ _ => if n then 1 else -1
  | .fin n _ _, .zero _ => if n then -1 else 1
  | .fin n m e, .fin n' m' e' =>
    let k := min e e'
    let x := scaledInt n m e k
    let y := scaledInt n' m' e' k
    if x < y then -1 else if x = y then 0 else 1

/-- Whether p comes before q, with -0 before +0 (R141). -/
def numBelow (p q : FVal) : Bool :=
  match p, q with
  | .zero a, .zero b => a && !b
  | _, _ => decide (cmpNum p q < 0)

/-- FMIN and FMAX on encodings: select without rounding (R141). -/
def minMaxNum (F : Fmt) (isMax : Bool) (a b : Nat) : Nat × FFlags :=
  let p := decodeNum F a
  let q := decodeNum F b
  let nv := raiseIf (numIsSNaN p || numIsSNaN q) flagNV
  if numIsNaN p && numIsNaN q then (fmtCanon F, nv)
  else if numIsNaN p then (b, nv)
  else if numIsNaN q then (a, nv)
  else
    let takeB := if isMax then numBelow p q else numBelow q p
    (if takeB then b else a, nv)

/-- The class mask of R143. -/
def classMask (F : Fmt) (bits : Nat) : Nat :=
  match decodeNum F bits with
  | .inf true => 1
  | .inf false => 2 ^ 7
  | .zero true => 2 ^ 3
  | .zero false => 2 ^ 4
  | .nan true => 2 ^ 8
  | .nan false => 2 ^ 9
  | .fin n m _ =>
    let normal := decide (m ≥ 2 ^ fmtFrac F)
    match n, normal with
    | true, true => 2 ^ 1
    | true, false => 2 ^ 2
    | false, false => 2 ^ 5
    | false, true => 2 ^ 6

/-- A value rounded to an integral value of its own format; `.2` says whether it changed (R178). -/
def integralNum (r : Rounding) (p : FVal) : FVal × Bool :=
  match p with
  | .fin n m e =>
    if e ≥ 0 then (p, false)
    else
      let (y, inexact) := roundMagAt r n (dyadicMag m e) 0
      (if y = 0 then .zero n else .fin n y 0, inexact)
  | p => (p, false)

/-! ## Conversions (R40 to R42) -/

/-- An integer format: its width and whether it is signed (R27). -/
structure IntFmt where
  width : Nat
  signed : Bool
deriving DecidableEq, Repr

def intMin (T : IntFmt) : Int := if T.signed then -(2 ^ (T.width - 1) : Nat) else 0
def intMax (T : IntFmt) : Int := if T.signed then (2 ^ (T.width - 1) : Nat) - 1 else (2 ^ T.width : Nat) - 1

/-- The value of an integer encoding (R27). -/
def decodeIntFmt (T : IntFmt) (bits : Nat) : Int :=
  let b := bits % 2 ^ T.width
  if T.signed && decide (b ≥ 2 ^ (T.width - 1)) then (b : Int) - (2 ^ T.width : Nat) else b

/-- The encoding of an integer, modulo the width. -/
def encodeIntFmt (T : IntFmt) (n : Int) : Nat := (n % (2 ^ T.width : Nat)).toNat

/-- ToInt: floating point to an integer format (R41). -/
def toIntFmt (T : IntFmt) (r : Rounding) (sat : Bool) (p : FVal) : Nat × FFlags :=
  let out (neg : Bool) : Nat × FFlags :=
    (encodeIntFmt T (if sat then (if neg then intMin T else intMax T) else intMin T), flagNV)
  match p with
  | .nan _ => (encodeIntFmt T (if sat then 0 else intMin T), flagNV)
  | .inf n => out n
  | .zero _ => (0, 0)
  | .fin n m e =>
    let (y, inexact) := roundMagAt r n (dyadicMag m e) 0
    let i : Int := if n then -(y : Int) else y
    if intMin T ≤ i && i ≤ intMax T then (encodeIntFmt T i, raiseIf inexact flagNX) else out n

/-- Integer to floating point (R42). -/
def ofIntFmt (F : Fmt) (r : Rounding) (n : Int) : Nat × FFlags := round F r false (numExact (intNum n 0 false))

/-- IntNarrow: integer to integer (R42). -/
def intNarrow (T : IntFmt) (sat : Bool) (n : Int) : Nat :=
  if sat then encodeIntFmt T (max (intMin T) (min (intMax T) n)) else encodeIntFmt T n

/-- Floating point to floating point (R40). -/
def convertFloat (S D : Fmt) (r : Rounding) (sat : Bool) (bits : Nat) : Nat × FFlags :=
  round D r sat (numExact (decodeNum S bits))

end Sys2Proof.Machine
end

