-- ==== Sys2Proof/Machine/Blocks.lean ====
section
/-!
DEFINITION. Elements and block scales of formatted pages and tile images (R31 to R33, R158 to R161, R264), and exact
cells (R47 to R49, R244 to R246).
-/

namespace Sys2Proof.Machine

/-! ## Elements: 1 FP32, 2 BF16, 3 FP16, 4 e4m3, 5 e5m2, 6 i8, 7 cb4 (R158, R261) -/

/-- Bits of one element. -/
def elemBits (F : Nat) : Nat :=
  match F with
  | 1 => 32
  | 2 => 16
  | 3 => 16
  | 7 => 4
  | _ => 8

/-- Bytes that n elements occupy. -/
def elemBytes (F n : Nat) : Nat := n * elemBits F / 8

/-- Whether elements of the format have block scales (R33). -/
def elemScaled (F : Nat) : Bool := decide (4 ≤ F)

def i8Fmt : IntFmt := ⟨8, true⟩

/-- Decode of an element; a cb4 code goes through a table of BF16 entries. -/
def elemNum (F : Nat) (table : BitVec 256) (bits : Nat) : FVal :=
  match F with
  | 1 => decodeNum .fp32 bits
  | 2 => decodeNum .bf16 bits
  | 3 => decodeNum .fp16 bits
  | 4 => decodeNum .e4m3 bits
  | 5 => decodeNum .e5m2 bits
  | 6 => intNum (decodeIntFmt i8Fmt bits) 0 false
  | _ => decodeNum .bf16 (fieldOf table (16 * bits) 16)

/-- Element i of packed elements. -/
def elemAt (F : Nat) (data : Nat) (i : Nat) : Nat := data / 2 ^ (elemBits F * i) % 2 ^ elemBits F

/-- ScaleVal of a container (R32): a NaN for SE = 255 and for reserved bits. -/
def scaleNum (c : Nat) : FVal :=
  if c ≥ 2 ^ 12 || c / 16 == 255 then .nan false else .fin false (16 + c % 16) ((c / 16 : Nat) - 131)

/-- An element times its block's scale, exactly. -/
def scaledElem (F : Nat) (v : FVal) (scale : Nat) : FVal × FFlags :=
  if elemScaled F then mulNum v (scaleNum scale) else (v, 0)

/-- A context's codebook slot: sixteen BF16 entries (R31, R249). -/
def codebook (s : State) (ctx slot : Nat) : BitVec 256 :=
  match getCtx? s ctx with
  | some c => BitVec.ofNat 256 (memNat s (ctxCbtab c + 32 * slot) 32)
  | none => 0

/-- Whether a codebook slot holds a poisoned byte (R417). -/
def codebookPoisoned (s : State) (ctx slot : Nat) : Bool :=
  match getCtx? s ctx with
  | some c => memPoisoned s (ctxCbtab c + 32 * slot) 32
  | none => false

/-- The test of MLDCB (R31). -/
def codebookOk (t : BitVec 256) : Bool :=
  let vals := (List.range 16).map fun i => decodeNum .bf16 (fieldOf t (16 * i) 16)
  let mags := vals.filterMap fun v => match v with
    | .fin _ m e => some (FVal.fin false m e)
    | _ => none
  let big := mags.foldl (fun a v => if cmpNum a v < 0 then v else a) (.zero false)
  let ok (v : FVal) : Bool := match v with
    | .fin _ m e => decide (cmpNum big (.fin false m (e + 24)) ≤ 0)
    | _ => true
  vals.all (fun v => !numIsNaN v && !numIsInf v) && mags.all ok

/-! ## Encoding a block (R161) -/

/-- The largest value an element's encoding is scaled to. -/
def elemMax (F : Nat) : FVal :=
  match F with
  | 4 => decodeNum .e4m3 (fmtMax .e4m3)
  | 5 => decodeNum .e5m2 (fmtMax .e5m2)
  | _ => .fin false 127 0

/-- The smallest scale with m ≤ M × s; the largest where none is large enough, and 0 for m = 0. -/
def blockScale (F : Nat) (m : FVal) : Nat :=
  let short (c : Nat) : Bool := c ≤ 0xFEF && decide (cmpNum (mulNum (elemMax F) (scaleNum c)).1 m < 0)
  if numIsZero m || !short 0 then 0
  else
    let c := [11, 10, 9, 8, 7, 6, 5, 4, 3, 2, 1, 0].foldl (fun a b => if short (a + 2 ^ b) then a + 2 ^ b else a) 0
    Nat.min (c + 1) 0xFEF

/-- ToInt of an exact value (R41), saturating. -/
def toI8 (r : Rounding) (x : Exact) : Nat × FFlags :=
  match x with
  | .nan _ => (0, flagNV)
  | .inf n => (encodeIntFmt i8Fmt (if n then -128 else 127), flagNV)
  | .zero _ => (0, 0)
  | .real n mag =>
    let (y, inexact) := roundMagAt r n mag 0
    let i : Int := if n then -(y : Int) else y
    if -128 ≤ i && i ≤ 127 then (encodeIntFmt i8Fmt i, raiseIf inexact flagNX)
    else (encodeIntFmt i8Fmt (if n then -128 else 127), flagNV)

def fmtOfElem (F : Nat) : Fmt :=
  match F with
  | 1 => .fp32
  | 2 => .bf16
  | 3 => .fp16
  | 4 => .e4m3
  | _ => .e5m2

def absNum : FVal → FVal
  | .fin _ m e => .fin false m e
  | .inf _ => .inf false
  | v => v

/-- A block of values encoded: elements, the scale container, and flags; element j rounds with its own draw (R161). -/
def encodeBlock (F : Nat) (r : Nat → Rounding) (ys : List FVal) : List Nat × Nat × FFlags :=
  let join (l : List (Nat × FFlags)) : List Nat × FFlags := (l.map (·.1), l.foldl (fun f p => f ||| p.2) 0)
  let numbered := ys.zipIdx
  if !elemScaled F then
    let (e, f) := join (numbered.map fun p => round (fmtOfElem F) (r p.2) false (numExact p.1))
    (e, 0, f)
  else if ys.any numIsNaN then (ys.map fun _ => 0, 0x0FF0, raiseIf (ys.any numIsSNaN) flagNV)
  else
    let m := ys.foldl (fun a v => if cmpNum a (absNum v) < 0 then absNum v else a) (.zero false)
    let c := blockScale F m
    let (e, f) := join (numbered.map fun p =>
      let q := (divNum p.1 (scaleNum c)).1
      if F = 6 then toI8 (r p.2) q else round (fmtOfElem F) (r p.2) true q)
    (e, c, f)

/-- Pack elements into a number. -/
def packElems (F : Nat) (es : List Nat) : Nat := (es.zipIdx.map fun p => p.1 * 2 ^ (elemBits F * p.2)).foldl (· + ·) 0

/-! ## Scales of formatted pages (R264) -/

/-- The place in its page's scale frame of the container of the block that holds a byte. -/
def scaleOff (l : Leaf) (va : Nat) : Nat := 2 * (va % leafSize l * 8 / elemBits (pteFmt l.fmt) / 32)

/-- The PA of the scale container of the block that holds a byte of a formatted page; `pa` is the payload's PA, from
which a replica takes its group (R274). -/
def scalePa (l : Leaf) (va pa : Nat) : Nat :=
  let p := pteScale l.fmt + scaleOff l va
  if pteState l.base == stDuplicated then p % 2 ^ 40 + pa / 2 ^ 40 % 4 * 2 ^ 40 else p

/-! ## Exact cells (R47 to R49) -/

def cellVal (c : BitVec 256) : Int := if fieldOf c 0 192 < 2 ^ 191 then fieldOf c 0 192 else (fieldOf c 0 192 : Int) - 2 ^ 192
def cellAnchor (c : BitVec 256) : Int := (BitVec.ofNat 16 (fieldOf c 192 16)).toInt
def cellFlag (c : BitVec 256) (i : Nat) : Bool := c.getLsbD (208 + i)

/-- A cell from its fields, reserved bits zero: flags OVF 1, NAN 2, PINF 4, NINF 8. -/
def mkCell (val anchor : Int) (flags : Nat) : BitVec 256 :=
  BitVec.ofNat 256 ((val % 2 ^ 192).toNat + (anchor % 2 ^ 16).toNat * 2 ^ 192 + flags * 2 ^ 208)

def cellFlags (c : BitVec 256) : Nat := fieldOf c 208 4

def outOfCell (n : Int) : Bool := decide (n < -(2 ^ 191 : Int)) || decide (n ≥ (2 ^ 191 : Int))

/-- floor(± m × 2^k). -/
def floorScaled (n : Int) (k : Int) : Int := if k ≥ 0 then n * 2 ^ k.toNat else n / 2 ^ (-k).toNat

/-- Add an integer at the cell's weight. -/
def cellAddInt (c : BitVec 256) (n : Int) : BitVec 256 :=
  let sum := cellVal c + n
  mkCell sum (cellAnchor c) (cellFlags c ||| (if outOfCell n || outOfCell sum then 1 else 0))

/-- CellAdd of a floating value (R48). -/
def cellAdd (c : BitVec 256) (x : FVal) : BitVec 256 :=
  match x with
  | .nan _ => mkCell (cellVal c) (cellAnchor c) (cellFlags c ||| 2)
  | .inf false => mkCell (cellVal c) (cellAnchor c) (cellFlags c ||| 4)
  | .inf true => mkCell (cellVal c) (cellAnchor c) (cellFlags c ||| 8)
  | .zero _ => cellAddInt c 0
  | .fin neg m e => cellAddInt c (floorScaled (if neg then -(m : Int) else m) (e + 160 - cellAnchor c))

/-- XADD.B: the block form (R244). -/
def cellAddBlock (c : BitVec 256) (sig : Word) (e : BitVec 16) : BitVec 256 :=
  cellAddInt c (floorScaled sig.toInt (e.toInt - cellAnchor c + 160))

/-- CellRead (R49). -/
def cellRead (F : Fmt) (r : Rounding) (c : BitVec 256) : Nat × FFlags :=
  if cellFlag c 1 then (fmtCanon F, 0)
  else if cellFlag c 2 && cellFlag c 3 then (fmtCanon F, flagNV)
  else if cellFlag c 2 then (infCode F false, 0)
  else if cellFlag c 3 then (infCode F true, 0)
  else if cellFlag c 0 then (fmtCanon F, flagNV)
  else round F r false (numExact (intNum (cellVal c) (cellAnchor c - 160) false))

/-- XMAXE's step: the cell after it and the result (R246). -/
def cellMaxe (c : BitVec 256) (e : BitVec 16) : BitVec 256 × Word :=
  let empty := cellVal c == 0 && cellFlags c == 0
  let a0 := cellAnchor c
  let c' := if empty then mkCell 0 (max a0 e.toInt) 0 else c
  (c', wordOf (fieldOf c 192 16 + (if empty then 0 else 2 ^ 16)))

/-- The operations of XCELL that change a cell: 0 XSET, 1 XADD.S, 2 XADD.D, 3 XADD.B (R244). -/
def cellWrite (op : Nat) (c : BitVec 256) (b e : Word) : BitVec 256 :=
  match op with
  | 0 => mkCell 0 (b.setWidth 16).toInt 0
  | 1 => cellAdd c (decodeNum .fp32 (fieldOf b 0 32))
  | 2 => cellAdd c (decodeNum .fp64 b.toNat)
  | _ => cellAddBlock c b (e.setWidth 16)

/-! ## Read-modify-write values (R241, R242) -/

/-- The new value of an atomic, or none where nothing is written: 0 ADD, 1 AND, 2 OR, 3 XOR, 4 XCHG, 5 MIN, 6 MAX, 7 CAS,
8 MINU, 9 MAXU, 10 FMIN.S, 11 FMAX.S, 12 FMIN.D, 13 FMAX.D; `z` is the size in bytes. -/
def atomicNew (op z old v new : Nat) : Option Nat :=
  let T : IntFmt := ⟨8 * z, true⟩
  let pick (F : Fmt) (isMax : Bool) : Option Nat :=
    let p := decodeNum F old
    let q := decodeNum F v
    if numIsNaN p then some (if numIsNaN q then fmtCanon F else v)
    else if numIsNaN q then none
    else if (if isMax then numBelow p q else numBelow q p) then some v else none
  match op with
  | 0 => some ((old + v) % 2 ^ (8 * z))
  | 1 => some (old &&& v)
  | 2 => some (old ||| v)
  | 3 => some (old ^^^ v)
  | 4 => some v
  | 5 => some (if decodeIntFmt T v < decodeIntFmt T old then v else old)
  | 6 => some (if decodeIntFmt T old < decodeIntFmt T v then v else old)
  | 7 => if old = v then some new else none
  | 8 => some (Nat.min old v)
  | 9 => some (Nat.max old v)
  | 10 => pick .fp32 false
  | 11 => pick .fp32 true
  | 12 => pick .fp64 false
  | _ => pick .fp64 true

/-- NV of an atomic, raised when the reply arrives (R242). -/
def atomicFlags (op old v : Nat) : FFlags :=
  let sn (F : Fmt) : FFlags := raiseIf (numIsSNaN (decodeNum F old) || numIsSNaN (decodeNum F v)) flagNV
  if op < 10 then 0 else if op < 12 then sn .fp32 else sn .fp64

end Sys2Proof.Machine
end

