-- ==== Sys2Proof/Machine/Flags.lean ====
section
/-!
DEFINITION. Conditions and flags: the conditions of R113 with the flags they raise, the combine of a compare into a guard
(R112), and the results of the scalar floating-point operations with their flags (R140 to R145).
-/

namespace Sys2Proof.Machine

/-! ## Conditions (R113) -/

/-- The integer conditions 0 to 7. -/
def intCond (fn : Nat) (a b : Word) : Bool :=
  match fn with
  | 0 => a == b
  | 1 => a != b
  | 2 => a.slt b
  | 3 => !a.slt b
  | 4 => a.ult b
  | 5 => !a.ult b
  | 6 => a &&& b != 0
  | _ => a &&& b == 0

/-- The floating conditions on encodings in F: 0 FEQ, 1 FLT, 2 FLE, 3 FUN; and NV where R113 raises it. -/
def floatCond (F : Fmt) (fn a b : Nat) : Bool × FFlags :=
  let p := decodeNum F a
  let q := decodeNum F b
  let nan := numIsNaN p || numIsNaN q
  let signalling := raiseIf (numIsSNaN p || numIsSNaN q) flagNV
  match fn with
  | 0 => (!nan && cmpNum p q == 0, signalling)
  | 1 => (!nan && decide (cmpNum p q < 0), raiseIf nan flagNV)
  | 2 => (!nan && decide (cmpNum p q ≤ 0), raiseIf nan flagNV)
  | _ => (nan, signalling)

/-- The combine of a compare's mask with the guard's (R112): 0 SET, 1 AND, 2 OR, 3 ANDN. -/
def combineMask (k : BitVec 2) (old m : BitVec 8) : BitVec 8 :=
  match k.toNat with
  | 0 => m
  | 1 => old &&& m
  | 2 => old ||| m
  | _ => old &&& ~~~m

def boolMask (b : Bool) : BitVec 8 := if b then 0xFF else 0

/-! ## Scalar floating-point operations (R140 to R144): results as encodings, with flags -/

/-- Round an exact value that an operation produced with flags of its own. -/
def roundWith (F : Fmt) (r : Rounding) (x : Exact) (f : FFlags) : Nat × FFlags :=
  let (n, g) := round F r false x
  (n, f ||| g)

def addBits (F : Fmt) (r : Rounding) (a b : Nat) : Nat × FFlags :=
  let (v, f) := addNum r (decodeNum F a) (decodeNum F b)
  roundWith F r (numExact v) f

def subBits (F : Fmt) (r : Rounding) (a b : Nat) : Nat × FFlags :=
  let (v, f) := addNum r (decodeNum F a) (numNegate (decodeNum F b))
  roundWith F r (numExact v) f

def mulBits (F : Fmt) (r : Rounding) (a b : Nat) : Nat × FFlags :=
  let (v, f) := mulNum (decodeNum F a) (decodeNum F b)
  roundWith F r (numExact v) f

def divBits (F : Fmt) (r : Rounding) (a b : Nat) : Nat × FFlags :=
  let (v, f) := divNum (decodeNum F a) (decodeNum F b)
  roundWith F r v f

def sqrtBits (F : Fmt) (r : Rounding) (a : Nat) : Nat × FFlags :=
  let (v, f) := sqrtNum (decodeNum F a)
  roundWith F r v f

/-- ±(a × b) ± c with one rounding; the negations come before it (R144). -/
def fmaBits (F : Fmt) (negProduct negAddend : Bool) (r : Rounding) (a b c : Nat) : Nat × FFlags :=
  let p := decodeNum F a
  let s := decodeNum F c
  let (v, f) := fmaNum r (if negProduct then numNegate p else p) (decodeNum F b) (if negAddend then numNegate s else s)
  roundWith F r (numExact v) f

/-- The sign operations of R142: 0 copy, 1 inverse, 2 XOR. -/
def signBits (F : Fmt) (fn a b : Nat) : Nat :=
  let sa := a / fmtSign F % 2
  let sb := b / fmtSign F % 2
  let sign := match fn with
    | 0 => sb
    | 1 => 1 - sb
    | _ => (sa + sb) % 2
  a % fmtSign F + sign * fmtSign F

end Sys2Proof.Machine
end

