-- ==== Sys2Proof/Machine/Park.lean ====
section
/-!
DEFINITION. Parking and waking (R96, R103, R104), and what a parked instruction does when it completes: its destination,
the chain ports (R170) included, and the move past it.
-/

namespace Sys2Proof.Machine

/-- Whether a write of the thread is still to be performed: a posted CORE write that its owner has not acknowledged (R163, R231). -/
def unperformed (t : Thread) : Bool := t.unacked != 0

/-- Park a thread that is in RUN or TRAPPED (R96). -/
def parkThread (t : Thread) (w : Wait) (len : Nat) : Thread :=
  { t with phase := .parked, parkedFrom := t.phase, wait := w, parkLen := len, soon := true }

/-- The state of a slot once its wait is over: the one it parked from, issuable from the next cycle; a slot halted meanwhile remembers
it (R96). -/
def unpark (t : Thread) : Thread :=
  match t.phase with
  | .parked => { t with phase := t.parkedFrom, wait := .none, soon := true }
  | .halted =>
    if t.haltedFrom = some .parked then { t with haltedFrom := some t.parkedFrom, wait := .none, soon := true } else t
  | _ => t

/-- A parked instruction completes: the thread moves past it. -/
def completeWait (t : Thread) : Thread := { unpark t with pc := t.pc + wordOf t.parkLen }

/-- The thread is woken to reissue its instruction, which `wait` = `.retry` says until it does. -/
def rewait (t : Thread) : Thread :=
  match t.phase with
  | .parked => { t with phase := t.parkedFrom, wait := .retry, soon := true }
  | .halted =>
    if t.haltedFrom = some .parked then { t with haltedFrom := some t.parkedFrom, wait := .retry, soon := true } else t
  | _ => t

/-- Chain words on their way to a slot. -/
def chainInFlight (s : State) (dst : Ref) : Nat :=
  (s.net.filter fun p => match p with
    | .chainWord _ d _ => d == dst
    | _ => false).length

/-- Whether a thread's push finds room: the queue of eight holds its words, those on the way, and a word whose pop is not
yet final (R170). -/
def chainRoom (s : State) (t : Thread) : Bool :=
  match t.down with
  | some d =>
    let u := refThread s d
    decide (u.chainIn.length + chainInFlight s d + (if u.popped.isSome then 1 else 0) < 8)
  | none => false

/-- Whether a reply waits for a thread that pre-emption has halted (R253, R418). -/
def replyHeld (s : State) (r : Ref) : Bool := (refThread s r).phase == .halted && (refThread s r).haltedFrom.isSome

/-- Write a destination register of the slot `r` when a parked instruction completes: with CHAIN = 1 a result for `x29`
is pushed, and a pop becomes final (R170). -/
def writeBack (s : State) (r : Ref) (d : Option (BitVec 5 × Word)) : State :=
  let t := refThread s r
  let s := modRef s r fun t => { t with popped := none }
  match d with
  | none => s
  | some (d, v) =>
    match t.csr.chain && d == 29, t.down with
    | true, some n => send s (.chainWord r n v)
    | _, _ => modRef s r fun t => setX t d v

/-- An instruction that traps has popped nothing: the word goes back to the front (R170). -/
def unpop (t : Thread) : Thread :=
  match t.popped with
  | some w => { t with popped := none, chainIn := w :: t.chainIn }
  | none => t

/-- The same where the instruction traps as it completes: it neither pops nor pushes, and `x29` is not written (log 148). -/
def writeTrapping (s : State) (r : Ref) (d : Option (BitVec 5 × Word)) : State :=
  let s := modRef s r unpop
  match d with
  | none => s
  | some (d, v) => modRef s r fun t => if t.csr.chain && d == 29 then t else setX t d v

end Sys2Proof.Machine
end

