-- ==== Sys2Proof/Machine/Fuller.lean ====
section
/-!
DEFINITION. Revisions (21): regions (R363), versions and ancestors held by the Fullers (R367, R368), reads and writes of
region granules, the merge functions (R365, R366) and the freeing of entries (R369).
-/

namespace Sys2Proof.Machine

/-- The region that holds an address, if one does. -/
def regionAt (s : State) (ctx va : Nat) : Option Region :=
  match getCtx? s ctx with
  | some c => c.regions.find? fun r => r.base ≤ va && va < r.base + r.size
  | none => none

def getRev? (s : State) (r : RevRef) : Option Rev := mapGet? (getCluster s r.home).revs r.index
def modRev (s : State) (r : RevRef) (f : Rev → Rev) : State :=
  modCluster s r.home fun c =>
    match mapGet? c.revs r.index with
    | some e => { c with revs := mapSet c.revs r.index (f e) }
    | none => c

/-- The saved clusters of a context, by their keys (R254). -/
def savedClusters (s : State) (ctx : Nat) : List (Nat × Cluster) :=
  match getCtx? s ctx with
  | some c => c.images.map fun p => (gridCluster ctx c p.1, p.2.cluster)
  | none => []

/-- Every revision entry of a context that is not FREE, those of saved clusters included. -/
def ctxRevs (s : State) (ctx : Nat) : List (RevRef × Rev) :=
  (s.clusters.filter (fun p => ctxOf (firstCore p.1) == ctx) ++ savedClusters s ctx).flatMap fun p =>
    p.2.revs.map fun q => (⟨p.1, q.1⟩, q.2)

/-- A child retains a granule's value, in its Fuller or in the image of its cluster. -/
def retainAt (s : State) (ctx g : Nat) (old : Version) (r : RevRef) : State :=
  let keep (c : Cluster) : Cluster := match mapGet? c.revs r.index with
    | some e => { c with revs := mapSet c.revs r.index { e with ancestors := mapSet e.ancestors g old } }
    | none => c
  if (savedClusters s ctx).any (·.1 == r.home) then
    modCtx s ctx fun c =>
      let here (p : Nat × Image) :=
        if gridCluster ctx c p.1 = r.home then (p.1, { p.2 with cluster := keep p.2.cluster }) else p
      { c with images := c.images.map here }
  else modCluster s r.home keep

/-- The version that a revision reads a granule from: its own, else the value captured at FORK, which is the retained ancestor or
the parent's own value; none where that is the root's (R367). `fuel` bounds the depth. -/
def revVersion (s : State) (g : Nat) : Nat → Option RevRef → Option Version
  | 0, _ => none
  | _ + 1, none => none
  | fuel + 1, some r =>
    match getRev? s r with
    | none => none
    | some e =>
      match mapGet? e.versions g, mapGet? e.ancestors g with
      | some v, _ => some v
      | none, some v => some v
      | none, none => revVersion s g fuel e.parent

/-- The value of a granule in a revision, and the stamp of its last writer; `root` is what the home slice holds. -/
def revValue (s : State) (ctx g : Nat) (root : BitVec 512) (fuel : Nat) (rev : Option RevRef) : Version :=
  match revVersion s g fuel rev with
  | some v => v
  | none => ⟨root, match getCtx? s ctx with
    | some c => mapGet c.rootStamps g 0
    | none => 0⟩

/-- A revision's depth is at most 15 (R371). -/
def revFuel : Nat := 17

/-- Granules of version storage used at a cluster's Fuller: versions, ancestors, and the draft versions of windows that
it holds (R368, R383). -/
def storeUsed (s : State) (ctx cluster : Nat) : Nat :=
  let revs := (getCluster s cluster).revs.foldl (fun n p => n + p.2.versions.length + p.2.ancestors.length) 0
  match getCtx? s ctx with
  | some c => c.spec.foldl (fun n p =>
      if p.2.whome = cluster then p.2.drafts.foldl (fun n q => n + q.2.length) n else n) revs
  | none => revs

/-- The spill of all Fullers of a context into its revision pool, once further granules are held at the given homes. -/
def storeSpill (s : State) (ctx : Nat) (extra : List Nat) : Nat :=
  let homes := (s.clusters.map (·.1) ++ (match getCtx? s ctx with
    | some c => c.spec.map (·.2.whome)
    | none => []) ++ extra).eraseDups.filter fun k => ctxOf (firstCore k) == ctx
  homes.foldl (fun n k => n + (storeUsed s ctx k + (extra.filter (· == k)).length - 4096)) 0

/-- Whether new granules, each at the Fuller of its home, find room in the stores and the pool. -/
def revRoom (s : State) (ctx : Nat) (extra : List Nat) : Bool :=
  match getCtx? s ctx with
  | some c => extra.isEmpty || decide (storeSpill s ctx extra ≤ ctxRevsize c / 64)
  | none => true

/-- The children of a revision (none: the root) for which a write of a granule must retain the captured value; `but` is
the child that a merge is folding in. -/
def retainFor (s : State) (ctx g : Nat) (rev : Option RevRef) (but : Option RevRef) : List RevRef :=
  (ctxRevs s ctx).filterMap fun p =>
    if p.2.parent = rev && some p.1 != but && (mapGet? p.2.ancestors g).isNone then some p.1 else none

/-- Write a granule of a region in a revision, or in the root: `none` where no room is left (R367, R368). For the root
the bytes at the home slice are the caller's to write; `pre` is the root's value before. -/
def revWrite (s : State) (ctx g : Nat) (rev but : Option RevRef) (pre : BitVec 512) (val : BitVec 512) (stamp : Word) : Option State :=
  let old := revValue s ctx g pre revFuel rev
  let keep := retainFor s ctx g rev but
  let fresh := match rev with
    | none => []
    | some r => match getRev? s r with
      | some e => if (mapGet? e.versions g).isNone then [r.home] else []
      | none => []
  if !revRoom s ctx (fresh ++ keep.map (·.home)) then none
  else
    let s := keep.foldl (fun s r => modRev s r fun e => { e with ancestors := mapSet e.ancestors g old }) s
    match rev with
    | none => some (modCtx s ctx fun c => { c with rootStamps := mapSet c.rootStamps g stamp })
    | some r => some (modRev s r fun e => { e with versions := mapSet e.versions g ⟨val, stamp⟩ })

/-- The granules of a context's regions that lie at a line of memory, by VA / 64: of the pages that have their frames there now. -/
def granulesAt (s : State) (ctx : Nat) (c : Context) (line : Nat) : List Nat :=
  c.regions.flatMap fun r => (List.range ((r.base + r.size + 65535) / 65536 - r.base / 65536)).filterMap fun i =>
    let page := (r.base / 65536 + i) * 65536
    match rawLeaf s ctx page with
    | some l =>
      let va := page + 64 * line % 65536
      if leafHere l && leafPa l page / 65536 = 64 * line / 65536 && r.base ≤ va && decide (va < r.base + r.size) then some (va / 64) else none
    | none => none

/-- A write by physical address: what live children captured of a root granule there is retained first (R220, R367); a write through the
context's own pages has retained it already, for every child but the one that a merge is folding in (R372). No room is asked for, since no such
write can trap (log 120). -/
def retainPhys (s : State) (pa n : Nat) (but : Option RevRef) : State :=
  s.contexts.foldl (fun s p =>
    if (ctxRevs s p.1).isEmpty then s
    else (List.range ((pa + n + 63) / 64 - pa / 64)).foldl (fun s i =>
      let line := pa / 64 + i
      (granulesAt s p.1 p.2 line).foldl (fun s g =>
        (retainFor s p.1 g none but).foldl (fun s r => retainAt s p.1 g (revValue s p.1 g (homeLine s line) revFuel none) r) s) s) s) s

/-- A write of main memory by whatever agent: what children captured is retained first, then come the bytes, the poison of lines that
they cover, and the evictions of entries that they meet. -/
def softWrite (s : State) (pa : Nat) (bs : List Byte) (but : Option RevRef := none) : State :=
  abandonEvictions (clearLine (memWrite (retainPhys s pa bs.length but) pa bs) pa bs.length) pa bs.length

/-- Write bytes within one line: the home slice holds them, and the writer's own cached line is updated (R231). -/
def homeWrite (s : State) (core pa : Nat) (bs : List Byte) (but : Option RevRef := none) : State :=
  let s := softWrite s pa bs but
  let cl := clusterOf core
  match mapGet? (getCluster s cl).cache (pa / 64) with
  | some v => modCluster s cl fun c => { c with cache := mapSet c.cache (pa / 64) (lineWrite v (pa % 64) bs) }
  | none => s

/-! ## Merges (R365, R366) -/

/-- A granule cut into elements of `n` bytes, combined element by element. -/
def byElement (n : Nat) (f : Nat → Nat → Nat → Nat) (p c a : BitVec 512) : BitVec 512 :=
  let part (v : BitVec 512) (i : Nat) : Nat := fieldOf v (8 * n * i) (8 * n)
  BitVec.ofNat 512 ((List.range (64 / n)).foldl (fun acc i => acc + f (part p i) (part c i) (part a i) * 2 ^ (8 * n * i)) 0)

/-- A number of `w` bits read as two's complement. -/
def toSigned (w n : Nat) : Int := if n < 2 ^ (w - 1) then n else (n : Int) - 2 ^ w

/-- An exact cell's merge (R366): VAL in the low 192 bits, ANCHOR at 192, then OVF, NAN, PINF, NINF from 208. -/
def mergeCell (p c a : Nat) : Nat :=
  let anchor (x : Nat) := x / 2 ^ 192 % 2 ^ 16
  let flag (x i : Nat) := x / 2 ^ (208 + i) % 2
  if anchor p = anchor c ∧ anchor c = anchor a then
    let sum := toSigned 192 (p % 2 ^ 192) + toSigned 192 (c % 2 ^ 192) - toSigned 192 (a % 2 ^ 192)
    let out := decide (sum < -(2 ^ 191 : Int)) || decide (sum ≥ (2 ^ 191 : Int))
    let ovf := if flag p 0 = 1 ∨ flag c 0 = 1 ∨ out then 1 else 0
    (sum % 2 ^ 192).toNat + anchor p * 2 ^ 192
      + (ovf + 2 * (flag p 1 ||| flag c 1) + 4 * (flag p 2 ||| flag c 2) + 8 * (flag p 3 ||| flag c 3)) * 2 ^ 208
  else if flag p 1 = 1 then p else p + 2 ^ 209

/-- The merge of one granule (R365): `wrote` when an ancestor was retained, and the stamps of the child's and the
parent's versions. -/
def mergeGranule (type : Nat) (p c a : BitVec 512) (wrote : Bool) (sc sp : Word) : BitVec 512 :=
  match type with
  | 0 => c
  | 1 => if wrote then p else c
  | 2 => byElement 8 (fun p c a => (p + c + (2 ^ 64 - a)) % 2 ^ 64) p c a
  | 3 => byElement 4 (fun p c a => (p + c + (2 ^ 32 - a)) % 2 ^ 32) p c a
  | 4 => byElement 32 mergeCell p c a
  | 5 => byElement 8 (fun p c _ => if toSigned 64 c < toSigned 64 p then c else p) p c a
  | 6 => byElement 8 (fun p c _ => if toSigned 64 p < toSigned 64 c then c else p) p c a
  | 7 => byElement 4 (fun p c _ => (minMaxNum Fmt.fp32 false p c).1) p c a
  | 8 => byElement 4 (fun p c _ => (minMaxNum Fmt.fp32 true p c).1) p c a
  | 9 => p ||| (c &&& ~~~a)
  | 10 => p &&& ~~~(a &&& ~~~c)
  | 11 => p ^^^ a ^^^ c
  | _ => if sp < sc || !wrote then c else p

/-! ## Entries -/

/-- Free an entry with its versions and ancestors (R369). A live child of its own, which only a halted revision can leave
behind, keeps the values it captured and hangs from the entry's parent (log 14). -/
def freeRev (s : State) (ctx : Nat) (r : RevRef) : State :=
  match getRev? s r with
  | none => s
  | some e =>
    let s := ((ctxRevs s ctx).filter fun p => p.2.parent = some r).foldl (fun s p =>
      modRev s p.1 fun x =>
        let keep (m : SMap Version) (from_ : SMap Version) : SMap Version :=
          from_.foldl (fun m q => if (mapGet? m q.1).isNone then mapSet m q.1 q.2 else m) m
        { x with ancestors := keep (keep x.ancestors e.versions) e.ancestors, parent := e.parent }) s
    modCluster s r.home fun c => { c with revs := mapErase c.revs r.index }

/-- A child's revision ends: DONE or HALTED, and an orphan is freed at once (R369). -/
def endRev (s : State) (ctx : Nat) (r : RevRef) (phase : RevPhase) : State :=
  match getRev? s r with
  | none => s
  | some e => if e.orphan then freeRev s ctx r else modRev s r fun e => { e with phase := phase }

/-- The parent has halted by a double fault: its children are orphans, and those that have ended are freed (R369). -/
def orphanChildren (s : State) (ctx : Nat) (cs : List Child) : State :=
  cs.foldl (fun s c =>
    match getRev? s c.ref with
    | none => s
    | some e =>
      if e.phase = .done ∨ e.phase = .halted then freeRev s ctx c.ref else modRev s c.ref fun e => { e with orphan := true }) s

end Sys2Proof.Machine
end

