-- ==== Sys2Proof/Machine/Tree.lean ====
section
/-!
DEFINITION. The completion tree (R301, R302): live counters of cores and of the nodes above them, and the up and done
messages between them. A node is named by a number: 0 the root, 1 + d Z-die d, 16 + cy * 256 + cx a cluster of the grid,
2^20 + packed a core.
-/

namespace Sys2Proof.Machine

def nodeRoot : Nat := 0
def nodeDie (d : Nat) : Nat := 1 + d
def nodeCluster (core : Nat) : Nat := 16 + clusterNumber' core
where clusterNumber' (core : Nat) : Nat := cyOf core * 256 + cxOf core
def nodeCore (core : Nat) : Nat := 2 ^ 20 + packedOf core

/-- The core whose place is that of a node's, as a key, and the parent of a node. -/
def nodeParent (s : State) (ctx node : Nat) : Nat :=
  if node ≥ 2 ^ 20 then nodeCluster (coreKey ctx (node - 2 ^ 20))
  else if node ≥ 16 then
    let n := node - 16
    nodeDie (dieOf s (coreKey ctx (n % 256 * 4096 + n / 256 * 16)))
  else nodeRoot

/-- Join two status words: OR of [31:12], saturating sum of [11:0] (R302). -/
def joinWords (a b : BitVec 32) : BitVec 32 :=
  BitVec.ofNat 32 (((a ||| b).toNat / 2 ^ 12) * 2 ^ 12 + Nat.min 4095 (fieldOf a 0 12 + fieldOf b 0 12))

def statusRefused : BitVec 32 := 0x80000000
def statusDeadline : BitVec 32 := 0x40000000
def statusTrailFull : BitVec 32 := 0x20000000
def statusTrailLeft : BitVec 32 := 0x10000000
def statusHfault : BitVec 32 := 0x8000
def statusRwref : BitVec 32 := 0x4000
def statusDouble : BitVec 32 := 0x2000
def statusDumped : BitVec 32 := 0x1000

/-- The class bit of a cause and one thread retired by trap (R302); a `TRAPCAUSE` that no cause has (R416) lies in no class. -/
def statusTrap (cause : BitVec 8) : BitVec 32 :=
  BitVec.ofNat 32 ((if cause.toNat / 16 < 12 then 2 ^ (16 + cause.toNat / 16) else 0) + 1)

def modLaunch (s : State) (ctx : Nat) (launch : BitVec 32) (f : Launch → Launch) : State :=
  modCtx s ctx fun c =>
    match mapGet? c.launches launch.toNat with
    | some l => { c with launches := mapSet c.launches launch.toNat (f l) }
    | none => c

def getLaunch? (s : State) (ctx : Nat) (launch : BitVec 32) : Option Launch :=
  match getCtx? s ctx with
  | some c => mapGet? c.launches launch.toNat
  | none => none

def nodeCount (s : State) (ctx : Nat) (launch : BitVec 32) (node : Nat) : Nat :=
  match getLaunch? s ctx launch with
  | some l => mapGet l.tree node 0
  | none => 0

/-- Add a unit or a child at a node above the cores; going from 0 to 1 it tells its parent. -/
def nodeAdd (s : State) (ctx : Nat) (launch : BitVec 32) (node : Nat) : State :=
  let n := nodeCount s ctx launch node
  let s := modLaunch s ctx launch fun l => { l with tree := mapSet l.tree node (n + 1) }
  if n = 0 ∧ node ≠ nodeRoot then send s (.up ctx launch node (nodeParent s ctx node)) else s

/-- Remove one, with the status word it carries; going back to 0 the node tells its parent. -/
def nodeSub (s : State) (ctx : Nat) (launch : BitVec 32) (node : Nat) (word : BitVec 32) : State :=
  let n := nodeCount s ctx launch node
  let w := match getLaunch? s ctx launch with
    | some l => joinWords (mapGet l.words node 0) word
    | none => word
  if n = 1 ∧ node ≠ nodeRoot then
    let s := modLaunch s ctx launch fun l => { l with tree := mapErase l.tree node, words := mapErase l.words node }
    send s (.done ctx launch node (nodeParent s ctx node) w)
  else modLaunch s ctx launch fun l => { l with tree := mapSet l.tree node (n - 1), words := mapSet l.words node w }

/-- The launch behind a tag of a core. -/
def tagLaunch (c : Core) (tag : Nat) : BitVec 32 := (c.tags.get (Fin.ofNat 4 tag)).getD 0

/-- The launch that a thread's unit of live work counts for: of a fragment thread, that of OPEN (R403). -/
def liveLaunch (s : State) (r : Ref) : BitVec 32 := tagLaunch (getCore s r.core) (refThread s r).ltag

/-- A unit more at a core's counter of a tag. -/
def liveAdd (s : State) (core tag : Nat) : State :=
  let c := getCore s core
  let i : Fin 4 := Fin.ofNat 4 tag
  let n := c.live.get i
  let s := setCore s core { c with live := c.live.set i (n + 1) }
  if n = 0 then send s (.up (ctxOf core) (tagLaunch c tag) (nodeCore core) (nodeCluster core)) else s

/-- A unit less; at 0 the core sends done with its status word, and the tag is free (R301). -/
def liveSub (s : State) (core tag : Nat) : State :=
  let c := getCore s core
  let i : Fin 4 := Fin.ofNat 4 tag
  let n := c.live.get i
  if n = 1 then
    let s := setCore s core { c with live := c.live.set i 0, status := c.status.set i 0, tags := c.tags.set i none }
    send s (.done (ctxOf core) (tagLaunch c tag) (nodeCore core) (nodeCluster core) (c.status.get i))
  else setCore s core { c with live := c.live.set i (n - 1) }

/-- Record in a core's status word of a tag. -/
def recordStatus (s : State) (core tag : Nat) (w : BitVec 32) : State :=
  modCore s core fun c =>
    let i : Fin 4 := Fin.ofNat 4 tag
    { c with status := c.status.set i (joinWords (c.status.get i) w) }

/-- Set a bit of the core's status word that no one thread causes (R148, R167, R289): in the words of every tag with
live work (log 12). -/
def recordCoreStatus (s : State) (core : Nat) (w : BitVec 32) : State :=
  modCore s core fun c =>
    { c with status := Vector.ofFn fun i : Fin 4 => if c.live.get i = 0 then c.status.get i else c.status.get i ||| w }

/-- The tag that a launch has on a core, if it has one. -/
def launchTag? (c : Core) (launch : BitVec 32) : Option Nat :=
  (List.range 4).find? fun i => c.tags.get (Fin.ofNat 4 i) == some launch

/-- The tag of a launch on a core, taking the lowest free one where it has none (R299). -/
def takeTag (s : State) (core : Nat) (launch : BitVec 32) : State × Nat :=
  let c := getCore s core
  match launchTag? c launch with
  | some i => (s, i)
  | none =>
    let i := ((List.range 4).find? fun i => c.tags.get (Fin.ofNat 4 i) == none).getD 0
    (setCore s core { c with tags := c.tags.set (Fin.ofNat 4 i) (some launch) }, i)

/-! ## Live work (R297, R300, R301) -/

/-- A thread that has been dispatched and has neither retired nor halted for good. -/
def isLive (t : Thread) : Bool :=
  match t.phase with
  | .run | .parked | .trapped => true
  | .halted => t.haltedFrom.isSome
  | _ => false

def userSlots (c : Core) : List (Nat × Thread) := (List.range 15).map fun i => (i, coreSlot c (slotOf i))

/-- Whether a core holds threads, bound or dispatched (R297). -/
def coreThreads (c : Core) : Bool := (userSlots c).any fun p => isLive p.2 || p.2.phase == .bound

/-- Whether a core holds live work: its threads, and, on core 0, the records of its Hamper (R301, R347). -/
def coreBusy (c : Core) : Bool := c.live.toList.any (· != 0)

/-- How many launches are live on a core: each fragment launch with a thread there, whose live work stands under the tag of OPEN's launch,
and each launch with live work beside its fragment threads (R297, R403, log 146). -/
def liveLaunches (c : Core) : Nat :=
  let threads := (userSlots c).map (·.2) |>.filter fun t => isLive t || t.phase == .bound
  let frags := threads.filter fun t => t.launch != tagLaunch c t.ltag
  let own := (List.range 4).countP fun i => (c.tags.get (Fin.ofNat 4 i)).isSome
    && decide (frags.countP (·.ltag == i) < c.live.get (Fin.ofNat 4 i))
  (frags.map (·.launch)).eraseDups.length + own

/-- Whether a core has a tag for a launch, or one to give (R297, R301). -/
def tagRoom (c : Core) (launch : BitVec 32) : Bool := (launchTag? c launch).isSome || c.tags.toList.any (· == none)

end Sys2Proof.Machine
end

