-- ==== Sys2Proof/Machine/TaskUnit.lean ====
section
/-!
DEFINITION. Tasks, mailboxes, bounces and the per-core queues of 15: the verdict of a task's home slice (R285), delivery
to a slot (R288), bounces (R289), the sleep table and the ready queue (R287), and the exit of a slot's tasks (R286).
-/

namespace Sys2Proof.Machine

def taskIndex (id : BitVec 32) : Nat := fieldOf id 12 20
def taskGen (id : BitVec 32) : BitVec 12 := BitVec.ofNat 12 (fieldOf id 0 12)
def taskId (index : Nat) (gen : BitVec 12) : BitVec 32 := BitVec.ofNat 32 (index * 4096 + gen.toNat)

def bounceExited : Nat := 1
def bounceStale : Nat := 2
def bounceMboxFull : Nat := 3

/-- The generation that follows: 1 after 4,095, and 1 for an entry never used (R286). -/
def nextGen (g : BitVec 12) : BitVec 12 := if g = 4095 then 1 else g + 1

def getTask? (s : State) (ctx index : Nat) : Option Task :=
  match getCtx? s ctx with
  | some c => mapGet? c.tasks index
  | none => none

def setTask (s : State) (ctx index : Nat) (t : Task) : State := modCtx s ctx fun c => { c with tasks := mapSet c.tasks index t }

/-- The id of a task entry by its index. -/
def currentId (s : State) (ctx index : Nat) : BitVec 32 :=
  match getCtx? s ctx with
  | some c => taskId index (mapGet c.taskGens index 0)
  | none => 0

/-- Put a message among others by the order of its verdict (R285). -/
def insertByVerdict (m : TaskMsg) : List TaskMsg → List TaskMsg
  | [] => [m]
  | a :: r => if m.order < a.order then m :: a :: r else a :: insertByVerdict m r

def mailboxCap (s : State) (ctx : Nat) : Nat :=
  match getCtx? s ctx with
  | some c => ctxMboxcap c
  | none => 0

/-- Append to the memory mailbox, or bounce where it is full (R285). -/
def mboxAppend (s : State) (ctx : Nat) (t : Task) (m : TaskMsg) : State :=
  if t.mbox.length ≥ mailboxCap s ctx then
    send (setTask s ctx (taskIndex m.task) t) (.bounce { m with status := bounceMboxFull })
  else setTask s ctx (taskIndex m.task) { t with mbox := insertByVerdict m t.mbox }

/-- The oldest messages of a memory mailbox leave it, and MHEAD moves past them (R284). -/
def mboxAdvance (s : State) (ctx n : Nat) (t : Task) : Task :=
  { t with mbox := t.mbox.drop n, mhead := (t.mhead + n) % Nat.max 1 (mailboxCap s ctx) }

/-- Messages go to the front of a memory mailbox, in order (R286). -/
def mboxFront (s : State) (ctx : Nat) (ms : List TaskMsg) (t : Task) : Task :=
  let cap := Nat.max 1 (mailboxCap s ctx)
  { t with mbox := ms ++ t.mbox, mhead := (t.mhead + cap - ms.length % cap) % cap }

/-- The verdict of the home slice on a message (R285). -/
def taskVerdict (s : State) (ctx : Nat) (m : TaskMsg) : State :=
  match getTask? s ctx (taskIndex m.task) with
  | none => send s (.bounce { m with status := bounceStale })
  | some t =>
    if currentId s ctx (taskIndex m.task) ≠ m.task then send s (.bounce { m with status := bounceStale })
    else
      let m := { m with order := t.verdicts }
      let t := { t with verdicts := t.verdicts + 1 }
      match t.phase with
      | .exited => send s (.bounce { m with status := bounceExited })
      | .unplaced => mboxAppend s ctx t m
      | .swapped => mboxAppend s ctx { t with want := true } m
      | .placed =>
        if t.mbox.isEmpty then send (setTask s ctx (taskIndex m.task) t) (.forward t.place m false)
        else mboxAppend s ctx t m

/-- Append a task to a core's ready queue; false where the priority is full (R287). -/
def readyPush (c : Core) (task : BitVec 32) (prio : Nat) : Core × Bool :=
  let i : Fin 4 := Fin.ofNat 4 prio
  let q := c.ready.get i
  if q.length ≥ 16 then (c, false) else ({ c with ready := c.ready.set i (q ++ [task]) }, true)

def readyEmpty (c : Core) : Bool := c.ready.toList.all (·.isEmpty)

/-- A message for a task wakes its sleep-table entry (R288); a woken entry that finds no room goes behind the others. -/
def wakeSleeper (c : Core) (task : BitVec 32) : Core :=
  match (c.sleepers.find? fun e => e.task == task && !e.woken).orElse fun _ => c.sleepers.find? (·.task == task) with
  | none => c
  | some e =>
    let rest := c.sleepers.erase e
    let (c', ok) := readyPush c task e.prio
    if ok then { c' with sleepers := rest }
    else if e.woken then c
    else { c with sleepers := rest ++ [{ e with woken := true }] }

/-- Append woken entries in the order they woke, as far as there is room (R288). -/
def drainWoken (c : Core) : Core :=
  (c.sleepers.filter (·.woken)).foldl (fun c e =>
    let (c', ok) := readyPush c e.task e.prio
    if ok then { c' with sleepers := c'.sleepers.erase e } else c) c

/-- Forwards that a core has asked for and that are still to come to a slot. -/
def askedInFlight (s : State) (dst : Ref) : Nat :=
  (s.net.filter fun p => match p with
    | .forward d _ asked => asked && d == dst
    | .ask d _ => d == dst
    | _ => false).length

/-- A forward reaches a slot: it enters the mailbox, or is refused and goes back to the memory mailbox (R285, R288).
A message whose task has gone meanwhile, whatever holds its entry now, bounces EXITED (R286). -/
def deliverTo (s : State) (dst : Ref) (m : TaskMsg) (asked : Bool) : State :=
  let ctx := ctxOf dst.core
  match getTask? s ctx (taskIndex m.task) with
  | none => send s (.bounce { m with status := bounceExited })
  | some e =>
    if currentId s ctx (taskIndex m.task) ≠ m.task then send s (.bounce { m with status := bounceExited })
    else match e.phase with
    | .exited => send s (.bounce { m with status := bounceExited })
    | .placed =>
      let dst := e.place
      let t := refThread s dst
      if !asked && (decide (t.mailbox.length + askedInFlight s dst ≥ 8) || t.refusal.contains m.task) then
        let s := modRef s dst fun t =>
          if t.refusal.contains m.task then t
          else if t.refusal.length ≥ 16 then { t with overflowed := true }
          else { t with refusal := t.refusal ++ [m.task] }
        mboxAppend s ctx e m
      else
        let s := modRef s dst fun t => { t with mailbox := t.mailbox ++ [m], event := true }
        modCore s dst.core fun c => wakeSleeper c m.task
    | _ => mboxAppend s ctx e m

/-- Take a task's oldest memory-mailbox message for its slot. -/
def takeFromMbox (s : State) (ctx index : Nat) : Option (State × TaskMsg) :=
  match getTask? s ctx index with
  | some t =>
    match t.mbox with
    | m :: _ => some (setTask s ctx index (mboxAdvance s ctx 1 t), m)
    | [] => none
  | none => none

/-- Whether a forward of a task is on its way to a slot. -/
def forwardInFlight (s : State) (dst : Ref) (id : BitVec 32) : Bool :=
  s.net.any fun p => match p with
    | .forward d m _ => d == dst && m.task == id
    | _ => false

/-- The core asks for one forward: the tasks of the refusal list in order, each leaving the list when its mailbox is
empty; then, where the slot is overflowed, the slot's own task and its run (R285). While a forward of the task is under way, which the
slot will refuse, the request waits behind it, so that the home slice answers with what it then holds (log 149). -/
def askRefused (s : State) (r : Ref) : List (BitVec 32) → State × Bool
  | [] => (s, false)
  | id :: rest =>
    match takeFromMbox s (ctxOf r.core) (taskIndex id) with
    | some (s, m) => (send s (.forward r m true), true)
    | none =>
      if forwardInFlight s r id then (send s (.ask r id), true)
      else askRefused (modRef s r fun t => { t with refusal := t.refusal.filter (· != id) }) r rest

def askPass (s : State) (r : Ref) : List Nat → State
  | [] => modRef s r fun t => { t with overflowed := false }
  | i :: rest =>
    match takeFromMbox s (ctxOf r.core) i with
    | some (s, m) => send s (.forward r m true)
    | none => askPass s r rest

def taskIndices (t : Thread) : List Nat := if t.taskRun = 0 then [] else (List.range t.taskRun).map (· + t.taskBase)

def askForward (s : State) (r : Ref) : State :=
  let t := refThread s r
  let (s, done) := askRefused s r t.refusal
  if done then s else if t.overflowed then askPass s r (taskIndices t) else s

/-- The memory mailbox of a task that is placed is forwarded to its slot before the thread's next issue (R286). -/
def placeTask (s : State) (ctx index : Nat) (place : Ref) : State :=
  match getTask? s ctx index with
  | none => s
  | some t =>
    let s := setTask s ctx index { mboxAdvance s ctx t.mbox.length t with phase := .placed, want := false, place := place }
    t.mbox.foldl (fun s m => deliverTo s place m false) s

/-- The numbers of the live threads of a context, those of its saved clusters among them. -/
def liveNumbers (s : State) (ctx : Nat) : List (BitVec 32) :=
  let saved := match getCtx? s ctx with
    | some c => c.images.flatMap fun p => p.2.cores
    | none => []
  ((s.cores.filter fun p => ctxOf p.1 == ctx) ++ saved).flatMap fun p =>
    (userSlots p.2).filterMap fun q => if isLive q.2 then some q.2.number else none

/-- The first number from n on that is not in use. -/
def freshNumber (used : List (BitVec 32)) (n : BitVec 32) : Nat → BitVec 32
  | 0 => n
  | fuel + 1 => if used.contains n then freshNumber used (n + 1) fuel else n

/-- The number of the next thread of a context: the one after the last given that no live thread has (R289). -/
def nextNumber (s : State) (ctx : Nat) : BitVec 32 :=
  match getCtx? s ctx with
  | some c => freshNumber (liveNumbers s ctx) (c.threadNumber + 1) (liveNumbers s ctx).length
  | none => 0

/-- The thread of a context with a number, if one is live (R289). -/
def threadByNumber (s : State) (ctx : Nat) (n : BitVec 32) : Option Ref :=
  (s.cores.filter fun p => ctxOf p.1 == ctx).findSome? fun p =>
    (userSlots p.2).findSome? fun q => if isLive q.2 && q.2.number == n then some ⟨p.1, q.1⟩ else none

/-- A bounce reaches its sender (R289). -/
def deliverBounce (s : State) (m : TaskMsg) : State :=
  if m.sender.slot = 15 then
    let s := modCore s m.sender.core fun c =>
      { c with handlerBounces := if c.handlerBounces = 0xFFFF then 0xFFFF else c.handlerBounces + 1 }
    recordCoreStatus s m.sender.core statusHfault
  else
    match threadByNumber s (ctxOf m.sender.core) m.number with
    | none => s
    | some r =>
      modRef s r fun t =>
        if t.bounces.length < 4 then { t with bounces := t.bounces ++ [m] }
        else { t with lost := t.lost + 1, lostTask := if t.msgLost then t.lostTask else m.task, msgLost := true }

/-- Messages bounce EXITED to their senders, in order. -/
def bounceAll (s : State) (ms : List TaskMsg) : State := ms.foldl (fun s m => send s (.bounce { m with status := bounceExited })) s

/-- Entries go to EXITED, and the messages of their memory mailboxes bounce (R286). -/
def exitEntries (s : State) (ctx : Nat) (is : List Nat) : State :=
  is.foldl (fun s i =>
    match getTask? s ctx i with
    | none => s
    | some e => setTask (bounceAll s e.mbox) ctx i { e with phase := .exited, mbox := [], want := false }) s

/-- The slot's tasks exit: mailbox messages and then those in memory bounce EXITED (R286). -/
def exitTasks (s : State) (r : Ref) : State :=
  let t := refThread s r
  let s := exitEntries (bounceAll s t.mailbox) (ctxOf r.core) (taskIndices t)
  modRef s r fun t => { t with mailbox := [], refusal := [], overflowed := false, taskRun := 0 }

/-- A task-table entry as R284 lays it out; Hjelec chooses MBASE (log 114). -/
def taskEntry (s : State) (ctx index : Nat) : BitVec 256 :=
  let id := currentId s ctx index
  match getTask? s ctx index with
  | none => BitVec.ofNat 256 (taskGen id).toNat
  | some t =>
    let state := match t.phase with
      | .unplaced => 1
      | .placed => 2
      | .swapped => 3
      | .exited => 4
    BitVec.ofNat 256 ((taskGen id).toNat + state * 2 ^ 32 + (if t.want then 2 ^ 39 else 0) + t.place.slot * 2 ^ 40
      + packedOf t.place.core * 2 ^ 44 + t.mbox.length * 2 ^ 144 + t.mhead * 2 ^ 160 + mailboxCap s ctx * 2 ^ 176
      + (Config.mailboxBase ctx index).toNat * 2 ^ 192)

/-- A memory-mailbox entry (R284). -/
def mailboxEntry (m : TaskMsg) : BitVec 256 :=
  BitVec.ofNat 256 (m.lo.toNat + m.hi.toNat * 2 ^ 64 + packedOf m.sender.core * 2 ^ 128 + m.sender.slot * 2 ^ 160 + m.number.toNat * 2 ^ 192)

end Sys2Proof.Machine
end

