-- ==== Sys2Proof/Machine/PartyUnit.lean ====
section
/-!
DEFINITION. Parties (17): the party record at its home slice, the cluster party table and the slot's list (R307 to R311).
-/

namespace Sys2Proof.Machine

def partyRec (s : State) (ctx p : Nat) : Party :=
  match getCtx? s ctx with
  | some c => mapGet c.parties p ⟨0, 0, []⟩
  | none => ⟨0, 0, []⟩

/-- Where record p of a context's party table lies (R307). -/
def partyPa (s : State) (ctx p : Nat) : Nat := reservedPa s (Config.partyBase ctx) 64 + 8256 * p

/-- Byte j of a party record's MAP (R308). -/
def partyMapByte (r : Party) (j : Nat) : Byte :=
  BitVec.ofNat 8 (((List.range 8).filter fun k => r.map.contains (8 * j + k)).map (2 ^ ·)).sum

/-- What a change of a party record writes in memory: SIZE and JOINS of the header, and the bytes of MAP that change (R308). -/
def partyStore (s : State) (ctx p : Nat) (old new : Party) : State :=
  let moved := (old.map ++ new.map).filter fun n => old.map.contains n != new.map.contains n
  moved.foldl (fun s n => softWrite s (partyPa s ctx p + 64 + n / 8) [partyMapByte new (n / 8)])
    (softWrite s (partyPa s ctx p) (leBytes 4 new.size ++ valBytes 4 new.joins))

/-- Write a party record; a record without members and map is ABSENT. -/
def setPartyRec (s : State) (ctx p : Nat) (r : Party) : State :=
  modCtx (partyStore s ctx p (partyRec s ctx p) r) ctx fun c =>
    { c with parties := if r = ⟨0, 0, []⟩ then mapErase c.parties p else mapSet c.parties p r }

def partyCounts (s : State) (core p : Nat) : List Nat := mapGet (getCluster s (clusterOf core)).parties p (List.replicate 16 0)

/-- The cluster entry and the MAP bit count one member more on a core, before the join (R310). -/
def partyEnter (s : State) (core p : Nat) : State :=
  let counts := partyCounts s core p
  let k := coreIndex core
  let s := modCluster s (clusterOf core) fun c => { c with parties := mapSet c.parties p (counts.set k (counts.getD k 0 + 1)) }
  let r := partyRec s (ctxOf core) p
  setPartyRec s (ctxOf core) p { r with map := setAdd r.map (cyOf core * 256 + cxOf core) }

/-- One member less, after the leave (R310). -/
def partyDepart (s : State) (core p : Nat) : State :=
  let counts := partyCounts s core p
  let k := coreIndex core
  let counts := counts.set k (counts.getD k 0 - 1)
  if counts.all (· == 0) then
    let s := modCluster s (clusterOf core) fun c => { c with parties := mapErase c.parties p }
    let r := partyRec s (ctxOf core) p
    setPartyRec s (ctxOf core) p { r with map := setDel r.map (cyOf core * 256 + cxOf core) }
  else modCluster s (clusterOf core) fun c => { c with parties := mapSet c.parties p counts }

/-- A join at the home slice: the state after it, and the rank (R310). -/
def partyJoin (s : State) (ctx p : Nat) : State × BitVec 32 :=
  let r := partyRec s ctx p
  if r.size = 0 then (setPartyRec s ctx p { r with size := 1, joins := 1 }, 0)
  else (setPartyRec s ctx p { r with size := r.size + 1, joins := r.joins + 1 }, r.joins)

/-- A leave at the home slice (R310). -/
def partyLeave (s : State) (ctx p : Nat) : State :=
  let r := partyRec s ctx p
  if r.size ≤ 1 then setPartyRec s ctx p ⟨0, 0, []⟩ else setPartyRec s ctx p { r with size := r.size - 1 }

/-- A thread leaves one party. -/
def leaveParty (s : State) (r : Ref) (p : Nat) : State :=
  let s := partyDepart (partyLeave s (ctxOf r.core) p) r.core p
  modRef s r fun t => { t with parties := t.parties.filter (·.1 != p) }

/-- A thread leaves every party of its list, in order (R311). -/
def leaveAll (s : State) (r : Ref) : State := (refThread s r).parties.foldl (fun s q => leaveParty s r q.1) s

/-- The clusters in which a party has members, and the cores of one (R308, R309). -/
def partyClusters (s : State) (ctx p : Nat) : List Nat := (partyRec s ctx p).map

end Sys2Proof.Machine
end

