-- ==== Sys2Proof/Machine/Hamper.lean ====
section
/-!
DEFINITION. The Hampers (20): traversal handles (R342), counts (R347), the store and the hand-over of pair records
(R344 to R346).
-/

namespace Sys2Proof.Machine

def handleIndex (h : Word) : Nat := fieldOf h 0 4
def handleGen (h : Word) : Nat := fieldOf h 4 12
def handleHome (ctx : Nat) (h : Word) : Nat := clusterOf (coreKey ctx (fieldOf h 16 20))
def travHandle (cluster gen index : Nat) : Word := wordOf (packedOf (firstCore cluster) * 2 ^ 16 + gen * 16 + index)

/-- The home entry that a handle names, whether OPEN or ended: HOME names core 0 of its cluster (R342). -/
def travEntry (s : State) (ctx : Nat) (h : Word) : Option Traversal :=
  let c := getCluster s (handleHome ctx h)
  if fieldOf h 16 4 = 0 ∧ fieldOf h 36 28 = 0 ∧ mapGet c.gens (handleIndex h) 0 = handleGen h then mapGet? c.traversals (handleIndex h)
  else none

/-- A handle is live while its entry holds GEN and the traversal is OPEN. -/
def travLive (s : State) (ctx : Nat) (h : Word) : Option Traversal :=
  match travEntry s ctx h with
  | some t => if t.ended then none else some t
  | none => none

def travCount (c : Cluster) (h : Word) : Nat :=
  match c.members.find? (·.handle == h) with
  | some m => m.count
  | none => 0

/-- The entries of a cluster's table of sixteen that are free: neither a home entry nor a member entry. -/
def freeEntries (c : Cluster) : List Nat :=
  (List.range 16).filter fun i => (mapGet? c.traversals i).isNone && !c.members.any (·.index == i)

def setTravCount (c : Cluster) (h : Word) (n : Nat) : Cluster :=
  if c.members.any (·.handle == h) then
    { c with members := c.members.map fun m => if m.handle == h then { m with count := n } else m }
  else { c with members := c.members ++ [⟨h, (freeEntries c).headD 0, n⟩] }

/-- Whether a cluster has an entry for a traversal, or room for one (R362). -/
def memberRoom (s : State) (ctx cluster : Nat) (h : Word) : Bool :=
  handleHome ctx h == cluster || (getCluster s cluster).members.any (·.handle == h)
    || !(freeEntries (getCluster s cluster)).isEmpty

/-- Whether packets hold an `up` of a traversal. -/
def countUps (net : List Packet) (h : Word) (ctx : Nat) : Bool :=
  net.any fun p => match p with
    | .count h' src _ up => up && h' == h && ctxOf (firstCore src) == ctx
    | _ => false

/-- The home cluster's count has reached zero: the traversal ends (R347). -/
def travCheck (s : State) (ctx : Nat) (h : Word) : State :=
  match travEntry s ctx h with
  | some t =>
    if travCount (getCluster s (handleHome ctx h)) h = 0 && t.members.isEmpty && !countUps s.net h ctx then
      modCluster s (handleHome ctx h) fun c => { c with traversals := mapSet c.traversals (handleIndex h) { t with ended := true } }
    else s
  | none => s

/-- One more PENDING or HELD pair of a traversal in a cluster; a member's first tells the home. -/
def travAdd (s : State) (ctx cluster : Nat) (h : Word) : State :=
  let n := travCount (getCluster s cluster) h
  let s := modCluster s cluster fun c => setTravCount c h (n + 1)
  if n = 0 ∧ cluster ≠ handleHome ctx h then send s (.count h cluster (handleHome ctx h) true) else s

/-- One less; a member's last tells the home. -/
def travSub (s : State) (ctx cluster : Nat) (h : Word) : State :=
  let n := travCount (getCluster s cluster) h
  let s := modCluster s cluster fun c => setTravCount c h (n - 1)
  if n = 1 then
    if cluster ≠ handleHome ctx h then send s (.count h cluster (handleHome ctx h) false) else travCheck s ctx h
  else s

/-- A record is a unit of live work of its launch at core 0 of its cluster (R347). -/
def recordUnit (s : State) (cluster : Nat) (t : Traversal) : State :=
  let (s, tag) := takeTag s (firstCore cluster) t.launch
  liveAdd s (firstCore cluster) tag

def recordUnitDone (s : State) (cluster : Nat) (t : Traversal) : State :=
  match launchTag? (getCore s (firstCore cluster)) t.launch with
  | some tag => liveSub s (firstCore cluster) tag
  | none => s

/-- The 32 bytes of a pair record as four words (R341). -/
def pairWords (p : Pair) : List Word :=
  [wordOf (p.a.toNat + p.b.toNat * 2 ^ 32),
   wordOf (fieldOf p.handle 0 16 + (if p.self then 2 ^ 16 else 0) + p.depth * 2 ^ 24 + fieldOf p.stamp 0 32 * 2 ^ 32),
   wordOf (fieldOf p.stamp 32 32 + fieldOf p.user 0 32 * 2 ^ 32),
   wordOf (fieldOf p.user 32 32)]

def putWords (t : Thread) (d : Nat) : List Word → Thread
  | [] => t
  | w :: ws => putWords (setX t (regNo d) w) (d + 1) ws

/-- A taker obtains a pair: registers, guard, and it is HELD (R351). -/
def givePair (s : State) (k : Taker) (p : Pair) : State :=
  modRef s k.who fun t =>
    completeWait { resolveG (putWords t k.dest (pairWords p)) (guardNo k.guard) true with held := some p }

/-- A taker is answered false. -/
def refuseTaker (s : State) (k : Taker) : State :=
  modRef s k.who fun t => completeWait (resolveG t (guardNo k.guard) false)

/-- The newest pending record of a traversal in a cluster, and the oldest (R344). -/
def newestPair (c : Cluster) (h : Word) : Option (Pair × List Pair) :=
  match c.pairs.reverse.find? (·.handle == h) with
  | some p => some (p, (c.pairs.reverse.erase p).reverse)
  | none => none

def oldestPair (c : Cluster) (h : Word) : Option (Pair × List Pair) :=
  match c.pairs.find? (·.handle == h) with
  | some p => some (p, c.pairs.erase p)
  | none => none

/-- Serve the first waiting taker of a traversal from its own Hamper. -/
def serveTaker (s : State) (ctx cluster : Nat) (h : Word) : State :=
  let c := getCluster s cluster
  match c.takers.find? (·.handle == h), newestPair c h, travEntry s ctx h with
  | some k, some (p, rest), some t =>
    let s := modCluster s cluster fun c => { c with pairs := rest, takers := c.takers.erase k }
    givePair (recordUnitDone s cluster t) k p
  | _, _, _ => s

/-- Store a record (R346), and serve a taker that waits for it. -/
def storePair (s : State) (ctx cluster : Nat) (t : Traversal) (p : Pair) : State :=
  let s := travAdd s ctx cluster p.handle
  let s := modCluster s cluster fun c => { c with pairs := c.pairs ++ [p] }
  serveTaker (recordUnit s cluster t) ctx cluster p.handle

/-- The clusters of the pool in the order in which a thief's cluster asks them: ascending virtual index after its own,
wrapping (R344). -/
def stealOrder (s : State) (ctx cluster : Nat) (h : Word) (t : Traversal) : List Nat :=
  match getCtx? s ctx with
  | none => []
  | some c =>
    let own := virtIndex c (firstCore cluster)
    let key (num : Nat) : Nat := clusterOf (coreKey ctx (num % 256 * 4096 + num / 256 * 16))
    let pool := handleHome ctx h :: (partyClusters s ctx t.party).map key
    let n := ctxGridW c * ctxGridH c
    let at_ (i : Nat) : Nat := clusterOf (coreKey ctx (i % ctxGridW c * 4096 + i / ctxGridW c * 16))
    ((List.range n).map fun i => at_ ((own + 1 + i) % n)).filter fun k => k != cluster && pool.contains k

/-- One round of steals for a taker: the oldest record of the first cluster of the pool that holds one goes on its way
(R344, R346). -/
def stealRound (s : State) (ctx cluster : Nat) (k : Taker) (t : Traversal) : Option State :=
  (stealOrder s ctx cluster k.handle t).findSome? fun v =>
    match oldestPair (getCluster s v) k.handle with
    | none => none
    | some (p, rest) =>
      if !memberRoom s ctx cluster k.handle || !tagRoom (getCore s (firstCore cluster)) t.launch then none else
      let s := travAdd s ctx cluster k.handle
      let s := recordUnit s cluster t
      let s := modCluster s v fun c => { c with pairs := rest }
      let s := recordUnitDone (travSub s ctx v k.handle) v t
      some (send s (.stolen v k p))

/-- The HELD pair of a slot is DONE (R346). -/
def endHeld (s : State) (r : Ref) : State :=
  match (refThread s r).held with
  | none => s
  | some p => travSub (modRef s r fun t => { t with held := none }) (ctxOf r.core) (clusterOf r.core) p.handle

/-- A HELD pair's count moves with its thread (R346). -/
def moveHeld (s : State) (p : Option Pair) (src dst : Nat) : State :=
  match p with
  | none => s
  | some p => travSub (travAdd s (ctxOf dst) (clusterOf dst) p.handle) (ctxOf src) (clusterOf src) p.handle

end Sys2Proof.Machine
end

