-- ==== Sys2Proof/Machine/RasterUnit.lean ====
section
/-!
DEFINITION. The raster units' shared part (23): fields of the frame descriptor (R396), watermarks and their flits (R400,
R401), and the discard of a quad whose thread ends without FOUT (R406, R409).
-/

namespace Sys2Proof.Machine

/-- Bytes of the frame descriptor as a number. -/
def frameField (f : Frame) (off n : Nat) : Nat := f.desc.toNat / 2 ^ (8 * off) % 2 ^ (8 * n)
def frameCbase (f : Frame) : Nat := frameField f 0 8
def frameZbase (f : Frame) : Nat := frameField f 8 8
def frameWidth (f : Frame) : Nat := frameField f 16 2
def frameHeight (f : Frame) : Nat := frameField f 18 2
def frameCfmt (f : Frame) : Nat := frameField f 20 1
def frameSamples (f : Frame) : Nat := frameField f 21 1
def frameD (f : Frame) : Nat := frameField f 22 1
def frameStates (f : Frame) : Nat := frameField f 24 8
def frameNstate (f : Frame) : Nat := frameField f 32 4
def frameFlrec (f : Frame) : Nat := frameField f 40 8
def frameOwncl (f : Frame) (r : Nat) : Nat := frameField f (48 + 4 * r) 4

def allOnes : Word := 0xFFFFFFFFFFFFFFFF

/-- A closed frame. -/
def emptyFrame : Frame :=
  { phase := .closed, desc := 0, core := 0, offset := 0, record := 0, launch := 0, openLaunch := 0, ltag := 0, owners := [], geo := []
    closer := .none, faulted := false, fault := .none, discarded := 0 }

def getFrame? (s : State) (ctx : Nat) : Option Frame := (getCtx? s ctx).map (·.frame)
def modFrame (s : State) (ctx : Nat) (f : Frame → Frame) : State := modCtx s ctx fun c => { c with frame := f c.frame }

/-- The Z-dies that hold a placed cluster of the context (R400). -/
def geometryDies (c : Context) : List Nat :=
  (List.range 8).filter fun d => c.map.any fun p => fieldOf p.2 0 1 == 1 && fieldOf p.2 13 3 == d

def minWord (a b : Word) : Word := if a < b then a else b
def maxWord (a b : Word) : Word := if a < b then b else a

/-- The cores of a context, those of its saved clusters included (R254). -/
def ctxCores (s : State) (ctx : Nat) : List Core :=
  (s.cores.filter fun p => ctxOf p.1 == ctx).map (·.2) ++ (match getCtx? s ctx with
    | some c => c.images.flatMap fun p => p.2.cores.map (·.2)
    | none => [])

/-- The floors of a die's geometry threads; a thread that is saved counts as it did (R400, R407). -/
def dieFloors (s : State) (ctx die : Nat) : List Word :=
  (ctxCores s ctx).flatMap fun c => (userSlots c).filterMap fun q => match q.2.geo with
    | some (fl, d) => if d = die then some fl else none
    | none => none

/-- A die's watermark: the least of its HOLD and its geometry threads' floors (R400). -/
def dieWatermark (s : State) (ctx die : Nat) (g : GeoDie) : Word := (dieFloors s ctx die).foldl minWord g.hold

/-- Every die whose watermark has risen sends a flit to every owner (R401). -/
def publishWatermarks (s : State) (ctx : Nat) : State :=
  match getFrame? s ctx with
  | none => s
  | some f =>
    if f.phase = .closed then s
    else f.geo.foldl (fun s p =>
      let w := dieWatermark s ctx p.1 p.2
      if p.2.published < w then
        let s := modFrame s ctx fun f => { f with geo := mapSet f.geo p.1 { p.2 with published := w } }
        (List.range (frameD f)).foldl (fun s r => send s (.flit ctx p.1 r w)) s
      else s) s

/-- A die that comes to hold a cluster of the context during a frame is a geometry die from then on, held unless every other has been
lifted (R400, log 131). -/
def joinGeometry (s : State) (ctx die : Nat) : State :=
  match getFrame? s ctx with
  | some f =>
    if f.phase = .closed || (mapGet? f.geo die).isSome then s
    else
      let hold : Word := if f.geo.all fun p => p.2.hold == allOnes then allOnes else 0
      publishWatermarks (modFrame s ctx fun f => { f with geo := mapSet f.geo die ⟨hold, 0, []⟩ }) ctx
  | none => s

/-- A frame fault: the first cause is kept (R410). -/
def frameFault (f : Frame) (cause : BitVec 8) : Frame :=
  { f with faulted := true, fault := if f.fault.isNone then some cause else f.fault }

def modOwner (f : Frame) (r : Nat) (g : Owner → Owner) : Frame :=
  { f with owners := mapSet f.owners r (g (mapGet f.owners r ⟨[], [], [], 0, 0⟩)) }

/-- A fragment thread ends: without FOUT its quad is discarded; `fault` is the cause where a fault discards it (R409, R410). -/
def endQuad (s : State) (r : Ref) (fault : Option (BitVec 8)) : State :=
  match (refThread s r).quad with
  | none => s
  | some q =>
    if q.out then s
    else modFrame s (ctxOf r.core) fun f =>
      let f := modOwner f q.owner fun o =>
        { o with results := o.results ++ [⟨q.prim, q.seq, q.qx, q.qy, q.coverage, none, 0, fault.isSome⟩] }
      match fault with
      | some c => { frameFault f c with discarded := Nat.min (2 ^ 32 - 1) (f.discarded + 1) }
      | none => f

/-- A geometry thread ends: its floor no longer counts (R400); a double fault sets the frame's FAULT flag (R409). -/
def endFloor (s : State) (r : Ref) (double : Bool) : State :=
  if (refThread s r).geo.isNone then s
  else
    let s := if double then modFrame s (ctxOf r.core) fun f => { f with faulted := true } else s
    publishWatermarks (modRef s r fun t => { t with geo := none }) (ctxOf r.core)

end Sys2Proof.Machine
end

