-- ==== Sys2Proof/Machine/WindowUnit.lean ====
section
/-!
DEFINITION. Sequence descriptors and speculative windows (22): the fields of a descriptor (R377), the map from positions
to rows (R378), draft versions (R383), and how a member leaves (R382).
-/

namespace Sys2Proof.Machine

/-- A step is to change memory at a VA: a page that is duplicated is collapsed first (R274), and the cluster of the thread that caused the
step, if one did, has then acquired what the holders of its replicas acknowledged (R228). -/
def settleVa (s : State) (ctx : Nat) (core : Option Nat) (va : Nat) : State :=
  match rawLeaf s ctx va, core with
  | some l, some k => (settleDup s k va l).1
  | some l, none => if pteState l.base = stDuplicated then collapse s ctx va l else s
  | none, _ => s

/-- A field of a sequence descriptor at a physical address. -/
def seqField (s : State) (desc off n : Nat) : Nat := memNat s (desc + off) n

/-- The lines that hold a range leave every cluster cache, since its home slice has changed it. -/
def dropAround (s : State) (pa n : Nat) : State := dropLines s (pa / 64 * 64) ((pa + n + 63) / 64 * 64 - pa / 64 * 64)

/-- Write a field of a descriptor by its physical address, its page settled. -/
def seqPut (s : State) (desc off n : Nat) (v : Nat) : State := dropAround (softWrite s (desc + off) (leBytes n v)) (desc + off) n

def seqKvbase (s : State) (d : Nat) : Nat := seqField s d 0 8
def seqKvsize (s : State) (d : Nat) : Nat := seqField s d 8 8
def seqRecbase (s : State) (d : Nat) : Nat := seqField s d 16 8
def seqRsize (s : State) (d : Nat) : Nat := seqField s d 24 4
def seqRb (s : State) (d : Nat) : Nat := seqField s d 28 4
def seqSink (s : State) (d : Nat) : Nat := seqField s d 32 4
def seqRing (s : State) (d : Nat) : Nat := seqField s d 36 4
def seqLog2bp (s : State) (d : Nat) : Nat := seqField s d 40 1
def seqScope (s : State) (d : Nat) : Nat := seqField s d 46 1 % 32
def seqBlklist (s : State) (d : Nat) : Nat := seqField s d 48 8
def seqGenva (s : State) (d : Nat) : Nat := seqField s d 56 8
def seqPool (s : State) (d : Nat) : Nat := seqField s d 64 8
def seqLen (s : State) (d : Nat) : Nat := seqField s d 72 8
def seqCrec (s : State) (d : Nat) : Nat := seqField s d 80 1
def seqWstate (s : State) (d : Nat) : Nat := seqField s d 81 1
def seqNdraft (s : State) (d : Nat) : Nat := seqField s d 82 1
def seqMembers (s : State) (d : Nat) : Nat := seqField s d 83 1
def seqWgen (s : State) (d : Nat) : BitVec 32 := BitVec.ofNat 32 (seqField s d 84 4)
def seqWhome (s : State) (d : Nat) : Nat := seqField s d 88 4 % 2 ^ 20

/-- A tentative entry as its 8-byte word. -/
def seqTent (s : State) (d i : Nat) : Word := wordOf (seqField s d (96 + 8 * i) 8)
def tentValid (e : Word) : Bool := fieldOf e 63 1 = 1
def tentBlock (e : Word) : Nat := fieldOf e 0 32
def tentIndex (e : Word) : Nat := fieldOf e 32 16
def tentDraft (e : Word) : Nat := fieldOf e 48 4

/-- The limits of the fields and the bytes that are zero (R377). -/
def seqOk (s : State) (ctx d : Nat) : Bool :=
  let bp := 2 ^ seqLog2bp s d
  let rb := seqRb s d
  seqKvbase s d % 64 == 0 && seqLog2bp s d ≤ 8 && rb % 16 == 0 && decide (16 ≤ rb) && decide (rb ≤ 65536)
    && seqKvsize s d % (bp * rb) == 0 && seqRecbase s d % 64 == 0 && seqRsize s d % 64 == 0 && decide (64 ≤ seqRsize s d)
    && decide (1 ≤ seqRing s d) && decide (seqSink s d + seqRing s d ≤ 2 ^ 24)
    && decide (seqField s d 46 1 < 32) && scopeDefined s ctx (seqScope s d) && seqField s d 47 1 == 0
    && decide (seqCrec s d ≤ 16) && decide (seqWstate s d ≤ 2) && decide (seqNdraft s d ≤ 16) && decide (seqMembers s d ≤ 16)
    && decide (seqField s d 88 4 < 2 ^ 20) && seqField s d 92 4 == 0 && seqField s d 224 32 == 0
    && (List.range 16).all fun i => fieldOf (seqTent s d i) 52 11 == 0

/-- Slot and Gen of a position (R378). -/
def posSlot (S W p : Nat) : Nat := if p < S then p else S + (p - S) % W
def posGen (S W p : Nat) : Nat := if p < S then 0 else (p - S) / W

/-- DREC(i) of R384. -/
def draftRec (crec i : Nat) : Nat := if i < crec then i else i + 1

/-- The PA of a VA, whatever the state of its page. -/
def pagePa (s : State) (ctx va : Nat) : Option Nat := (rawLeaf s ctx va).map fun l => leafPa l va

/-- The PA of a VA whose page is here. -/
def herePa (s : State) (ctx va : Nat) : Option Nat :=
  match rawLeaf s ctx va with
  | some l => if leafHere l then some (leafPa l va) else none
  | none => none

/-- The VA by which the home slice knows a descriptor: the one of its open window, were it named by another VA of the same page. -/
def seqKey (s : State) (ctx va : Nat) : Nat :=
  match getCtx? s ctx with
  | some c =>
    if (mapGet? c.spec va).isSome then va
    else match c.spec.find? fun p => pagePa s ctx p.1 == pagePa s ctx va with
      | some p => p.1
      | none => va
  | none => va

/-- The window of a descriptor, if it is open. -/
def getWindow? (s : State) (ctx desc : Nat) : Option SpecWindow :=
  match getCtx? s ctx with
  | some c => mapGet? c.spec desc
  | none => none

def setWindow (s : State) (ctx desc : Nat) (w : Option SpecWindow) : State :=
  modCtx s ctx fun c => { c with spec := match w with
    | some w => mapSet c.spec desc w
    | none => mapErase c.spec desc }

/-- Whether an address lies in a window's KV or recurrent region. -/
def inWindow (w : SpecWindow) (va : Nat) : Bool :=
  (w.kv.1 ≤ va && va < w.kv.1 + w.kv.2) || (w.recur.1 ≤ va && va < w.recur.1 + w.recur.2)

/-- The draft version that a member with tag `t` reads of a granule: that of the highest draft up to `t` (R383). -/
def draftValue (w : SpecWindow) (t g : Nat) : Option Version :=
  ((List.range (t + 1)).reverse).findSome? fun i => mapGet? (mapGet w.drafts i []) g

/-- Write a granule's draft version; `none` where store and pool are full (R383). -/
def draftWrite (s : State) (ctx desc : Nat) (w : SpecWindow) (t g : Nat) (val : BitVec 512) (stamp : Word) : Option State :=
  let m := mapGet w.drafts t []
  let extra := if (mapGet? m g).isNone then [w.whome] else []
  if !revRoom s ctx extra then none
  else some (setWindow s ctx desc (some { w with drafts := mapSet w.drafts t (mapSet m g ⟨val, stamp⟩) }))

def inRange (r : Nat × Nat) (va : Nat) : Bool := decide (r.1 ≤ va) && decide (va < r.1 + r.2)

/-- Whether an address lies in the KV or recurrent region of a sequence of the context (R239, R383): the home slices know
a sequence once an instruction has named its descriptor (log 20). -/
def inSequence (s : State) (ctx va : Nat) : Bool :=
  match getCtx? s ctx with
  | some c => (c.spec.any fun p => inWindow p.2 va) || c.sequences.any fun p => inRange p.2.1 va || inRange p.2.2 va
  | none => false

/-- The sequence of a descriptor is known from now on (log 20). -/
def noteSequence (s : State) (ctx va d : Nat) : State :=
  modCtx s ctx fun c => { c with
    sequences := mapSet c.sequences va ((seqKvbase s d, seqKvsize s d), (seqRecbase s d, 17 * seqRsize s d)) }

/-- Leaves that were owed are counted once the descriptor's page is here. -/
def payLeaves (s : State) (ctx : Nat) : State :=
  match getCtx? s ctx with
  | none => s
  | some c => c.spec.foldl (fun s p => match herePa s ctx p.1 with
      | some d => if p.2.owed = 0 then s
        else setWindow (seqPut (settleVa s ctx none p.1) d 83 1 (seqMembers s d - p.2.owed)) ctx p.1 (some { p.2 with owed := 0 })
      | none => s) s

/-- A member leaves its window (R382); the home slice counts it, at once where the descriptor's page is here. -/
def leaveWindow (s : State) (r : Ref) : State :=
  let t := refThread s r
  match t.window with
  | none => s
  | some m =>
    let s := modRef s r fun t => { t with window := none, csr := { t.csr with specd := 0xFF, spec := false } }
    match herePa s (ctxOf r.core) m.desc, getWindow? s (ctxOf r.core) m.desc with
    | some d, _ => seqPut (settleVa s (ctxOf r.core) (some r.core) m.desc) d 83 1 (seqMembers s d - 1)
    | none, some w => setWindow s (ctxOf r.core) m.desc (some { w with owed := w.owed + 1 })
    | none, none => s

end Sys2Proof.Machine
end

