-- ==== Sys2Proof/Machine/Exit.lean ====
section
/-!
DEFINITION. How a thread ends: what it gives up when it retires (R306) and when it halts by a double fault (R97).
-/

namespace Sys2Proof.Machine

/-- What a thread that ends gives up: parties (R311), its window (R382), its HELD pair (R346), its floor and quad (R400,
R409), its own revision (R369) and its tasks (R286). -/
def giveUp (s : State) (r : Ref) (fault : Option (BitVec 8)) (phase : RevPhase) : State :=
  let s := leaveAll s r
  let s := leaveWindow s r
  let s := endHeld s r
  let s := endQuad s r fault
  let s := endFloor s r (phase = .halted)
  let s := match (refThread s r).rev with
    | some v => endRev s (ctxOf r.core) v phase
    | none => s
  exitTasks s r

/-- The status that a retiring or halting thread records (R302). -/
def recordTrap (s : State) (r : Ref) : State :=
  let t := refThread s r
  recordStatus s r.core t.ltag (statusTrap t.csr.trapcause)

/-- A thread retires: its slot is EMPTY again and its unit of live work is gone (R96, R306); so is what its handle inbox still holds
(log 158). -/
def retireThread (s : State) (r : Ref) : State :=
  let t := refThread s r
  let s := giveUp s r (if t.csr.tm then some t.csr.trapcause else none) .done
  let s := if t.csr.tm then recordTrap s r else s
  let s := modRef s r fun t => { Thread.initial .empty with lastIssue := t.lastIssue }
  let s := modCore s r.core fun c => { c with binds := mapErase c.binds r.slot }
  liveSub s r.core t.ltag

/-- A double fault (R97): the slot keeps the thread's state and stays HALTED. -/
def doubleFault (s : State) (r : Ref) : State :=
  let t := refThread s r
  let s := giveUp s r (some causeDoubleFault) .halted
  let s := orphanChildren s (ctxOf r.core) t.children
  let s := recordTrap s r
  let s := recordStatus s r.core t.ltag statusDouble
  let s := modRef s r fun t => { t with phase := .halted, haltedFrom := none, children := [], doubling := false }
  liveSub s r.core t.ltag

/-- A double fault that waits: the thread parks until its writes have been performed (R394). -/
def delayDouble (t : Thread) : Thread :=
  match t.phase, t.haltedFrom with
  | .parked, _ => { t with wait := .retry, doubling := true, soon := true }
  | .halted, some .parked => { t with wait := .retry, doubling := true, soon := true }
  | .halted, f => { t with haltedFrom := some .parked, parkedFrom := f.getD .run, wait := .retry, doubling := true, soon := true }
  | _, _ => { parkThread t .retry 4 with doubling := true }

/-- A thread is to halt by a double fault: a member of a window leaves it, which first waits for the thread's writes (R394). -/
def faultAgain (s : State) (r : Ref) : State :=
  if (refThread s r).window.isSome && unperformed (refThread s r) then modRef s r delayDouble else doubleFault (modRef s r unpark) r

end Sys2Proof.Machine
end

