-- ==== Sys2Proof/Machine/Views.lean ====
section
/-!
DEFINITION. Reads and writes of main memory as an agent sees it: translation (R263), formatted pages (R159), revision
regions (R364, R367), draft versions (R383) and poison (R417), and only then the lines of memory.
-/

namespace Sys2Proof.Machine

/-- An agent's view: its core and mode, its revision, its window and draft tag, and its STAMP. -/
structure View where
  core : Nat
  sys : Bool
  rev : Option RevRef
  window : Option Member
  tag : BitVec 8
  stamp : Word
deriving DecidableEq, Repr

def threadView (core : Nat) (t : Thread) : View :=
  { core := core, sys := t.csr.sys, rev := t.rev, window := t.window, tag := t.csr.specd, stamp := t.csr.stamp }

def curView (s : State) : View := threadView s.cur.1 (curThread s)

/-- The draft and window by which an agent's accesses to an address go, if they do (R383). -/
def viewDraft (s : State) (v : View) (va : Nat) : Option (Nat × SpecWindow × Nat) :=
  match v.window with
  | none => none
  | some m =>
    if v.tag = 0xFF then none
    else match getWindow? s (ctxOf v.core) m.desc with
      | some w => if w.wgen = m.wgen && inWindow w va then some (m.desc, w, v.tag.toNat) else none
      | none => none

/-- Whether a write is a draft of a window that has closed: an engine command's, whose thread left before it ended. Its version would
be freed, so it goes nowhere (R383, log 118). -/
def staleDraft (s : State) (v : View) (va : Nat) : Bool :=
  match v.window, getCtx? s (ctxOf v.core) with
  | some m, some c =>
    let open_ := match mapGet? c.spec m.desc with
      | some w => w.wgen == m.wgen
      | none => false
    v.tag != 0xFF && !open_ && match mapGet? c.sequences m.desc with
      | some p => inRange p.1 va || inRange p.2 va
      | none => false
  | _, _ => false

/-- Part of a granule. -/
def granulePart (g : BitVec 512) (va n : Nat) : List Byte := leBytes n (g.toNat / 2 ^ (8 * (va % 64)))

/-- The bytes of a granule at the home slice, whole. -/
def rootGranule (s : State) (pa : Nat) : BitVec 512 := homeLine s (pa / 64)

/-- The version that the agent reads a granule from, if it is not main memory itself: its drafts' (R383), or the one that its
revision resolves to (R367). -/
def viewVersion (s : State) (v : View) (va : Nat) : Option Version :=
  let ctx := ctxOf v.core
  let base := match v.rev, regionAt s ctx va with
    | some r, some _ => revVersion s (va / 64) revFuel (some r)
    | _, _ => none
  match viewDraft s v va with
  | some (_, w, t) => match draftValue w t (va / 64) with
    | some d => some d
    | none => base
  | none => base

/-- The value of a granule as the agent reads it, its own drafts and revision included. -/
def viewGranule (s : State) (v : View) (va pa : Nat) : BitVec 512 :=
  match viewVersion s v va with
  | some d => d.bytes
  | none => rootGranule s pa

/-- A read of `n` bytes within one granule that has been translated: a version's, or those of main memory through the cluster
cache, where a poisoned byte traps (R417). A revision captures a region granule of the root as it stands at FORK, so that a thread in one
reads it at the home slice and not from a line that may be older (R367). -/
def readTranslated (s : State) (v : View) (va pa n : Nat) : Except Stop (State × List Byte) :=
  match viewVersion s v va with
  | some d => .ok (s, granulePart d.bytes va n)
  | none =>
    let captured := v.rev.isSome && (regionAt s (ctxOf v.core) va).isSome
    let cached := (mapGet? (getCluster s (clusterOf v.core)).cache (pa / 64)).isSome && !captured
    if memPoisoned s pa n && !cached then .error (.trap causePoisoned (wordOf va))
    else if captured then .ok (s, memBytes s pa n)
    else .ok (cachedRead s v.core pa n)

/-- A region lies on RAW pages (R364). -/
def regionRaw (s : State) (v : View) (va : Nat) (l : Leaf) : Except Stop Unit :=
  if pteFmt l.fmt ≠ 0 && (regionAt s (ctxOf v.core) va).isSome then .error (.trap causeRevOperand (wordOf va)) else .ok ()

/-- A read through a GLOBAL segment: translation, then the bytes. The error carries the state as the walk left it. -/
def viewRead (s : State) (v : View) (va n kind : Nat) : Except (State × Stop) (State × Leaf × List Byte) :=
  match translate s v.core va kind v.sys with
  | .error e => .error e
  | .ok (s, l, pa) =>
    match regionRaw s v va l with
    | .error e => .error (s, e)
    | .ok _ =>
      match readTranslated s v va pa n with
      | .error e => .error (s, e)
      | .ok (s, bs) => .ok (s, l, bs)

/-- A write of bytes within one granule that has been translated. -/
def writeTranslated (s : State) (v : View) (va pa : Nat) (bs : List Byte) : Except Stop State :=
  let ctx := ctxOf v.core
  let val := lineWrite (viewGranule s v va pa) (va % 64) bs
  match viewDraft s v va with
  | some (desc, w, t) =>
    match draftWrite s ctx desc w t (va / 64) val v.stamp with
    | some s => .ok s
    | none => .error (.trap causeRevPool (wordOf va))
  | none =>
    if staleDraft s v va then .ok s
    else match regionAt s ctx va with
    | none => .ok (homeWrite s v.core pa bs)
    | some _ =>
      match revWrite s ctx (va / 64) v.rev none (rootGranule s pa) val v.stamp with
      | none => .error (.trap causeRevPool (wordOf va))
      | some s => .ok (if v.rev.isNone then homeWrite s v.core pa bs else s)

/-- After a write of an address: a duplicated page is collapsed where the write went to main memory (R274). -/
def settleWrite (s : State) (v : View) (va : Nat) (l : Leaf) : State :=
  let ctx := ctxOf v.core
  if (viewDraft s v va).isNone && !staleDraft s v va && (v.rev.isNone || (regionAt s ctx va).isNone) then (settleDup s v.core va l).1 else s

/-! ## Scale containers of formatted pages (R264, R383) -/

/-- The granule by which a window keeps drafts of a scale container: its place among the bytes of its page, from 2^56 on (log 117). -/
def scaleGranule (l : Leaf) (va : Nat) : Nat := 2 ^ 56 + (va / leafSize l * leafSize l + scaleOff l va) / 64

/-- Read a block's scale container, whose payload lies at `pa`. -/
def scaleRead (s : State) (v : View) (l : Leaf) (va pa : Nat) : Except Stop (State × List Byte) :=
  let p := scalePa l va pa
  let draft := match viewDraft s v va with
    | some (_, w, t) => draftValue w t (scaleGranule l va)
    | none => none
  match draft with
  | some d => .ok (s, granulePart d.bytes p 2)
  | none =>
    let cached := (mapGet? (getCluster s (clusterOf v.core)).cache (p / 64)).isSome
    if !isBacked s p then .error (.trap causePaUnbacked (wordOf va))
    else if memPoisoned s p 2 && !cached then .error (.trap causePoisoned (wordOf va))
    else .ok (cachedRead s v.core p 2)

/-- Write a block's scale container at its own PA. -/
def scaleWrite (s : State) (v : View) (l : Leaf) (va : Nat) (bs : List Byte) : Except Stop State :=
  let p := pteScale l.fmt + scaleOff l va
  if !isBacked s p then .error (.trap causePaUnbacked (wordOf va))
  else match viewDraft s v va with
  | some (desc, w, t) =>
    let g := scaleGranule l va
    let old := match draftValue w t g with
      | some d => d.bytes
      | none => rootGranule s p
    match draftWrite s (ctxOf v.core) desc w t g (lineWrite old (p % 64) bs) v.stamp with
    | some s => .ok s
    | none => .error (.trap causeRevPool (wordOf va))
  | none => .ok (if staleDraft s v va then s else settleWrite (homeWrite s v.core p bs) v va l)

/-- A write through a GLOBAL segment; `encode` is a write that a formatted page takes (R159). A region's page must be RAW before
anything else is asked of its format (R364, log 107). -/
def viewWrite (s : State) (v : View) (va kind : Nat) (encode : Bool) (bs : List Byte) : Except (State × Stop) State :=
  match translate s v.core va kind v.sys with
  | .error e => .error e
  | .ok (s, l, pa) =>
    match regionRaw s v va l with
    | .error e => .error (s, e)
    | .ok _ =>
      if pteFmt l.fmt ≠ 0 && !encode then .error (s, .trap causeFmtStore (wordOf va))
      else match writeTranslated s v va pa bs with
        | .error e => .error (s, e)
        | .ok s => .ok (settleWrite s v va l)

end Sys2Proof.Machine
end

