-- ==== Sys2Proof/Machine/Ops.lean ====
section
/-!
DEFINITION. The shell around every meaning: taking a trap and returning from one (R412, R415), how an instruction ends,
the checks of R91, and the chain ports (R170).
-/

namespace Sys2Proof.Machine

/-! ## Traps -/

/-- Trap entry, steps 1 to 4 of R412. A slot that is HALTED by pre-emption remembers TRAPPED. -/
def enterTrap (t : Thread) (pc : Word) (cause : BitVec 8) (val : Word) : Thread :=
  let t := { t with
    csr := { t.csr with trappc := pc, trapcause := cause, trapval := val, chain := false, tm := true }
    savedChain := t.csr.chain
    pc := t.csr.tvec
    wait := .none
    fetched := none
    retiring := t.csr.tvec == 0 }
  match t.phase with
  | .halted => { t with haltedFrom := some .trapped }
  | _ => { t with phase := .trapped }

/-- The return from a trap (ERET of R415). -/
def leaveTrap (t : Thread) : Thread :=
  { t with csr := { t.csr with tm := false, chain := t.savedChain }, pc := evenPc t.csr.trappc, phase := .run }

/-- A trap in the message slot abandons the handler (R167). -/
def handlerFault (s : State) (core : Nat) (pc : Word) (cause : BitVec 8) (val : Word) : State :=
  let t := getThread s core 15
  let s := setThread s core 15 { t with
    csr := { t.csr with trappc := pc, trapcause := cause, trapval := val }, phase := .idle, current := none, issues := 0 }
  let s := recordCoreStatus s core statusHfault
  match t.current with
  | some ⟨src, .user _ _ _ true⟩ => send s (.reply src core (.error cause))
  | _ => s

/-- A synchronous trap of a slot: a handler's fault, a double fault, or trap entry; with `TVEC` = 0 the thread retires
when it next issues (R97, R167, R412). -/
def takeTrap (s : State) (r : Ref) (pc : Word) (cause : BitVec 8) (val : Word) : State :=
  if r.slot = 15 then handlerFault s r.core pc cause val
  else if (refThread s r).csr.tm then faultAgain s r
  else modRef s r fun t => enterTrap t pc cause val

/-- A parked instruction traps when its reply arrives: nothing was popped or pushed (R170). -/
def trapParked (s : State) (r : Ref) (cause : BitVec 8) (val : Word) : State :=
  let s := modRef s r unpop
  takeTrap s r (refThread s r).pc cause val

/-! ## How an instruction ends -/

/-- The end of one instruction of the current slot. -/
inductive Res where
  /-- It completes and raises flags; the thread moves to the next instruction. -/
  | ok (s : State) (raised : FFlags)
  /-- It completes and continues at an address. -/
  | goto (s : State) (pc : Word)
  /-- It traps with no effect but those in `s`. -/
  | trap (s : State) (cause : BitVec 8) (val : Word)
  /-- It completes, and then traps with `TRAPPC` at the next instruction. -/
  | trapAfter (s : State) (cause : BitVec 8) (val : Word)
  /-- A trap, a page fault or a park. -/
  | stop (s : State) (e : Stop)
  /-- The thread has left the slot, or its state is already what it shall be. -/
  | gone (s : State)
deriving Repr

/-- The cause of R414 for flags raised under the enables, if one traps. -/
def flagTrap (raised enables : FFlags) : Option (BitVec 8) :=
  let hit := raised &&& enables
  if hit &&& 16 ≠ 0 then some causeFpNv
  else if hit &&& 8 ≠ 0 then some causeFpDz
  else if hit &&& 4 ≠ 0 then some causeFpOf
  else if hit &&& 2 ≠ 0 then some causeFpUf
  else if hit &&& 1 ≠ 0 then some causeFpNx
  else none

/-- An instruction of a slot has completed with flags raised: they reach `FFLAGS` (R39), and an enabled one traps with
`TRAPPC` at the thread's pc (R414). The message slot has no enables (R95). -/
def raiseFlags (s : State) (r : Ref) (raised : FFlags) : State :=
  let s := modRef s r fun t => { t with csr := { t.csr with fflags := t.csr.fflags ||| raised } }
  let t := refThread s r
  if r.slot = 15 then s
  else match flagTrap raised t.csr.ftrapen with
    | some c => takeTrap s r t.pc c (wordOf raised.toNat)
    | none => s

/-- Move the current thread on. -/
def advance (s : State) (len : Nat) : State := modCur s fun t => { t with pc := t.pc + wordOf len }

def instrWord (s : State) : Word := wordOf s.iword.toNat

/-- Whether a thread may leave its slot: both its engine queues are empty, its guards RESOLVED, and its writes performed
(R122 step 3, R123). -/
def canLeave (t : Thread) : Bool := t.matq.isEmpty && t.copyq.isEmpty && guardsResolved t && !unperformed t

/-- The park of a migration: it waits for what R122 step 3 asks, and then asks for a slot at the target. -/
def migrateWait (t : Thread) (target : Nat) (again : Bool) : Wait := if canLeave t then .migrate target again else .leave target again

/-- A parked migration goes on its way once step 3 of R122 is met. -/
def startMove (s : State) (r : Ref) : State :=
  let t := refThread s r
  match t.phase, t.wait with
  | .parked, .leave k again =>
    if canLeave t then send (modRef s r fun t => { t with wait := .migrate k again }) (.migrant r k) else s
  | _, _ => s

/-- Park the current thread; a migration also sends it on its way. -/
def parkCur (s : State) (w : Wait) (len : Nat) : State :=
  let s' := modCur s fun t => parkThread t w len
  match w with
  | .migrate k _ => send s' (.migrant (curRef s) k)
  | _ => s'

/-- Stop the current instruction: a trap; a page fault, which is recorded and parks (R269), once what the thread has posted is performed,
as it comes before the use of the record (R276, R428); or a park. In the message slot the last two trap SLOT_FORBIDDEN (R166). -/
def stopCur (s : State) (len : Nat) (e : Stop) : State :=
  let r := curRef s
  let pc := (curThread s).pc
  match e with
  | .trap c v => takeTrap s r pc c v
  | .fault va kind c found =>
    if inMsgSlot s then takeTrap s r pc causeSlotForbidden (instrWord s)
    else if unperformed (curThread s) then parkCur s .retry len
    else
      let s := recordFault s r.core r.slot va kind c found
      modCur s fun t => parkThread t (.page va (dieOf s r.core)) len
  | .park w =>
    if inMsgSlot s then takeTrap s r pc causeSlotForbidden (instrWord s)
    else parkCur s w len

/-- The state after the current instruction, of `len` bytes. -/
def finish (len : Nat) (e : Res) : State :=
  match e with
  | .ok s f => raiseFlags (advance s len) (curRef s) f
  | .goto s pc => modCur s fun t => { t with pc := pc }
  | .trap s c v => stopCur s len (.trap c v)
  | .trapAfter s c v => stopCur (advance s len) len (.trap c v)
  | .stop s e => stopCur s len e
  | .gone s => s

/-! ## The checks of R91 before any effect, rows 4 to 8 -/

/-- What an instruction names and needs. -/
structure Uses where
  /-- x registers read, and the x destination. -/
  xr : List (BitVec 5) := []
  xw : Option (BitVec 5) := none
  /-- Further x registers that it reads or writes without the chain ports: the second of a pair, groups (log 26). -/
  xs : List Nat := []
  /-- v registers by number. -/
  vs : List Nat := []
  acc : Option Nat := none
  /-- Guards that it parks on (R108). -/
  gs : List (BitVec 3) := []
  f64 : Bool := false
  rounds : Bool := false
  /-- A system-mode instruction (R89). -/
  priv : Bool := false
  /-- The cause of R91 rows 4 and 5 for a CSR instruction. -/
  csr : Option (BitVec 8) := none
  /-- An instruction that the message slot forbids. -/
  noMsg : Bool := false
  /-- A MAT form, which the message slot forbids whatever accumulator it names (R191). -/
  mat : Bool := false
  /-- AMRET, which only the message slot runs (R168). -/
  onlyMsg : Bool := false
deriving Repr

/-- Whether every named register is declared (R91 row 6, R95). In the message slot, which has no accumulators, those of a MAT form are not
looked at: every form traps SLOT_FORBIDDEN there (R191, log 29). -/
def usesDeclared (s : State) (u : Uses) : Bool :=
  u.xr.all (fun r => decide (r.toNat < declX s)) && u.xw.all (fun r => decide (r.toNat < declX s))
    && u.xs.all (fun r => decide (r < declX s)) && u.vs.all (fun r => decide (r < declV s))
    && (u.acc.all (fun r => decide (r < declAcc s)) || (u.mat && inMsgSlot s))

/-- The kernel condition of R122 step 1: no live work, or only live work of the thread's image and partition word. -/
def kernelFits (s : State) (own core : Nat) : Bool :=
  let a := getCore s own
  let b := getCore s core
  !coreBusy b || (a.kimg == b.kimg && a.part == b.part)

/-- The F64 core that a thread moves to (R88): the nearest that meets the condition, ties to the lower coordinate. -/
def f64Target (s : State) : Option Nat :=
  match getCtx? s (curCtx s) with
  | none => none
  | some c =>
    let own := s.cur.1
    let dist (k : Nat) : Nat :=
      (cxOf k - cxOf own) + (cxOf own - cxOf k) + (cyOf k - cyOf own) + (cyOf own - cyOf k)
    let cands := ((List.range (ctxGridW c * ctxGridH c)).map fun i =>
      coreKey (curCtx s) (i / ctxGridH c * 4096 + i % ctxGridH c * 16)).filter fun k => kernelFits s own k
    cands.foldl (fun best k => match best with
      | none => some k
      | some b => if dist k < dist b then some k else some b) none

/-- The first of the checks that fails, in the order of R91; what the slot forbids is a cause of execution and comes last. -/
def checkUses (s : State) (u : Uses) : Option Stop :=
  let t := curThread s
  let bad (c : BitVec 8) : Option Stop := some (.trap c (instrWord s))
  if u.priv && !t.csr.sys then bad causePrivileged
  else match u.csr with
    | some c => bad c
    | none =>
      if !usesDeclared s u then bad causeUndeclaredReg
      else if u.f64 && coreIndex s.cur.1 ≠ 0 then
        if inMsgSlot s || t.csr.tm then bad causeExtAbsent
        else match f64Target s with
          | some k => some (.park (migrateWait t k true))
          | none => bad causeExtAbsent
      else if u.rounds && t.csr.rnd == 7 then bad causeBadRnd
      else if (u.noMsg && inMsgSlot s) || (u.onlyMsg && !inMsgSlot s) then bad causeSlotForbidden
      else none

/-! ## Chain ports around an instruction (R170) -/

/-- What the ports do to an instruction before it runs; a push is a release at the smallest scope covering both threads' cores. -/
inductive Ports where
  | trap (port : Nat)
  | wait
  /-- Whether it pops and whether it pushes. -/
  | go (pop push : Bool)
deriving Repr

/-- What an instruction's chain ports allow (R170), for the instructions of the vector chapter as for others, though R174 says that none of
them parks but on a guard (log 156). -/
def chainPorts (s : State) (u : Uses) : Ports :=
  let t := curThread s
  if !t.csr.chain || inMsgSlot s then .go false false
  else
    let pop := u.xr.contains 28
    let push := u.xw == some 29
    if pop && t.up.isNone then .trap 28
    else if push && t.down.isNone then .trap 29
    else if (pop && t.chainIn.isEmpty) || (push && (unperformed t || !chainRoom s t)) then .wait
    else .go pop push

/-- The current thread with the popped word in `x28`. -/
def popPort (t : Thread) : Thread :=
  match t.chainIn with
  | w :: r => { setX t 28 w with chainIn := r, popped := some w }
  | [] => t

/-- After an instruction: `x28` and `x29` keep their own values, the result for `x29` is pushed, and a pop is final unless
the instruction awaits its reply, or has trapped or parked to reissue, when the word stays. One that completes and then traps is an
instruction that traps: it neither pops nor pushes (log 148). -/
def closePorts (old : Thread) (u : Uses) (pop push : Bool) (e : Res) : Res :=
  let fix28 (t : Thread) : Thread := if pop && u.xw != some 28 then setX t 28 (getX old 28) else t
  let back (s : State) : State := modCur s fun t => unpop (fix28 t)
  let kept (s : State) : State := modCur (back s) fun t => if push then setX t 29 (getX old 29) else t
  let done (s : State) : State :=
    let v := getX (curThread s) 29
    let s := modCur s fun t => { fix28 t with popped := none }
    match push, old.down with
    | true, some d => send (modCur s fun t => setX t 29 (getX old 29)) (.chainWord (curRef s) d v)
    | _, _ => s
  match e with
  | .ok s f => .ok (if (flagTrap f (curThread s).csr.ftrapen).isSome then kept s else done s) f
  | .goto s pc => .goto (done s) pc
  | .trap s c v => .trap (back s) c v
  | .trapAfter s c v => .trapAfter (kept s) c v
  | .stop s (.park w) =>
    match w with
    | .reply _ _ _ | .future | .launch _ | .leave _ _ | .migrate _ _ | .pass | .flush _ => .stop (modCur s fix28) (.park w)
    | .sleep | .take | .event => .stop (done s) (.park w)
    | _ => .stop (back s) (.park w)
  | .stop s w => .stop (back s) w
  | .gone s => .gone s

/-- The pop of a word: it acquires what its push released, at the smallest scope covering both threads' cores (R170, R228). -/
def popWord (s : State) : State :=
  let t := curThread s
  let s := match t.up with
    | some u => acquireAt s s.cur.1 (coverScope s u.core s.cur.1)
    | none => s
  putThread s (popPort t)

/-- Run one instruction of the current slot: the checks, the guards it waits for, the ports, and its effect. -/
def runRes (u : Uses) (s : State) (body : State → Res) : Res :=
  match checkUses s u with
  | some e => .stop s e
  | none =>
    match chainPorts s u with
    | .trap n => .trap s causeChainNone (wordOf n)
    | .wait => .stop s (.park .retry)
    | .go pop push =>
      if u.gs.any (fun g => (getG (curThread s) g).pending) then .stop s (.park .retry)
      else if pop || push then closePorts (curThread s) u pop push (body (if pop then popWord s else s))
      else body s

def run (len : Nat) (u : Uses) (s : State) (body : State → Res) : Host.Outcome State Fault Refusal :=
  .next (finish len (runRes u s body))

/-! ## Instructions that act on the thread alone -/

/-- The end of an instruction that acts on its thread alone. -/
inductive TRes where
  | ok (t : Thread) (raised : FFlags)
  | goto (t : Thread) (pc : Word)
  | trap (cause : BitVec 8) (val : Word)
  | park (w : Wait)
deriving Repr

def liftT (f : Thread → TRes) (s : State) : Res :=
  match f (curThread s) with
  | .ok t r => .ok (putThread s t) r
  | .goto t pc => .goto (putThread s t) pc
  | .trap c v => .trap s c v
  | .park w => .stop s (.park w)

/-- Run an instruction of 4 bytes, or of 2, that acts on its thread alone. -/
def runT (len : Nat) (u : Uses) (s : State) (f : Thread → TRes) : Host.Outcome State Fault Refusal := run len u s (liftT f)

end Sys2Proof.Machine
end

