-- ==== Sys2Proof/Machine/Operands.lean ====
section
/-!
DEFINITION. Operand forms: the register, immediate and floating forms of the scalar families (R129, R139), the displacement
of a PC-relative target (R80), and the gate of the E format (R160).
-/

namespace Sys2Proof.Machine

/-- A signed immediate of any width (R80). -/
def immWord {w : Nat} (i : BitVec w) : Word := i.signExtend 64

/-- PC + off × 2. -/
def pcTarget {w : Nat} (t : Thread) (off : BitVec w) : Word := t.pc + immWord off * 2

/-- x[d] := f x[a] x[b]. -/
def regReg (len : Nat) (d a b : BitVec 5) (f : Word → Word → Word) (s : State) : Host.Outcome State Fault Refusal :=
  runT len { xr := [a, b], xw := some d } s fun t => .ok (setX t d (f (getX t a) (getX t b))) 0

/-- x[d] := f x[a]. -/
def regOne (len : Nat) (d a : BitVec 5) (f : Word → Word) (s : State) : Host.Outcome State Fault Refusal :=
  runT len { xr := [a], xw := some d } s fun t => .ok (setX t d (f (getX t a))) 0

/-- The rounding state of a thread (R37). -/
def rndOf (t : Thread) : RndState := ⟨t.csr.rnd, t.csr.seed, t.csr.draw⟩

/-- Move `DRAW` past `n` elements (R38). -/
def takeDraws (t : Thread) (n : Nat) : Thread := { t with csr := { t.csr with draw := drawAfter (rndOf t) n } }

/-- The encoding in F that a register holds (R139). -/
def floatIn (F : Fmt) (v : Word) : Nat := v.toNat % 2 ^ fmtWidth F

/-- An encoding as the value of a register. -/
def asWord (p : Nat × FFlags) : Word × FFlags := (wordOf p.1, p.2)

/-- A floating operation of two sources that rounds once (R140). -/
def floatBin (F : Fmt) (f : Rounding → Nat → Nat → Nat × FFlags) (d a b : BitVec 5) (s : State) : Host.Outcome State Fault Refusal :=
  runT 4 { xr := [a, b], xw := some d, f64 := F == .fp64, rounds := true } s fun t =>
    let p := f (roundingOf (rndOf t) 0) (floatIn F (getX t a)) (floatIn F (getX t b))
    .ok (setX (takeDraws t 1) d (wordOf p.1)) p.2

/-- A floating operation of one source, from format S to a register value. -/
def floatOne (f64 : Bool) (f : Rounding → Word → Word × FFlags) (d a : BitVec 5) (s : State) : Host.Outcome State Fault Refusal :=
  runT 4 { xr := [a], xw := some d, f64 := f64, rounds := true } s fun t =>
    let p := f (roundingOf (rndOf t) 0) (getX t a)
    .ok (setX (takeDraws t 1) d p.1) p.2

/-- A fused multiply-add (R144). -/
def floatFma (F : Fmt) (negProduct negAddend : Bool) (d a b c : BitVec 5) (s : State) : Host.Outcome State Fault Refusal :=
  runT 4 { xr := [a, b, c], xw := some d, f64 := F == .fp64, rounds := true } s fun t =>
    let p := fmaBits F negProduct negAddend (roundingOf (rndOf t) 0) (floatIn F (getX t a)) (floatIn F (getX t b)) (floatIn F (getX t c))
    .ok (setX (takeDraws t 1) d (wordOf p.1)) p.2

/-- A floating operation of two sources that selects without rounding (R141, R142). -/
def floatPick (F : Fmt) (f : Nat → Nat → Nat × FFlags) (d a b : BitVec 5) (s : State) : Host.Outcome State Fault Refusal :=
  runT 4 { xr := [a, b], xw := some d, f64 := F == .fp64 } s fun t =>
    let p := f (floatIn F (getX t a)) (floatIn F (getX t b))
    .ok (setX t d (wordOf p.1)) p.2

/-- The scalar test of a gate: mask bit 0 XOR gs (R160). -/
def gateOpen (t : Thread) (g : BitVec 3) (gs : BitVec 1) : Bool := ((getG t g).mask.getLsbD 0) != (gs == 1)

/-- An instruction of the E format: a false gate completes it with no effect, neither pop nor push (log 110), but for the result that
`off` gives it then (R160). -/
def runGated (len : Nat) (u : Uses) (g : BitVec 3) (gs : BitVec 1) (off : Option (Thread → Thread)) (s : State) (body : State → Res) :
    Host.Outcome State Fault Refusal :=
  let u := { u with gs := g :: u.gs }
  if (getG (curThread s) g).pending || gateOpen (curThread s) g gs then run len u s body
  else match checkUses s u with
    | some e => .next (finish len (.stop s e))
    | none => runT len { u with xr := [], xw := if off.isSome then u.xw else none } s fun t =>
        .ok (match off with
          | some f => f t
          | none => t) 0

/-- Write consecutive x registers from a group's first (R276, R291). -/
def putGroup (t : Thread) (d : BitVec 3) (ws : List Word) : Thread :=
  let rec go (t : Thread) (n : Nat) : List Word → Thread
    | [] => t
    | w :: ws => go (setX t (BitVec.ofNat 5 n) w) (n + 1) ws
  go t (4 * d.toNat) ws

/-- The registers of a group of four. -/
def groupRegs (d : BitVec 3) : List Nat := [4 * d.toNat, 4 * d.toNat + 1, 4 * d.toNat + 2, 4 * d.toNat + 3]

end Sys2Proof.Machine
end

