-- ==== Sys2Proof/Machine/Remote.lean ====
section
/-!
DEFINITION. Accesses by place: the scratchpad and its full bits (R149 to R151), requests to other cores (R163, R169), the
parks of releases (R231), and futures at their home slices (R321 to R323).
-/

namespace Sys2Proof.Machine

/-! ## Releases and thread order -/

/-- A release parks until the thread's earlier writes are performed at its scope (R231): only posted CORE writes are still to be
performed when an instruction has ended, and those are performed at every scope by the owner's acknowledgement alone. -/
def releasing (s : State) (k : Res) : Res := if unperformed (curThread s) then .stop s (.park .retry) else k

/-! ## The send port (R163, R166) -/

/-- Whether a core's send port takes no message: more of the core's messages wait in the mesh for a full inbound queue than the mesh
holds before the back-pressure reaches the port (log 108). -/
def portFull (s : State) (core : Nat) : Bool :=
  let waiting := (s.net.filter fun p => match p with
    | .request d m => m.src.core == core && decide (32 ≤ (getCore s d).inq.length)
    | _ => false).length
  waiting != 0 && decide (Config.meshDepth < waiting)

/-- A thread sends once its core's send port accepts the message. -/
def sending (s : State) (k : Res) : Res := if portFull s s.cur.1 then .stop s (.park .retry) else k

/-- AMSEND and TSEND, which in the message slot reissue where another instruction would trap (R166). -/
def sendingAgain (s : State) (k : Res) : Res :=
  if portFull s s.cur.1 && inMsgSlot s then .goto s (curThread s).pc else sending s k

/-- Whether a request is an access to the owner's bytes: a user message is none, nor a wait on a muster that the owner holds. -/
def isAccess (held : Bool) : Request → Bool
  | .user _ _ _ _ => false
  | .source _ _ _ => false
  | .handle _ _ => false
  | .muster _ _ _ _ => !held
  | _ => true

/-- Whether a request completes at its thread at once and may yet be held back at its owner behind requests that come after it: STF.E,
and an asynchronous wait on a muster (R151, R316). -/
def mayWait : Request → Bool
  | .fill _ _ empty => empty
  | .muster op _ _ g => (op == 2 || op == 3) && decide (g < 7)
  | _ => false

/-- Whether such a request of an agent to a core stands in the core's queues. -/
def heldAt (s : State) (core : Nat) (src : Ref) : Bool :=
  let c := getCore s core
  c.inq.any (fun m => m.src == src && mayWait m.req)
    || c.deferred.any (fun d => d.src == src && isAccess true d.req && mayWait d.req)

/-- Whether a packet is such a request on its way, and whether it is one that is to be sent again, or later (R151). -/
def mayWaitTo (core : Nat) (src : Ref) : Packet → Bool
  | .request d m => d == core && m.src == src && mayWait m.req
  | _ => false

def resendTo (core : Nat) (src : Ref) : Packet → Bool
  | .resend d m _ => d == core && m.src == src
  | _ => false

/-- Whether such a request of an agent to a core is still to be performed, there or on its way: what the agent sends after it to that
core must not be performed before it (R152, R223). -/
def corePending (s : State) (core : Nat) (src : Ref) : Bool :=
  heldAt s core src || s.net.any fun p => mayWaitTo core src p || resendTo core src p

/-- Whether an access of the current thread to a core cannot be sent now. -/
def portShut (s : State) (core : Nat) : Bool := portFull s s.cur.1 || corePending s core (curRef s)

/-- Whether an access of the current thread to its own core through a CORE segment is still to be performed (R152). -/
def selfPending (s : State) : Bool :=
  let me := curRef s
  let mine (m : Message) : Bool := m.src == me && isAccess false m.req
  s.net.any (fun p => match p with
    | .request d m => d == me.core && mine m
    | .resend d m _ => d == me.core && mine m
    | _ => false)
  || (curCore s).inq.any mine || (curCore s).deferred.any (fun d => d.src == me && isAccess true d.req)

/-- A LOCAL access waits for the thread's earlier CORE accesses to its own core (R152). -/
def localAccess (s : State) (k : Res) : Res := if selfPending s then .stop s (.park .retry) else k

/-! ## Synchronising steps of a scratchpad (R150, R153, R154, R156, R157) -/

/-- Whether the condition of a request holds. -/
def syncMet (c : Core) : Request → Bool
  | .syncLoad a n _ => (granulesOf a n).all (isFull c)
  | .fill a bs empty => !empty || (granulesOf a bs.length).all (fun g => !isFull c g)
  | .fe a op => op != 3 || isFull c (a / 16)
  | _ => true

/-- Write bytes of a scratchpad: poison covered whole is cleared (R417), and the event flags of the other slots are set
(R121); `by_` is the writing slot of the core, or 16. -/
def poolStore (c : Core) (by_ off : Nat) (bs : List Byte) : Core :=
  signalSlots (clearPoison (poolWrite c off bs) off bs.length) by_

/-- Perform a request whose condition holds: the core after it and the answer's bytes, or the cause by which it fails. -/
def syncDo (c : Core) (by_ : Nat) : Request → Except (BitVec 8) (Core × List Byte)
  | .syncLoad a n clear =>
    if poolPoisoned c a n then .error causePoisoned
    else .ok (if clear then (granulesOf a n).foldl (fun c g => setFull c g false) c else c, poolBytes c a n)
  | .fill a bs _ => .ok ((granulesOf a bs.length).foldl (fun c g => setFull c g true) (poolStore c by_ a bs), [])
  | .fe a 0 => .ok (setFull c (a / 16) true, [])
  | .fe a 1 => .ok (setFull c (a / 16) false, [])
  | .fe a 2 => .ok (c, [if isFull c (a / 16) then 1 else 0])
  | _ => .ok (c, [])

/-- Whether a request is posted, so that its answer is an acknowledgement (R169). -/
def isPosted : Request → Bool
  | .store _ _ => true
  | .fill _ _ _ => true
  | .fe _ op => op < 2
  | .cell _ op _ _ => op < 4
  | .muster op _ _ _ => op == 1 || op == 4
  | _ => false

/-- Answer a request that has been performed. -/
def answerRequest (s : State) (core : Nat) (m : Message) (data : Except (BitVec 8) (List Byte)) : State :=
  if isPosted m.req then send s (.ack m.src core) else send s (.reply m.src core data)

/-- Perform a synchronising request at a core. -/
def performSync (s : State) (core : Nat) (m : Message) : State :=
  match syncDo (getCore s core) 16 m.req with
  | .ok (c, bs) => answerRequest (setCore s core c) core m (.ok bs)
  | .error e => answerRequest s core m (.error e)

def isMuster : Request → Bool
  | .muster _ _ _ _ => true
  | _ => false

/-- Retry the deferred requests of a core after full bits have changed: the first in order whose condition holds, again
and again (R151). -/
def serveDeferred (s : State) (core : Nat) : Nat → State
  | 0 => s
  | fuel + 1 =>
    let c := getCore s core
    match c.deferred.find? fun d => !isMuster d.req && syncMet c d.req with
    | none => s
    | some d => serveDeferred (performSync (setCore s core { c with deferred := c.deferred.erase d }) core ⟨d.src, d.req⟩) core fuel

def settleBits (s : State) (core : Nat) : State := serveDeferred s core (getCore s core).deferred.length

/-- A LOCAL synchronising access, performed in the issue cycle. -/
def localSync (s : State) (req : Request) (put : List Byte → Thread → Thread) : Res :=
  localAccess s (
    let c := curCore s
    if !syncMet c req then .stop s (.park .retry)
    else match syncDo c s.cur.2.val req with
      | .error e => .trap s e (wordOf (match req with
        | .syncLoad a _ _ => a
        | _ => 0))
      | .ok (c, bs) => .ok (settleBits (modCur (setCore s s.cur.1 c) (put bs)) s.cur.1) 0)

/-! ## Requests to other cores -/

def targetCore (s : State) (p : Place) : Nat := coreKey (curCtx s) p.target

/-- A posted request: counted until its acknowledgement (R163). Behind an earlier one of its thread that is still to be performed at
the same owner the thread parks, and the message slot, which cannot, leaves its request to the built-in logic to send after that one
(R152, R223, log 151). -/
def postCore (s : State) (p : Place) (req : Request) : Res :=
  let k := targetCore s p
  let behind := corePending s k (curRef s)
  if (curThread s).unacked ≥ 65535 || portFull s s.cur.1 || (behind && !inMsgSlot s) then .stop s (.park .retry)
  else
    let m : Message := ⟨curRef s, req⟩
    .ok (send (modCur s fun t => { t with unacked := t.unacked + 1 }) (if behind then .resend k m s.cycle else .request k m)) 0

/-- A request whose reply the thread awaits; the message slot cannot wait (R166). -/
def askCore (s : State) (p : Place) (req : Request) (dest : ReplyTo) : Res :=
  if inMsgSlot s || portShut s (targetCore s p) then .stop s (.park .retry)
  else .stop (send s (.request (targetCore s p) ⟨curRef s, req⟩)) (.park (.reply dest p.sg p.off))

/-- A read of main memory, or an atomic there, has been performed: the thread parks until the reply with its bytes arrives (R101,
R104). -/
def askMemory (s : State) (p : Place) (dest : ReplyTo) (bs : List Byte) : Res :=
  .stop (send s (.reply (curRef s) s.cur.1 (.ok bs))) (.park (.reply dest p.sg p.off))

/-- What an instruction has asked of a unit has been done there: the thread parks until the unit's reply, which brings the result for
x[d], if it has one, and acquires at `scope` (0: none) (R101, R104, R329, R386, log 160). -/
def askUnit (s : State) (d : Option (BitVec 5)) (scope : Nat) (v : Word) : Res :=
  .stop (send s (.reply (curRef s) s.cur.1 (.ok (valBytes 8 v)))) (.park (.reply (.unit (d.map (·.toNat)) scope) 0 0))

/-- An operand in another core's scratchpad: read by a message and kept until the instruction issues again with it (R22, R149). -/
def askOperand (s : State) (p : Place) (n : Nat) : State × Stop :=
  if inMsgSlot s || portShut s (targetCore s p) then (s, .park .retry)
  else (send s (.request (targetCore s p) ⟨curRef s, .load p.addr n⟩), .park (.reply .operand p.sg p.off))

/-- The same of an operand in main memory, once it has been read (R101). -/
def gotOperand (s : State) (p : Place) (bs : List Byte) : State × Stop :=
  (send s (.reply (curRef s) s.cur.1 (.ok bs)), .park (.reply .operand p.sg p.off))

/-- The same of one that meets poison, which traps at the thread when the reply arrives (R243). -/
def askPoisoned (s : State) (p : Place) (dest : ReplyTo) : Res :=
  .stop (send s (.reply (curRef s) s.cur.1 (.error causePoisoned))) (.park (.reply dest p.sg p.off))

/-! ## Plain loads and stores by place (R152) -/

/-- A load of `z` bytes: `dest` places a reply, `put` the bytes of a LOCAL access, which ends at once. -/
def loadFrom (s : State) (sg : BitVec 3) (base disp : Word) (z : Nat) (dest : ReplyTo) (put : List Byte → Thread → Thread) : Res :=
  match segCheck s sg base disp z needR false with
  | .error e => .stop s e
  | .ok p =>
    if p.kind = kindLocal then
      localAccess s (
        if poolPoisoned (curCore s) p.addr z then .trap s causePoisoned (wordOf p.addr)
        else .ok (modCur s (put (poolBytes (curCore s) p.addr z))) 0)
    else if p.kind = kindCore then askCore s p (.load p.addr z) dest
    else if inMsgSlot s then .stop s (.park .retry)
    else match viewRead s (curView s) p.addr z accLoad with
      | .error (s, e) => .stop s e
      | .ok (s, _, bs) => askMemory s p dest bs

/-- Write bytes of the current core's scratchpad. -/
def localStore (s : State) (off : Nat) (bs : List Byte) : State := modCore s s.cur.1 fun c => poolStore c s.cur.2.val off bs

/-- A store of bytes. -/
def storeTo (s : State) (sg : BitVec 3) (base disp : Word) (bs : List Byte) : Res :=
  match segCheck s sg base disp bs.length needW false with
  | .error e => .stop s e
  | .ok p =>
    if p.kind = kindLocal then localAccess s (.ok (localStore s p.addr bs) 0)
    else if p.kind = kindCore then postCore s p (.store p.addr bs)
    else match viewWrite s (curView s) p.addr accStore false bs with
      | .error (s, e) => .stop s e
      | .ok s => .ok s 0

/-! ## Futures (R321 to R323) -/

def wordFull (s : State) (word : Nat) : Bool := s.futures.contains word
def setWordFull (s : State) (word : Nat) (on : Bool) : State := { s with futures := setPut s.futures word on }

/-- Serve one waiter of a word: kinds 0 LDS.K, 1 LDS.C, 2 FEWAIT, 3 STF.E; the entry holds the word to store, or the VA. -/
def serveWaiter (s : State) (w : FutureWait) : State :=
  let val := wordOf (memNat s (8 * w.word) 8)
  let s := match w.kind with
    | 1 => setWordFull s w.word false
    | 3 => setWordFull (homeWrite s w.who.core (8 * w.word) (valBytes 8 w.value)) w.word true
    | _ => s
  let s := if w.kind = 3 then s else refreshLine (acquireAt s w.who.core w.scope) w.who.core (8 * w.word)
  let poisoned := w.kind < 2 && memPoisoned s (8 * w.word) 8
  if poisoned then trapParked s w.who causePoisoned w.value
  else modRef (writeBack s w.who (if w.kind < 2 then some (regNo w.dest, val) else none)) w.who completeWait

/-- Serve a word's waiters in the order they came, up to the first whose condition does not hold (R322). -/
def serveWaiters (s : State) (word : Nat) : Nat → State
  | 0 => s
  | fuel + 1 =>
    let slice := homeSlice (8 * word)
    let table := mapGet s.waits slice []
    match table.find? (·.word == word) with
    | none => s
    | some w =>
      if wordFull s word == (w.kind != 3) then
        serveWaiters (serveWaiter { s with waits := mapSet s.waits slice (table.erase w) } w) word fuel
      else s

def settleWord (s : State) (word : Nat) : State :=
  serveWaiters s word (mapGet s.waits (homeSlice (8 * word)) []).length

/-- A waiter takes an entry, or enters poll mode where the table is full (R322, R323). -/
def waitFuture (s : State) (word kind dest : Nat) (p : Place) (value : Word) : Res :=
  if inMsgSlot s then .stop s (.park .retry)
  else
    let slice := homeSlice (8 * word)
    let table := mapGet s.waits slice []
    if table.length < 4096 then
      .stop { s with waits := mapSet s.waits slice (table ++ [⟨curRef s, word, kind, dest, value, p.addr, p.scope⟩]) } (.park .future)
    else
      let again := match (curThread s).wait with
        | .poll _ => true
        | _ => false
      let n : BitVec 32 := mapGet s.waitovf slice 0
      let s := if again then s else { s with waitovf := mapSet s.waitovf slice (if n = 0xFFFFFFFF then n else n + 1) }
      .stop s (.park (.poll (s.cycle + 1024)))

/-- The word of a synchronising access through a GLOBAL segment: translation and the checks of R159, R321, R364 and R383. -/
def futureWord (s : State) (p : Place) (write : Bool) : Except (State × Stop) (State × Nat) :=
  match translate s s.cur.1 p.addr (if write then accStore else accLoad) (curThread s).csr.sys with
  | .error e => .error e
  | .ok (s, l, pa) =>
    if write && pteFmt l.fmt ≠ 0 then .error (s, .trap causeFmtStore (wordOf p.addr))
    else if (regionAt s (curCtx s) p.addr).isSome then .error (s, .trap causeRevAtomic (wordOf p.addr))
    else if inSequence s (curCtx s) p.addr then .error (s, .trap causeSpecAtomic (wordOf p.addr))
    else if isHost pa then .error (s, .trap causeSyncForm p.off)
    else .ok (s, pa / 8)

/-- The word of the primary frame, whose home slice keeps the waiters of a duplicated page's word, as a change of it collapses the
page (R274, R321, log 109). -/
def homeWord (s : State) (p : Place) (w : Nat) : Nat :=
  match findLeaf s s.cur.1 p.addr with
  | .ok (_, l) => if pteState l.base == stDuplicated then leafPa l p.addr / 8 else w
  | .error _ => w

/-- The word for a change of it or of its bit, which collapses a duplicated page (R274). -/
def oneHome (s : State) (p : Place) (w : Nat) : State × Nat :=
  match findLeaf s s.cur.1 p.addr with
  | .ok (s, l) => ((settleDup s s.cur.1 p.addr l).1, homeWord s p w)
  | .error _ => (s, w)

/-- Write a word, where a value is given, set its bit, and serve its waiters (R322). -/
def fillWord (s : State) (w : Nat) (value : Option Word) (full : Bool) : State :=
  let s := match value with
    | some v => homeWrite s s.cur.1 (8 * w) (valBytes 8 v)
    | none => s
  settleWord (setWordFull s w full) w

/-- A future access of the current thread: kind as in `serveWaiter`, or 4 FETEST, 5 FESET, 6 FECLR, 7 plain STF. One that returns
something parks until its reply arrives (R104). -/
def futureAccess (s : State) (p : Place) (kind : Nat) (dest : BitVec 5) (value : Word) : Res :=
  match futureWord s p (kind == 3 || 5 ≤ kind) with
  | .error (s, e) => .stop s e
  | .ok (s, w) =>
    let full := wordFull s w
    let change (value : Option Word) (full : Bool) : Res :=
      let (s, w) := oneHome s p w
      .ok (fillWord s w value full) 0
    if kind == 7 then change (some value) true
    else if kind == 5 then change none true
    else if kind == 6 then change none false
    else if inMsgSlot s then .stop s (.park .retry)
    else if kind == 4 then askMemory s p (.fetest dest.toNat) [if full then 1 else 0]
    else if full != (kind != 3) then
      waitFuture s (homeWord s p w) kind dest.toNat p (if kind == 3 then value else wordOf p.addr)
    else if kind == 3 then change (some value) true
    else if kind == 2 then askMemory s p .bare []
    else if memPoisoned s (8 * w) 8 then .trap s causePoisoned (wordOf p.addr)
    else
      let bs := memBytes s (8 * w) 8
      let s := refreshLine s s.cur.1 (8 * w)
      let s := if kind == 1 then
          let (s, w) := oneHome s p w
          fillWord s w none false
        else s
      askMemory s p (.sync dest.toNat 8) bs

end Sys2Proof.Machine
end

