-- ==== Sys2Proof/Machine/Launcher.lean ====
section
/-!
DEFINITION. Taking a slot: the kernel image in memory (R294), the `.local` image that dispatch writes (R70), basket quarters
that make way (R273), the first placing of a core (R257), and the move of a thread between slots (R122 to R124).
-/

namespace Sys2Proof.Machine

def roundUp (n k : Nat) : Nat := (n + k - 1) / k * k

/-! ## The image (R294) -/

def textVa (kimg : Nat) : Nat := kimg + 64
def localVa (kimg textsz : Nat) : Nat := roundUp (textVa kimg + textsz) 64
def fillVa (kimg textsz localsz : Nat) : Nat := roundUp (localVa kimg textsz + localsz) 64
def fillBytes (localsz : Nat) : Nat := roundUp ((localsz + 15) / 16) 512 / 8
def tablesVa (kimg textsz localsz : Nat) : Nat := fillVa kimg textsz localsz + fillBytes localsz

/-- Fields of a launch record (R296). -/
def lrecField (r : BitVec 512) (lo n : Nat) : Nat := fieldOf r lo n
def lrecKimg (r : BitVec 512) : Nat := lrecField r 0 64
def lrecDonefut (r : BitVec 512) : Nat := lrecField r 64 64
def lrecArg (r : BitVec 512) (i : Nat) : Word := wordOf (lrecField r (128 + 64 * i) 64)
def lrecThreads (r : BitVec 512) : Nat := lrecField r 336 32
def lrecTasks (r : BitVec 512) : Nat := lrecField r 368 16
def lrecSys (r : BitVec 512) : Bool := lrecField r 384 1 = 1
def lrecChain (r : BitVec 512) : Bool := lrecField r 385 1 = 1
def lrecPrio (r : BitVec 512) : Nat := lrecField r 392 2
def lrecDeadline (r : BitVec 512) : Nat := lrecField r 400 48
def lrecStrand (r : BitVec 512) : Nat := lrecField r 448 16
def lrecSeg2 (r : BitVec 512) : Nat := lrecField r 464 16
def lrecFrame (r : BitVec 512) : Nat := lrecField r 480 16

/-- `seg0` of a slot (R300 step 4). -/
def frameSeg (localsz frame slot : Nat) : SegWord :=
  if frame = 0 then 0
  else BitVec.ofNat 128 ((roundUp localsz 16 + slot * frame * 16) + frame * 16 * 2 ^ 56 + 15 * 2 ^ 90)

/-! ## Basket quarters (R273) -/

/-- The bytes of a scratchpad quarter by their offset in the page. -/
def quarterCells (c : Core) (off q : Nat) : List Host.Cell :=
  (c.pool.filter fun p => decide (off ≤ p.1) && decide (p.1 < off + 16384)).map fun p => (p.1 - off + q * 16384, p.2)

/-- A quarter's place is free, and its bytes read as zero (log 50). -/
def clearQuarter (c : Core) (off : Nat) : Core :=
  let keep (a : Nat) : Bool := !(decide (off ≤ a) && decide (a < off + 16384))
  { c with
    pool := c.pool.filter fun p => keep p.1
    poison := c.poison.filter fun g => keep (16 * g)
    quarters := c.quarters.filter (·.1 != off) }

/-- The granules of a quarter's place are empty (R273). -/
def emptyQuarter (c : Core) (off : Nat) : Core :=
  { c with full := c.full.filter fun g => !(decide (off ≤ 16 * g) && decide (16 * g < off + 16384)) }

/-- The bytes of a page in the basket, gathered from the cores that hold its quarters. -/
def basketBytes (s : State) (ctx page : Nat) : List Host.Cell :=
  (s.cores.filter (fun p => ctxOf p.1 == ctx)).foldl (fun m p =>
    p.2.quarters.foldl (fun m q =>
      if q.2 / 4 = page then (quarterCells p.2 q.1 (q.2 % 4)).foldl (fun m b => cellSet m b.1 b.2) m else m) m) []

/-- Free the quarters of a page. -/
def freeQuarters (s : State) (ctx page : Nat) : State :=
  { s with cores := s.cores.map fun p =>
      if ctxOf p.1 = ctx then
        (p.1, (p.2.quarters.filter fun q => q.2 / 4 == page).foldl (fun c q => clearQuarter c q.1) p.2)
      else p }

/-- A page of the basket goes on to host memory, where Hjelec already keeps its future bits and poison. -/
def basketToHost (s : State) (ctx page : Nat) : State :=
  let bytes := basketBytes s ctx page
  let held := (s.cores.filter fun p => ctxOf p.1 == ctx).flatMap fun p =>
    (p.2.quarters.filter fun q => q.2 / 4 == page).map fun q => (p.1, q.1)
  let s := freeQuarters s ctx page
  let s := held.foldl (fun s q => settleBits (modCore s q.1 fun c => emptyQuarter c q.2) q.1) s
  let s := modCtx s ctx fun c => { c with away := mapSet c.away page (bytes ++ mapGet c.away page []) }
  match rawLeaf s ctx (page * 65536) with
  | some l => if pteState l.base = stBasket then setLeaf s l (setPteState l.base stHost false) else s
  | none => s

/-- Every quarter that a core holds makes way. -/
def emptyBasket (s : State) (core : Nat) : State :=
  (getCore s core).quarters.foldl (fun s q => basketToHost s (ctxOf core) (q.2 / 4)) s

/-! ## Preparing a core -/

/-- The message slot's segments of a core that dispatch places for the first time (R257), without the check of R147 (log 153). -/
def messageSegs (s : State) (ctx : Nat) : Vector SegWord 8 :=
  match getCtx? s ctx with
  | none => Vector.replicate 8 0
  | some c => Vector.ofFn fun i : Fin 8 =>
      let pa := ctxSegtab c + 32 * i.val
      let grant : Word := wordOf (memNat s (pa + 16) 8)
      if i.val < ctxSegcnt c && fieldOf grant 0 1 == 1 && fieldOf grant (8 + i.val) 1 == 1 then BitVec.ofNat 128 (memNat s pa 16) else 0

/-- First placing of a core by dispatch. -/
def placeCore (s : State) (core : Nat) : State :=
  if (getCore s core).placed then s
  else
    let segs := messageSegs s (ctxOf core)
    modCore s core fun c => { coreSetSlot c 15 { coreSlot c 15 with seg := segs } with placed := true }

/-- Full granules of the image by its fill map. -/
def fillGranules (bs : List Byte) (n : Nat) : List Nat :=
  (List.range n).filter fun g => (bs.getD (g / 8) 0).toNat / 2 ^ (g % 8) % 2 == 1

/-- Write a kernel's `.local` image and its full bits into a core without live work (R70); none while a page of the image
is not there. -/
def loadImage (s : State) (core : Nat) (launch : BitVec 32) : Option State :=
  match getLaunch? s (ctxOf core) launch with
  | none => none
  | some l =>
    let kimg := lrecKimg l.record
    match vaBytes s (ctxOf core) (localVa kimg l.kernel.textsz) l.kernel.localsz,
          vaBytes s (ctxOf core) (fillVa kimg l.kernel.textsz l.kernel.localsz) (fillBytes l.kernel.localsz) with
    | some bs, some map =>
      let s := placeCore (emptyBasket s core) core
      some (settleBits (modCore s core fun c =>
        { clearPoison (poolWrite c 0 bs) 0 bs.length with
          full := fillGranules map ((l.kernel.localsz + 15) / 16), part := l.kernel.part, kimg := wordOf kimg, imageDue := false }) core)
    | _, _ => none

/-- The lowest EMPTY user slot below the kernel's U. -/
def lowestEmpty (c : Core) (part : BitVec 32) : Option Nat :=
  (List.range (partSlots part)).find? fun i => (coreSlot c (slotOf i)).phase == .empty

/-- A core is made ready for a thread of a launch that arrives by migration or FORK: the image is written there where no live work
holds the core, or where none of the work bound to it has started yet (R70, R122). -/
def readyCore (s : State) (core : Nat) (launch : BitVec 32) : Option State :=
  let c := getCore s core
  if coreBusy c && !c.imageDue then some (emptyBasket s core) else loadImage s core launch

/-- A bind record is written (R299): the slot is BOUND and a unit of live work of the launch `owner`; a core without live
work is to take the kernel's image at its first dispatch. -/
def bindSlot (s : State) (r : Ref) (owner : BitVec 32) (kimg : Nat) (b : Bind) : State :=
  let busy := coreBusy (getCore s r.core)
  let s := emptyBasket s r.core
  let (s, tag) := takeTag s r.core owner
  let s := modCore s r.core fun c =>
    { c with binds := mapSet c.binds r.slot { b with ltag := tag }, part := b.part, kimg := wordOf kimg
             imageDue := if busy then c.imageDue else true }
  let s := modRef s r fun t =>
    { Thread.initial .bound with
      lastIssue := t.lastIssue, launch := b.launch, rank := b.rank, ltag := tag, quad := b.quad, up := b.up, down := b.down
      taskBase := b.taskBase, taskRun := b.taskRun }
  liveAdd s r.core tag

/-! ## Migration (R122 to R124) -/

/-- The ids of a slot's tasks. -/
def threadTaskIds (s : State) (r : Ref) : List (BitVec 32) :=
  (taskIndices (refThread s r)).map (currentId s (ctxOf r.core))

/-- Ready-queue entries of a core that name one of the ids, by priority. -/
def readyOf (c : Core) (ids : List (BitVec 32)) (p : Nat) : List (BitVec 32) := (c.ready.get (Fin.ofNat 4 p)).filter ids.contains

/-- Whether the target's sleep table has room for the entries that move (R124). -/
def sleepRoom (src dst : Core) (ids : List (BitVec 32)) : Bool :=
  let extra := ((List.range 4).map fun p => (readyOf src ids p).length - (16 - (dst.ready.get (Fin.ofNat 4 p)).length)).sum
  decide (dst.sleepers.length + (src.sleepers.filter fun e => ids.contains e.task).length + extra ≤ 16)

/-- Move the ready-queue and sleep-table entries of the ids. -/
def moveQueues (s : State) (src dst : Nat) (ids : List (BitVec 32)) : State :=
  let a := getCore s src
  let b := getCore s dst
  let b := (List.range 4).foldl (fun c p => (readyOf a ids p).foldl (fun c id =>
    let (c', ok) := readyPush c id p
    if ok then c' else { c with sleepers := c.sleepers ++ [⟨id, p, true⟩] }) c) b
  let b := { b with sleepers := b.sleepers ++ a.sleepers.filter fun e => ids.contains e.task }
  let a := { a with
    ready := a.ready.map (fun q => q.filter fun id => !ids.contains id)
    sleepers := a.sleepers.filter fun e => !ids.contains e.task }
  setCore (setCore s src a) dst b

/-- Whether a cluster's party table takes a thread's parties (R309). -/
def partyRoom (s : State) (cluster : Nat) (ps : List Nat) : Bool :=
  let have_ := (getCluster s cluster).parties
  decide (have_.length + (ps.filter fun p => (mapGet? have_ p).isNone).length ≤ 64)

/-- A reference to a slot that has moved. -/
def moveRef (src dst r : Ref) : Ref := if r = src then dst else r

/-- Whether a thread may move to a core now: a slot, a completion tag, and the tables' room. -/
def migrateReady (s : State) (src : Ref) (dst : Nat) : Bool :=
  let t := refThread s src
  kernelFits s src.core dst && tagRoom (getCore s dst) (liveLaunch s src)
    && sleepRoom (getCore s src.core) (getCore s dst) (threadTaskIds s src)
    && (clusterOf src.core == clusterOf dst || partyRoom s (clusterOf dst) (t.parties.map (·.1)))
    && (t.held.isNone || clusterOf src.core == clusterOf dst ||
      match t.held with
      | some p => memberRoom s (ctxOf dst) (clusterOf dst) p.handle
      | none => true)

/-- Move a thread, parked by its migration, to a free slot of the target (R122 steps 5 and 6, R124): the structures that
follow it, one unit of live work, and the acquire of R123. With the slot's state go its event flag, its pending traps and YIELD's mark,
and with `STATUS.CHAIN` = 0 too its chain queue and its neighbours' links (log 150). -/
def migrateThread (s : State) (src dst : Ref) (again : Bool) : State :=
  let t := refThread s src
  let ctx := ctxOf src.core
  let scope := coverScope s src.core dst.core
  let ids := threadTaskIds s src
  let s := t.parties.foldl (fun s p => partyDepart (partyEnter s dst.core p.1) src.core p.1) s
  let s := (taskIndices t).foldl (fun s i =>
    match getTask? s ctx i with
    | some e => setTask s ctx i { e with place := moveRef src dst e.place }
    | none => s) s
  let s := if src.core = dst.core then s else moveQueues s src.core dst.core ids
  let s := moveHeld s t.held src.core dst.core
  let (s, tag) := takeTag s dst.core (liveLaunch s src)
  let s := liveSub (liveAdd s dst.core tag) src.core t.ltag
  let old := refThread s dst
  let s := modRef s dst fun _ => { t with ltag := tag, lastIssue := old.lastIssue }
  let s := modRef s src fun t => { Thread.initial .empty with lastIssue := t.lastIssue }
  let bind := mapGet? (getCore s src.core).binds src.slot
  let s := modCore s src.core fun c => { c with binds := mapErase c.binds src.slot }
  let s := match bind with
    | some b => modCore s dst.core fun c => { c with binds := mapSet c.binds dst.slot b }
    | none => s
  let s := { s with
    cores := s.cores.map fun p => (p.1, { p.2 with
      handles := p.2.handles.map fun h => (h.1, { h.2 with owner := moveRef src dst h.2.owner })
      slots := p.2.slots.map fun t => { t with passing := t.passing.map fun x => (x.1, moveRef src dst x.2) } })
    clusters := s.clusters.map fun p => (p.1, { p.2 with
      revs := p.2.revs.map fun e => (e.1, { e.2 with owner := moveRef src dst e.2.owner, child := if e.2.phase = .done then e.2.child else moveRef src dst e.2.child }) })
    net := s.net.map fun p => match p with
      | .chainWord a b w => .chainWord (moveRef src dst a) (moveRef src dst b) w
      | .forward d m asked => .forward (moveRef src dst d) m asked
      | .ask d id => .ask (moveRef src dst d) id
      | p => p }
  let s := match t.down with
    | some n => modRef s n fun u => if u.up = some src then { u with up := some dst } else u
    | none => s
  let s := match t.up with
    | some n => modRef s n fun u => if u.down = some src then { u with down := some dst } else u
    | none => s
  let s := modRef s dst fun t => if again then unpark t else { completeWait t with popped := none }
  acquireAt s dst.core scope

end Sys2Proof.Machine
end

