-- ==== Sys2Proof/Machine/SysFamily.lean ====
section
/-!
DEFINITION. The SYS family: traps and returns (R415), the segment table (R258), and fault service (R275 to R279), with the
wake of parked accesses that Hjelec also performs (R271).
-/

namespace Sys2Proof.Machine

/-! ## Operations -/

/-- DEVICE scope. -/
def deviceScope : Nat := 3

/-- A new capacity takes effect once the buffer and the pending set are both empty (R271). -/
def settleCapacity (s : State) (d : Nat) : State :=
  modDie s d fun x =>
    if x.faults.isEmpty && x.pendingSet.isEmpty then { x with capacity := x.newCapacity.getD x.capacity, newCapacity := none } else x

/-- Whether a slot, halted or not, waits for a page on a die. -/
def waitsPage (t : Thread) (d : Nat) : Bool :=
  match t.wait with
  | .page _ e => e == d
  | _ => false

/-- Wake every agent of a context that is parked on a page fault on a die (R277): threads, and copy commands that are held.
Each reissue acquires at DEVICE scope. -/
def wakeFaults (s : State) (ctx d : Nat) : State :=
  let woken (c : Core) : Bool :=
    c.slots.toList.any fun t => waitsPage t d || t.copyq.any fun q => q.held.isSome
  let free (t : Thread) : Thread :=
    let t := { t with copyq := t.copyq.map fun q => { q with held := none } }
    if waitsPage t d then rewait t else t
  s.cores.foldl (fun s p =>
    if ctxOf p.1 = ctx && dieOf s p.1 = d && woken p.2 then
      dropCache (setCore s p.1 { p.2 with slots := p.2.slots.map free }) p.1
    else s) s

/-- REPLAY's steps, or Hjelec's equivalent (R277). -/
def replayFaults (s : State) (ctx d : Nat) : State :=
  let s := modDie s d fun x =>
    { x with pendingSet := x.pendingSet.filter (·.1 != ctx), dropped := setDel x.dropped ctx }
  settleCapacity (wakeFaults s ctx d) d

/-- The four words of a fault record that FBPOP returns (R270, R276). -/
def faultWords (r : FaultRec) (more dropped : Bool) : List Word :=
  [wordOf (r.va % 2 ^ 56),
   wordOf (r.ctx % 2 ^ 16 + r.core * 2 ^ 24 + r.slot * 2 ^ 44 + r.kind * 2 ^ 48 + r.cause.toNat * 2 ^ 56),
   r.cycle,
   wordOf (r.found.toNat + (if more then 2 ^ 61 else 0) + (if dropped then 2 ^ 62 else 0) + 2 ^ 63)]

/-- The Z-die that an operand names (R275). -/
def dieOperand (w : Word) : Option Nat := if w.toNat < 8 then some w.toNat else none

/-- Whether a descriptor keeps R147 (R258). -/
def descriptorOk (s : State) (ctx : Nat) (d : SegWord) : Bool :=
  let k := segKind d
  decide (k < 3) && fieldOf d 99 5 == 0 && fieldOf d 124 4 == 0
    && (if k == kindGlobal then segBase d % 64 == 0 && decide (segBase d + segLimit d ≤ 2 ^ 56)
        else decide (segBase d < 2 ^ 16) && decide (segBase d + segLimit d ≤ 65536))
    && (if k == kindCore then (match getCtx? s ctx with
        | some c => inGrid c (segTarget d)
        | none => false) else segTarget d == 0)
    && scopeDefined s ctx (segScope d)

/-- Whether the current context has delegated fault service (R271). -/
def delegated (s : State) : Bool :=
  match getCtx? s (curCtx s) with
  | some c => ctxPager c
  | none => false

/-- A PGPIN or PGUNPIN operand that breaks its limits, or whose walk fails (R275, R279). -/
def pinOperand (s : State) (va : Word) : Option Stop :=
  if va.toNat ≥ 2 ^ 56 then some (.trap causePgOperand va)
  else match walk s (curCtx s) va.toNat with
    | .error (c, _) => if c = causePtBad ∨ c = causePoisoned then some (.trap c va) else none
    | .ok _ => none

/-- Drop the translations of a whole context from every TLB, and the lines of its clusters' caches (R278 mode 1). -/
def dropContext (s : State) (ctx : Nat) : State :=
  let ours (k : Nat) : Bool := (if k % 2 = 1 then k / 2 / 2 ^ 28 else k / 2 / 2 ^ 40) == ctx
  let drop (m : SMap Leaf) : SMap Leaf := m.filter fun p => !ours p.1
  { s with
    clusters := s.clusters.map fun p =>
      (p.1, { p.2 with tlb := drop p.2.tlb, cache := if ctxOf (firstCore p.1) = ctx then [] else p.2.cache })
    dies := s.dies.map fun p => (p.1, { p.2 with tlb := drop p.2.tlb }) }

/-- The leaves that walks have found for a page since its last TLBINV: its lines, and those of its old frames, lie in no other place. -/
def walkedLeaves (s : State) (ctx va : Nat) : List Leaf :=
  match getCtx? s ctx with
  | some c => mapGet c.walked (tlbKey ctx va false) [] ++ mapGet c.walked (tlbKey ctx va true) []
  | none => []

/-- TLBINV mode 0: the page's translations go, and the lines of its frames, replicas and scale frames included (R278). -/
def dropVa (s : State) (ctx va : Nat) : State :=
  let s := (walkedLeaves s ctx va).foldl (fun s l => dropPage s l true) (shootdown s ctx va)
  modCtx s ctx fun c => { c with walked := mapErase (mapErase c.walked (tlbKey ctx va false)) (tlbKey ctx va true) }

/-- The threads with an access that an entry now to be removed has translated, of the page at `va` or of any, and that is still to be
performed: a future's waiters, as every other access is performed in its step (R278, log 161). -/
def translatedWaits (s : State) (ctx : Nat) (page : Option Nat) : List Ref :=
  let near (va a : Nat) : Bool :=
    let n := if (walkedLeaves s ctx va).any (·.large) then 2 ^ 28 else 65536
    va / n == a / n
  s.waits.flatMap fun p => (p.2.filter fun w => ctxOf w.who.core == ctx && match page with
    | some va => near va w.va
    | none => true).map (·.who)

/-- Whether a thread waits at a home slice. -/
def waitsAtHome (s : State) (r : Ref) : Bool := s.waits.any fun p => p.2.any fun w => w.who == r

/-- A parked TLBINV completes once the accesses that it waits for have been performed; those of a later time are none of them. -/
def startFlush (s : State) (r : Ref) : State :=
  let t := refThread s r
  match t.phase, t.wait with
  | .parked, .flush who =>
    let left := who.filter (waitsAtHome s)
    if left.isEmpty then modRef (writeBack s r none) r completeWait
    else if left = who then s
    else modRef s r fun t => { t with wait := .flush left }
  | _, _ => s

/-! ## TRAP, ERET, BRK, PWR, NOP (R415) -/

/-- TRAP. -/
def execTrap (a : BitVec 5) (t : BitVec 4) (s : State) : Host.Outcome State Fault Refusal :=
  run 4 { xr := [a] } s fun s => .trapAfter s (causeSyscall t.toNat) (getX (curThread s) a)

/-- ERET. -/
def execEret (s : State) : Host.Outcome State Fault Refusal :=
  run 4 { noMsg := true } s fun s =>
    if (curThread s).csr.tm then .gone (modCur s leaveTrap) else .trap s causeNotInTrap (instrWord s)

/-- BRK. -/
def execBrk (s : State) : Host.Outcome State Fault Refusal :=
  run 4 {} s fun s => .trap s causeBreakpoint 0

/-- NOP. -/
def execNop (s : State) : Host.Outcome State Fault Refusal :=
  runT 4 {} s fun t => .ok t 0

/-- The matrix engine of a core is gated: the mode is on and both queues of every slot are empty. -/
def isGated (c : Core) : Bool := c.gated && c.slots.toList.all fun t => t.matq.isEmpty && t.copyq.isEmpty

/-- PWR. -/
def execPwr (d a : BitVec 5) (s : State) : Host.Outcome State Fault Refusal :=
  run 4 { xr := [a], xw := some d, priv := true } s fun s =>
    let m := getX (curThread s) a
    if m.toNat > 2 then .trap s causePwrOperand m
    else
      let s := modCore s s.cur.1 fun c =>
        if m = 1 then { c with gated := true } else if m = 2 then { c with gated := false } else c
      let level := (getDie s (dieOf s s.cur.1)).level
      .ok (modCur s fun t => setX t d (wordOf (level.toNat + if isGated (curCore s) then 16 else 0))) 0

/-! ## SEGLD (R258) -/

/-- SEGLD, which parks until the entry arrives (R258). -/
def execSegld (sg : BitVec 3) (a : BitVec 5) (s : State) : Host.Outcome State Fault Refusal :=
  run 4 { xr := [a], noMsg := true } s fun s =>
    let i := getX (curThread s) a
    match getCtx? s (curCtx s) with
    | none => .trap s causeSegDenied i
    | some c =>
      if i.toNat ≥ ctxSegcnt c then .trap s causeSegDenied i
      else
        let pa := ctxSegtab c + 32 * i.toNat
        let desc : SegWord := BitVec.ofNat 128 (memNat s pa 16)
        let grant : Word := wordOf (memNat s (pa + 16) 8)
        if memPoisoned s pa 32 then
          let (s, v) := takeFree s
          .trap s causePoisoned v
        else if fieldOf grant 0 1 = 0 ∨ fieldOf grant (8 + sg.toNat) 1 = 0 ∨ (fieldOf grant 1 1 = 1 ∧ !(curThread s).csr.sys)
          then .trap s causeSegDenied i
        else if !descriptorOk s (curCtx s) desc then .trap s causeSegDenied i
        else askUnit (modCur s fun t => setSeg t sg desc) none 0 0

/-! ## Fault service (R275 to R279) -/

/-- FBPOP, which parks until the answer returns (R276). -/
def execFbpop (d : BitVec 3) (a : BitVec 5) (s : State) : Host.Outcome State Fault Refusal :=
  run 4 { xr := [a], xs := groupRegs d, priv := true, noMsg := true } s fun s =>
    let v := getX (curThread s) a
    match dieOperand v with
    | none => .trap s causePgOperand v
    | some die =>
      if !delegated s then .trap s causePgOperand v
      else
        let ctx := curCtx s
        let x := getDie s die
        let dropped := x.dropped.contains ctx
        let words : List Word × List FaultRec := match x.faults.find? (·.ctx == ctx) with
          | some r =>
            let rest := x.faults.erase r
            (faultWords r (rest.any (·.ctx == ctx)) dropped, rest)
          | none => ([0, 0, 0, if dropped then wordOf (2 ^ 62) else 0], x.faults)
        let s := settleCapacity (modDie s die fun x => { x with faults := words.2 }) die
        askUnit (modCur s fun t => putGroup t d words.1) none deviceScope 0

/-- REPLAY. -/
def execReplay (a : BitVec 5) (s : State) : Host.Outcome State Fault Refusal :=
  run 4 { xr := [a], priv := true, noMsg := true } s fun s =>
    let v := getX (curThread s) a
    match dieOperand v with
    | none => .trap s causePgOperand v
    | some die => releasing s (.ok (replayFaults s (curCtx s) die) 0)

/-- TLBINV: the entries go in its step, and the thread parks while an access that one of them had translated waits (R278). -/
def execTlbinv (a b : BitVec 5) (s : State) : Host.Outcome State Fault Refusal :=
  run 4 { xr := [a, b], priv := true, noMsg := true } s fun s =>
    let mode := getX (curThread s) b
    let va := getX (curThread s) a
    if mode.toNat > 1 then .trap s causePgOperand mode
    else if mode = 0 && decide (va.toNat ≥ 2 ^ 56) then .trap s causePgOperand va
    else releasing s (
      let who := translatedWaits s (curCtx s) (if mode = 1 then none else some va.toNat)
      let s' := if mode = 1 then dropContext s (curCtx s) else dropVa s (curCtx s) va.toNat
      if who.isEmpty then .ok s' 0 else .stop s' (.park (.flush who)))

/-- PGPIN; one that collapses a duplicated page acquires at DEVICE (R228, R274). -/
def execPgpin (d a : BitVec 5) (s : State) : Host.Outcome State Fault Refusal :=
  run 4 { xr := [a], xw := some d, priv := true, noMsg := true } s fun s =>
    let va := getX (curThread s) a
    match pinOperand s va with
    | some e => .stop s e
    | none =>
      let s' := match rawLeaf s (curCtx s) va.toNat with
        | some l => if pteState l.base = stDuplicated then dropCache s s.cur.1 else s
        | none => s
      match pinPage s' (curCtx s) va.toNat with
      | .unmapped => .trap s causePgOperand va
      | .overflow => .trap s causePinOverflow va
      | .away => .stop s (.park (.recall va.toNat))
      | .pinned s n => .ok (modCur s fun t => setX t d (wordOf n)) 0

/-- PGUNPIN. -/
def execPgunpin (d a : BitVec 5) (s : State) : Host.Outcome State Fault Refusal :=
  run 4 { xr := [a], xw := some d, priv := true, noMsg := true } s fun s =>
    let va := getX (curThread s) a
    match pinOperand s va with
    | some e => .stop s e
    | none =>
      match unpinPage s (curCtx s) va.toNat with
      | none => .trap s causePgOperand va
      | some (s, n) => .ok (modCur s fun t => setX t d (wordOf n)) 0

end Sys2Proof.Machine
end

