-- ==== Sys2Proof/Machine/TrailUnit.lean ====
section
/-!
DEFINITION. The Trail (R357 to R361): its entries in memory, the recording and the replay of atomics, and the halt of a
context that diverges.
-/

namespace Sys2Proof.Machine

def modTrail (s : State) (ctx : Nat) (f : Trail → Trail) : State := modCtx s ctx fun c => { c with trail := f c.trail }

/-- The PA of a byte of the Trail. -/
def trailPa (s : State) (ctx off : Nat) : Option Nat :=
  match getCtx? s ctx with
  | some c => (rawLeaf s ctx (ctxTrailbase c + off)).map fun l => leafPa l (ctxTrailbase c + off)
  | none => none

/-- ENTRIES of the header. -/
def trailEntries (s : State) (ctx : Nat) : Nat :=
  match trailPa s ctx 8 with
  | some pa => memNat s pa 8
  | none => 0

/-- An entry in memory. -/
def trailEntry (s : State) (ctx i : Nat) : BitVec 128 :=
  match trailPa s ctx (64 + 16 * i) with
  | some pa => BitVec.ofNat 128 (memNat s pa 16)
  | none => 0

/-- Append an entry; none where the mapped pages have no room (R359, R360). -/
def trailAppend (s : State) (ctx : Nat) (pages : Nat) (e : BitVec 128) : Option State :=
  let n := trailEntries s ctx
  if 64 + 16 * (n + 1) > 65536 * pages then none
  else match trailPa s ctx (64 + 16 * n), trailPa s ctx 8 with
    | some pa, some hd =>
      let at_ (off : Nat) (s : State) : State := settleVa s ctx none ((getCtx? s ctx).elim 0 ctxTrailbase + off)
      some (softWrite (at_ 8 (softWrite (at_ (64 + 16 * n) s) pa (valBytes 16 e))) hd (leBytes 8 (n + 1)))
    | _, _ => none

/-- A context that runs goes to HALTING for a reason after which it is dumped, with what the reason reports; in another state the event
waits until the state changes (R252). -/
def haltWith (s : State) (ctx : Nat) (reason : BitVec 8) (val : Word) : State :=
  modCtx s ctx fun c =>
    match c.phase with
    | .running => { c with phase := .halting, reason := some reason, haltVal := val, mustDump := true }
    | _ => { c with waiting := c.waiting ++ [.halt reason val] }

def haltContext (s : State) (ctx : Nat) (reason : BitVec 8) : State := haltWith s ctx reason 0

/-- The Trail has filled: FULL, and TRAILFULL in the launch (R360). -/
def trailFilled (s : State) (r : Ref) : State :=
  recordStatus (modTrail s (ctxOf r.core) fun t => { t with full := true }) r.core (refThread s r).ltag statusTrailFull

/-- A replay that diverges: the trap, and the halt of the context (R361). -/
def diverged (s : State) (val : Word) : Res :=
  .trap (haltContext s (curCtx s) causeReplayDiverged) causeReplayDiverged val

/-- The KIND 2 entry of an atomic, by VA, SEQ, STAMP and CNT (R358). -/
def atomicEntry (va : Nat) (seq : BitVec 16) (stamp : Word) (cnt : BitVec 16) : BitVec 128 :=
  BitVec.ofNat 128 (2 * 2 ^ 124 + va / 8 % 2 ^ 53 * 2 ^ 71 + seq.toNat * 2 ^ 48 + fieldOf stamp 0 32 * 2 ^ 16 + cnt.toNat)

/-- Whether an atomic at a home slice may execute now as far as the Trail goes, and the state after its entry is written
or consumed (R359 to R361). -/
def trailAtomic (s : State) (va pa : Nat) : Except Res State :=
  match getCtx? s (curCtx s) with
  | none => .ok s
  | some c =>
    let t := curThread s
    let word := pa / 8
    let seq := mapGet c.trail.positions word 0
    let done (s : State) : State :=
      modCur (modTrail s (curCtx s) fun tr => { tr with positions := mapSet tr.positions word (seq + 1) })
        fun t => { t with recorded := t.recorded + 1 }
    if !t.csr.trailAtoms || c.trail.mode = 0 || 2 < c.trail.mode then .ok s
    else if c.trail.mode = 1 then
      match trailAppend s (curCtx s) c.trail.pages (atomicEntry va seq t.csr.stamp t.recorded) with
      | some s => .ok (done s)
      | none =>
        let s := trailFilled s (curRef s)
        if c.trail.exhausted then .error (.trap s causeTrailExhausted (wordOf va)) else .error (.stop s (.park .retry))
    else
      let key := fun (e : BitVec 128) => e &&& ~~~(BitVec.ofNat 128 (0xFFFF * 2 ^ 48 + 0x7F * 2 ^ 64))
      let want := key (atomicEntry va 0 t.csr.stamp t.recorded)
      match (List.range c.trail.index.length).find? fun i => !c.trail.consumed.contains i && key (c.trail.index.getD i 0) == want with
      | none => .error (diverged s (wordOf va))
      | some i =>
        if fieldOf (c.trail.index.getD i 0) 48 16 = seq.toNat then
          .ok (done (modTrail s (curCtx s) fun tr => { tr with consumed := i :: tr.consumed }))
        else .error (.stop s (.park .retry))

end Sys2Proof.Machine
end

