-- ==== Sys2Proof/Machine/LaunchUnit.lean ====
section
/-!
DEFINITION. Launch records: what Hjelec reads of a kernel image (R294, R295) and the checks of R298 in their order, which
RFRAME.OPEN applies to a fragment launch record too (R396); the completion of a launch (R303).
-/

namespace Sys2Proof.Machine

/-! ## Pages that Hjelec needs -/

inductive PageNeed where
  | here | away | bad
deriving DecidableEq, Repr

/-- Whether a page can be read now, after a recall, or not at all (R298 reason 1). -/
def needPage (s : State) (ctx va : Nat) : PageNeed :=
  if 2 ^ 56 ≤ va then .bad
  else match walk s ctx va with
  | .error (c, _) => if c = causePfAway then .away else .bad
  | .ok l => if fieldOf l.base 2 1 = 1 && isBacked s (leafPa l va) then .here else .bad

/-- The same of a range of bytes. -/
def needRange (s : State) (ctx va n : Nat) : PageNeed :=
  if n = 0 then .here
  else
    let first := va / 65536
    (List.range ((va + n - 1) / 65536 + 1 - first)).foldl (fun r i =>
      match r, needPage s ctx ((first + i) * 65536) with
      | .bad, _ => .bad
      | _, .bad => .bad
      | .away, _ => .away
      | _, x => x) .here

/-- Whether a page can be pinned as PGPIN pins it (R279): what DONEFUT adds is W and RAW. -/
def needPin (s : State) (ctx va : Nat) (future : Bool) : PageNeed :=
  match pinLeaf s ctx va with
  | none => .bad
  | some l =>
    let st := pteState l.base
    if st == stUnmapped || st == 7 || ptePins l.base = 255 || (future && (pteFmt l.fmt ≠ 0 || fieldOf l.base 3 1 ≠ 1)) then .bad
    else if leafHere l then .here else .away

/-! ## The image -/

/-- What the checks of a record come to. -/
inductive LaunchCheck where
  /-- A page is away: the launch waits for its recall. -/
  | wait
  | refused (reason : Nat)
  | ok (k : Kernel)
deriving DecidableEq, Repr

/-- Header fields (R295). -/
def hdrField (h : BitVec 512) (lo n : Nat) : Nat := fieldOf h lo n

/-- Whether the header keeps its layout. -/
def headerOk (h : BitVec 512) : Bool :=
  hdrField h 0 32 == 0x4E42475A && hdrField h 32 96 == 0 && hdrField h 328 8 == 0 && hdrField h 400 48 == 0
    && hdrField h 448 6 == 0 && hdrField h 304 16 != 0 && decide (hdrField h 320 8 ≤ 64) && decide (hdrField h 368 8 ≤ 27)

/-- The entries of the image's tables. -/
def tableEntries (bs : List Byte) : Nat → List (BitVec 128)
  | 0 => []
  | n + 1 => bytesVal 128 (bs.take 16) :: tableEntries (bs.drop 16) n

/-- Whether the bytes of the entries that carry nothing are zero: regions, trees, scopes and codebooks. -/
def entriesOk (regions trees rest : List (BitVec 128)) : Bool :=
  regions.all (fun e => fieldOf e 104 24 == 0) && trees.all (fun e => fieldOf e 96 32 == 0) && rest.all (fun e => fieldOf e 8 56 == 0)

def regionOk (r : Region) : Bool := r.base % 64 == 0 && r.size % 64 == 0 && decide (64 ≤ r.size) && decide (r.type ≤ 12)

/-- Whether the regions of a kernel can be registered: each equals a registered one or overlaps none, and at most 64 stand
(R363); the regions after it. -/
def mergeRegions (have_ : List Region) : List Region → Option (List Region)
  | [] => if have_.length ≤ 64 then some have_ else none
  | r :: rest =>
    if have_.contains r then mergeRegions have_ rest
    else if have_.any fun q => decide (q.base < r.base + r.size) && decide (r.base < q.base + q.size) then none
    else mergeRegions (have_ ++ [r]) rest

/-- The numbers of the bits that are set in a bitmap. -/
def bitmapBits (bs : List Byte) : List Nat :=
  bs.zipIdx.flatMap fun b => (List.range 8).filterMap fun i => if b.1.toNat / 2 ^ i % 2 = 1 then some (8 * b.2 + i) else none

/-- A scope id of the context that a bitmap contradicts (R251). -/
def scopeClash (s : State) (ctx : Nat) (c : Context) (id va : Nat) : Bool :=
  match mapGet? c.scopes id with
  | some bits => bits != bitmapBits ((vaBytes s ctx va 8192).getD [])
  | none => false

/-- The pages of tree regions, each once for each region, by the VA of their start (R338). -/
def treePages (s : State) (ctx : Nat) (trees : List (Nat × Nat)) : List Nat :=
  trees.flatMap fun t =>
    ((List.range ((t.1 + 64 * t.2 - 1) / 65536 + 1 - t.1 / 65536)).map fun i =>
      let va := (t.1 / 65536 + i) * 65536
      match rawLeaf s ctx va with
      | some l => va / leafSize l * leafSize l
      | none => va).eraseDups

/-- Whether the pages can each be pinned as often as they are listed (R279). -/
def needPins (s : State) (ctx : Nat) (pages : List Nat) : PageNeed :=
  pages.foldl (fun r va =>
    let tooMany := match rawLeaf s ctx va with
      | some l => decide (ptePins l.base + pages.count va > 255)
      | none => true
    match r, (if tooMany then .bad else needPin s ctx va false) with
    | .bad, _ => .bad
    | _, .bad => .bad
    | .away, _ => .away
    | _, x => x) .here

/-- Reason 7, which a launch must also pass when it is placed: 0 for none, 100 while a bitmap's page is away. -/
def scopeReason (s : State) (ctx : Nat) (c : Context) (k : Kernel) : Nat :=
  if k.scopes.any fun x => needRange s ctx x.2 8192 == .away then 100
  else if k.scopes.any fun x => 5 ≤ x.1 && decide (x.1 < 32) && needRange s ctx x.2 8192 == .here && scopeClash s ctx c x.1 x.2 then 7
  else 0

/-- Reason 9, which a launch must also pass when it is placed: 0 for none, 100 for a page that is away. Of R67 it holds an entry to
the limits alone (log 112), and to a bitmap or table that can be read (log 113). -/
def tableReason (s : State) (ctx : Nat) (c : Context) (k : Kernel) : Nat :=
  let needs := (k.scopes.map fun x => needRange s ctx x.2 8192) ++ (k.books.map fun x => needRange s ctx x.2 32)
  let pins := needPins s ctx (treePages s ctx k.trees)
  if !needs.contains .bad && needs.contains .away then 100
  else if needs.contains .bad || !k.scopes.all (fun x => 5 ≤ x.1 && decide (x.1 < 32) && x.2 % 8 == 0)
      || !k.regions.all regionOk || !k.trees.all (fun t => t.1 % 64 == 0 && decide (1 ≤ t.2))
      || !k.books.all (fun x => match vaBytes s ctx x.2 32 with
        | some bs => codebookOk (bytesVal 256 bs)
        | none => false)
      || (mergeRegions c.regions k.regions).isNone || pins == .bad then 9
  else if pins == .away then 100
  else 0

/-- The `seg2` entry of a record (R298 reason 4, R300): the reset descriptor, a descriptor, or none where it is refused. -/
def launchSeg2 (s : State) (ctx : Nat) (c : Context) (rec : BitVec 512) : Option SegWord :=
  let i := lrecSeg2 rec
  if i = 0xFFFF then some 0
  else
    let pa := ctxSegtab c + 32 * i
    let desc : SegWord := BitVec.ofNat 128 (memNat s pa 16)
    let grant : Word := wordOf (memNat s (pa + 16) 8)
    if i < ctxSegcnt c && fieldOf grant 0 1 == 1 && fieldOf grant 10 1 == 1 && (fieldOf grant 1 1 == 0 || lrecSys rec)
        && descriptorOk s ctx desc && segKind desc == kindGlobal && segLimit desc % 64 == 0
        && decide (segBase desc + lrecThreads rec * segLimit desc ≤ 2 ^ 56) then some desc
    else none

/-- Whether the record's reserved bits are zero (R296). -/
def recordOk (rec : BitVec 512) : Bool :=
  lrecField rec 496 16 == 0 && lrecField rec 394 6 == 0 && lrecField rec 386 6 == 0 && lrecField rec 320 16 == 0

/-- The checks of R298 but 10 and 11, lowest first; `frag` leaves out what R396 leaves out of a fragment launch record. -/
def checkRecord (s : State) (ctx : Nat) (c : Context) (rec : BitVec 512) (frag : Bool) : LaunchCheck :=
  let kimg := lrecKimg rec
  match (if kimg % 65536 ≠ 0 then .bad else needRange s ctx kimg 64) with
  | .bad => .refused 1
  | .away => .wait
  | .here =>
    let h := bytesVal 512 ((vaBytes s ctx kimg 64).getD [])
    let textsz := hdrField h 192 32
    let localsz := hdrField h 224 32
    let ns := hdrField h 304 16
    let nr := hdrField h 320 8
    let nt := hdrField h 336 32
    let nc := hdrField h 368 8
    let nb := hdrField h 376 8
    let tables := tablesVa kimg textsz localsz
    let count := ns + nr + nt + nc + nb
    if !headerOk h then .refused 1
    else match needRange s ctx kimg (tables + 16 * count - kimg) with
      | .bad => .refused 1
      | .away => .wait
      | .here =>
        let es := tableEntries ((vaBytes s ctx tables (16 * count)).getD []) count
        let dbase := hdrField h 448 64
        let regions := (es.drop ns).take nr
        let trees := (es.drop (ns + nr)).take nt
        let scopes := (es.drop (ns + nr + nt)).take nc
        let books := es.drop (ns + nr + nt + nc)
        let part : BitVec 32 := BitVec.ofNat 32 (hdrField h 128 32)
        let dl := if lrecDeadline rec ≠ 0 then lrecDeadline rec else if hdrField h 256 48 ≠ 0 then hdrField h 256 48 else ctxDeadline c
        let k : Kernel :=
          { part := part, textsz := textsz, localsz := localsz
            entry := evenPc (wordOf (textVa kimg + fieldOf (es.getD (lrecStrand rec) 0) 0 64)), deadline := dl
            trees := trees.map fun e => (dbase + fieldOf e 0 64, fieldOf e 64 32)
            regions := regions.map fun e => ⟨dbase + fieldOf e 0 64, fieldOf e 64 32, fieldOf e 96 8⟩
            scopes := scopes.map fun e => (fieldOf e 0 8, dbase + fieldOf e 64 64)
            books := books.map fun e => (fieldOf e 0 8, dbase + fieldOf e 64 64) }
        let u := partSlots part
        let used := u * slotBytes part + 2048 * partRev part
        if !entriesOk regions trees (scopes ++ books) then .refused 1
        else if fieldOf part 16 16 ≠ 0 ∨ partAcc part > 4 ∨ u > 15 ∨ used > 61440 then .refused 2
        else if lrecStrand rec ≥ ns then .refused 3
        else if (launchSeg2 s ctx c rec).isNone then .refused 4
        else if roundUp localsz 16 + u * lrecFrame rec * 16 > scratchSize part then .refused 5
        else if !frag && (lrecThreads rec == 0 || decide (lrecThreads rec > u * 16 * ctxGridW c * ctxGridH c)) then .refused 6
        else
          let scope := scopeReason s ctx c k
          let t := tableReason s ctx c k
          if scope = 100 then .wait
          else if scope = 7 then .refused 7
          else if !recordOk rec || decide (lrecPrio rec > ctxPrio c) || (!frag && lrecSys rec && !ctxPager c) then .refused 8
          else if t = 9 then .refused 9
          else if t = 100 then .wait
          else .ok k

/-! ## Completion (R303) -/

def pinOne (s : State) (ctx va : Nat) : State :=
  match pinPage s ctx va with
  | .pinned s _ => s
  | _ => s

/-- An entry of the scope table that Hjelec fills: the bitmap is copied to a place that Hjelec chooses, and the entry holds its PA and
DEFINED; what the copy holds stands in `Context.scopes` too (R251, log 114). -/
def fillScope (s : State) (ctx id : Nat) (bytes : List Byte) : State :=
  match getCtx? s ctx with
  | some c =>
    let pa := reservedPa s (Config.scopeBase ctx id) 8192
    softWrite (softWrite (setCtx s ctx { c with scopes := mapSet c.scopes id (bitmapBits bytes) }) pa bytes) (ctxScopetab c + 8 * id)
      (leBytes 8 (pa + 1))
  | none => s

/-- What placing a launch registers of its kernel: scopes (R251), codebooks (R67), regions (R363), and the pins of its
trees (R338). -/
def registerKernel (s : State) (ctx : Nat) (k : Kernel) : State :=
  let s := k.scopes.foldl (fun s x => match getCtx? s ctx with
    | some c => if (mapGet? c.scopes x.1).isSome then s else fillScope s ctx x.1 ((vaBytes s ctx x.2 8192).getD [])
    | none => s) s
  let s := k.books.foldl (fun s x => match getCtx? s ctx, vaBytes s ctx x.2 32 with
    | some c, some bs => softWrite s (ctxCbtab c + 32 * x.1) bs
    | _, _ => s) s
  let s := modCtx s ctx fun c => { c with regions := (mergeRegions c.regions k.regions).getD c.regions }
  (treePages s ctx k.trees).foldl (fun s va => pinOne s ctx va) s

/-- Fill DONEFUT and unpin its page: STF.D at DEVICE scope in device memory, a SYSTEM write in host memory. -/
def fillDone (s : State) (ctx : Nat) (id word : BitVec 32) (va : Nat) : State :=
  match rawLeaf s ctx va with
  | none => s
  | some l =>
    let pa := leafPa l va
    let s := softWrite s pa (leBytes 8 (id.toNat * 2 ^ 32 + word.toNat))
    let s := if isDevice s pa then settleWord (setWordFull s (pa / 8) true) (pa / 8) else s
    releasePin s ctx va

/-- A launch table entry for a record whose checks have passed. -/
def newLaunch (rec : BitVec 512) (k : Kernel) (phase : LaunchPhase) (queue : Nat) : Launch :=
  { record := rec, phase := phase, queue := queue, kernel := k, ran := 0, tree := [], words := [], taskBase := none, treePins := [], pinned := false }

/-- Whether a launch of a context is live or still to be placed; a frame's fragment launch is none of its own (R403). -/
def launchesLeft (c : Context) (but : Nat) : Bool :=
  c.launches.any fun p => p.1 != but && p.2.phase != .done && (c.frame.phase == .closed || p.1 != c.frame.launch.toNat)

/-- Whether a launch of a context other than one is live (R297, R361). -/
def launchesLive (c : Context) (but : Nat) : Bool :=
  c.launches.any fun p => p.1 != but && (p.2.phase == .running || p.2.phase == .placing)
    && (c.frame.phase == .closed || p.1 != c.frame.launch.toNat)

/-- Whether a record of the context waits in a queue that Hjelec consumes (R281, R283). -/
def launchQueued (s : State) (ctx : Nat) (c : Context) : Bool :=
  !c.ring.isEmpty || s.hostq.any fun q => q.2.enable && q.2.head != q.2.tail && q.2.ctxnum.toNat == ctx

/-- A RUNNING context with nothing live and nothing queued is IDLE (R252). -/
def settleIdle (s : State) (ctx : Nat) : State :=
  match getCtx? s ctx with
  | some c => if c.phase = .running && !launchesLeft c (2 ^ 32) && !launchQueued s ctx c then setCtx s ctx { c with phase := .idle } else s
  | none => s

/-- Whether entries of a replayed Trail are left unconsumed (R361). -/
def trailLeft (c : Context) : Bool := c.trail.mode == 2 && decide (c.trail.consumed.length < c.trail.index.length)

/-- A launch is DONE with a status word: DONEFUT is filled where its page is pinned, and its trees are unpinned; a context
with no launch left is IDLE (R252, R303, R305). -/
def finishLaunch (s : State) (ctx : Nat) (id word : BitVec 32) : State :=
  match getLaunch? s ctx id with
  | none => s
  | some l =>
    let left := match getCtx? s ctx with
      | some c => !launchesLive c id.toNat && trailLeft c
      | none => false
    let word := if left then word ||| statusTrailLeft else word
    let s := if l.pinned then fillDone s ctx id word (lrecDonefut l.record) else s
    let s := l.treePins.foldl (fun s va => releasePin s ctx va) s
    settleIdle (modCtx s ctx fun c =>
      { c with launches := mapSet c.launches id.toNat { l with phase := .done, treePins := [], tree := [], pinned := false, words := [(0, word)] } }) ctx

end Sys2Proof.Machine
end

