-- ==== Sys2Proof/Machine/AtomicFamily.lean ====
section
/-!
DEFINITION. Atomics (R238 to R243), exact cells (R244 to R246), fences (R232) and active messages (R168).
-/

namespace Sys2Proof.Machine

/-! ## The address word (R238) and the checks of R239 -/

/-- Where an atomic or XCELL operation goes: its place, and on a GLOBAL segment its PA. -/
structure AtomPlace where
  p : Place
  pa : Nat
deriving Repr

/-- The checks of R239 from step 2 on. -/
def atomPlace (s : State) (word : Word) (z : Nat) : Except (State × Stop) (State × AtomPlace) :=
  let sg : BitVec 3 := BitVec.ofNat 3 (fieldOf word 61 3)
  if fieldOf word 56 5 ≠ 0 then .error (s, .trap causeAtomOperand word)
  else match segCheckWith (curSP s) (getSeg (curThread s) sg) sg.toNat (wordOf (fieldOf word 0 56)) z needA true true with
    | .error e => .error (s, e)
    | .ok p =>
      if p.kind ≠ kindGlobal then .ok (s, ⟨p, 0⟩)
      else match translate s s.cur.1 p.addr accAtomic (curThread s).csr.sys with
        | .error e => .error e
        | .ok (s, l, pa) =>
          if pteFmt l.fmt ≠ 0 then .error (s, .trap causeFmtStore (wordOf p.addr))
          else if (regionAt s (curCtx s) p.addr).isSome then .error (s, .trap causeRevAtomic (wordOf p.addr))
          else if (curThread s).csr.specd ≠ 0xFF && inSequence s (curCtx s) p.addr then .error (s, .trap causeSpecAtomic (wordOf p.addr))
          else .ok (s, ⟨p, pa⟩)

/-- An atomic or XCELL operation that changes main memory collapses a duplicated page, once nothing stops it (R274). -/
def atomSettle (s : State) (q : AtomPlace) : State :=
  match findLeaf s s.cur.1 q.p.addr with
  | .ok (s, l) => (settleDup s s.cur.1 q.p.addr l).1
  | .error _ => s

/-! ## Read-modify-write atomics (R240 to R243) -/

/-- One atomic: `op` as in `atomicNew`, `z` bytes, `sx` for the sign extension of ATOMW, operand `b` and CAS's new value;
`r` is the order: 0 RLX, 1 ACQ, 2 REL, 3 AR. -/
def atomicWith (op z : Nat) (sx : Bool) (d a : BitVec 5) (b new : Word) (scope : BitVec 5) (r : BitVec 2) (s : State) : Res :=
  let acquires := r = 1 ∨ r = 3
  let acq := if acquires then scope.toNat else 0
  let v := b.toNat % 2 ^ (8 * z)
  let new := new.toNat % 2 ^ (8 * z)
  let value (old : Nat) : Word := if sx then sextW (wordOf old) 32 else wordOf old
  let finish_ (s : State) (old : Nat) : Res := .ok (acquireAt (modCur s fun t => setX t d (value old)) s.cur.1 acq) (atomicFlags op old v)
  if !scopeDefined s (curCtx s) scope.toNat then .trap s causeBadScope (wordOf scope.toNat)
  else match atomPlace s (getX (curThread s) a) z with
    | .error (s, e) => .stop s e
    | .ok (s, q) =>
      if q.p.kind ≠ kindLocal && inMsgSlot s then .stop s (.park .retry)
      else (if r = 2 ∨ r = 3 then releasing s else id) (
        if q.p.kind = kindLocal then
          localAccess s (
            let c := curCore s
            if poolPoisoned c q.p.addr z then .trap s causePoisoned (wordOf q.p.addr)
            else
              let old := leNat (poolBytes c q.p.addr z)
              match atomicNew op z old v new with
              | some n => finish_ (localStore s q.p.addr (leBytes z n)) old
              | none => finish_ s old)
        else if q.p.kind = kindCore then
          askCore s q.p (.atomic q.p.addr op z (wordOf v) (wordOf new)) (.atom d.toNat z sx acq)
        else
          let home := isDevice s q.pa && scopeWide s s.cur.1 scope.toNat
          match (if home then trailAtomic s q.p.addr q.pa else .ok s) with
          | .error e => e
          | .ok s' =>
            let dest : ReplyTo := .atom d.toNat z sx acq
            if memPoisoned s q.pa z then askPoisoned s q.p dest
            else
              let home := home || isHost q.pa
              let (s', bs) := if home then (s', memBytes s' q.pa z) else cachedRead s' s'.cur.1 q.pa z
              let old := leNat bs
              let s' := match atomicNew op z old v new with
                | some n => homeWrite s' s'.cur.1 q.pa (leBytes z n)
                | none => s'
              let s' := atomSettle (if home then refreshLine s' s'.cur.1 q.pa else s') q
              askMemory s' q.p dest (leBytes z old ++ [(atomicFlags op old v).setWidth 8]))

/-- An atomic with one operand register. -/
def atomic (op z : Nat) (sx : Bool) (d a b c : BitVec 5) (r : BitVec 2) (s : State) : Host.Outcome State Fault Refusal :=
  run 4 { xr := [a, b], xw := some d } s fun s => atomicWith op z sx d a (getX (curThread s) b) 0 c r s

/-- CAS: the pair x[b], x[b+1]. -/
def atomicCas (z : Nat) (sx : Bool) (d a : BitVec 5) (b : BitVec 4) (c : BitVec 5) (r : BitVec 2) (s : State) : Host.Outcome State Fault Refusal :=
  let n := 2 * b.toNat
  run 4 { xr := [a, regNo n], xw := some d, xs := [n + 1] } s fun s =>
    atomicWith 7 z sx d a (getX (curThread s) (regNo n)) (getX (curThread s) (regNo (n + 1))) c r s

/-! ## Exact cells (R244 to R246) -/

/-- The core's status word notes a remote write that was refused (R148, R245). -/
def refuseWrite (s : State) (core : Nat) : State := recordCoreStatus s core statusRwref

def withFlags (e : Res) (f : FFlags) : Res :=
  match e with
  | .ok s g => .ok s (f ||| g)
  | e => e

/-- A posted XCELL operation: 0 XSET, 1 XADD.S, 2 XADD.D, 3 XADD.B. -/
def cellPost (op : Nat) (a : BitVec 5) (b e : Word) (raised : FFlags) (s : State) : Res :=
  match atomPlace s (getX (curThread s) a) 32 with
  | .error (s, e) => .stop s e
  | .ok (s, q) =>
    if q.p.kind = kindLocal then
      localAccess s (
        let c := curCore s
        if op ≠ 0 && poolPoisoned c q.p.addr 32 then .ok (refuseWrite s s.cur.1) raised
        else .ok (localStore s q.p.addr (valBytes 32 (cellWrite op (bytesVal 256 (poolBytes c q.p.addr 32)) b e))) raised)
    else if q.p.kind = kindCore then withFlags (postCore s q.p (.cell q.p.addr op b e)) raised
    else if op ≠ 0 && memPoisoned s q.pa 32 then .ok (refuseWrite s s.cur.1) raised
    else
      let s' := homeWrite s s.cur.1 q.pa (valBytes 32 (cellWrite op (bytesVal 256 (memBytes s q.pa 32)) b e))
      .ok (atomSettle (refreshLine s' s.cur.1 q.pa) q) raised

/-- What XRD does with a cell that has been brought back (R245). -/
def putCell (F : Fmt) (d : BitVec 5) (cell : BitVec 256) (t : Thread) : Thread × FFlags :=
  let (v, f) := cellRead F (roundingOf (rndOf t) 0) cell
  (setX (takeDraws t 1) d (wordOf v), f)

/-- XRD. -/
def cellFetch (F : Fmt) (d a : BitVec 5) (s : State) : Res :=
  match atomPlace s (getX (curThread s) a) 32 with
  | .error (s, e) => .stop s e
  | .ok (s, q) =>
    let put (s : State) (bs : List Byte) : Res :=
      let (t, f) := putCell F d (bytesVal 256 bs) (curThread s)
      .ok (putThread s t) f
    if q.p.kind = kindLocal then
      localAccess s (
        if poolPoisoned (curCore s) q.p.addr 32 then .trap s causePoisoned (wordOf q.p.addr)
        else put s (poolBytes (curCore s) q.p.addr 32))
    else if q.p.kind = kindCore then askCore s q.p (.cell q.p.addr (if F = .fp64 then 5 else 4) 0 0) (.cell d.toNat (F == .fp64))
    else if inMsgSlot s then .stop s (.park .retry)
    else
      let dest : ReplyTo := .cell d.toNat (F == .fp64)
      if memPoisoned s q.pa 32 then askPoisoned s q.p dest
      else askMemory (atomSettle (refreshLine s s.cur.1 q.pa) q) q.p dest (memBytes s q.pa 32)

/-- XMAXE (R246). -/
def cellMax (d a : BitVec 5) (e : Word) (s : State) : Res :=
  match atomPlace s (getX (curThread s) a) 32 with
  | .error (s, e) => .stop s e
  | .ok (s, q) =>
    if q.p.kind = kindLocal then
      localAccess s (
        let c := curCore s
        if poolPoisoned c q.p.addr 32 then .trap s causePoisoned (wordOf q.p.addr)
        else
          let (cell, v) := cellMaxe (bytesVal 256 (poolBytes c q.p.addr 32)) (e.setWidth 16)
          .ok (modCur (localStore s q.p.addr (valBytes 32 cell)) fun t => setX t d v) 0)
    else if q.p.kind = kindCore then askCore s q.p (.cell q.p.addr 6 e 0) (.maxe d.toNat)
    else if inMsgSlot s then .stop s (.park .retry)
    else if memPoisoned s q.pa 32 then askPoisoned s q.p (.maxe d.toNat)
    else
      let (cell, v) := cellMaxe (bytesVal 256 (memBytes s q.pa 32)) (e.setWidth 16)
      let s' := atomSettle (refreshLine (homeWrite s s.cur.1 q.pa (valBytes 32 cell)) s.cur.1 q.pa) q
      askMemory s' q.p (.maxe d.toNat) (valBytes 8 v)

/-- XADD of a floating value; a signalling NaN raises NV at issue (R245). -/
def cellAddFloat (F : Fmt) (op : Nat) (a b : BitVec 5) (s : State) : Host.Outcome State Fault Refusal :=
  run 4 { xr := [a, b] } s fun s =>
    let v := getX (curThread s) b
    cellPost op a v 0 (raiseIf (numIsSNaN (decodeNum F (floatIn F v))) flagNV) s

/-! ## Fences (R232) -/

/-- FENCE at a scope id; at CORE it never parks. -/
def fence (rel acq : Bool) (scope : BitVec 5) (s : State) : Host.Outcome State Fault Refusal :=
  run 4 {} s fun s =>
    if !scopeDefined s (curCtx s) scope.toNat then .trap s causeBadScope (wordOf scope.toNat)
    else (if rel && scope != 0 then releasing s else id) (.ok (if acq then acquireAt s s.cur.1 scope.toNat else s) 0)

/-! ## Active messages (R168) -/

/-- The core that a register names (R168, R122), if its bits above the coordinate are zero and it lies in the grid. -/
def namedCore (s : State) (v : Word) : Option Nat :=
  match getCtx? s (curCtx s) with
  | some c => if fieldOf v 20 44 = 0 && inGrid c v.toNat then some (coreKey (curCtx s) v.toNat) else none
  | none => none

/-- AMSEND and RFETCH: send the payload to a core with a handler's address. -/
def sendHandler (reply : Bool) (d a : BitVec 5) (b : BitVec 4) (s : State) : Res :=
  let t := curThread s
  match namedCore s (getX t a) with
  | none => .trap s causeBadCore (getX t a)
  | some k =>
    let lo := getX t (regNo (2 * b.toNat))
    let hi := getX t (regNo (2 * b.toNat + 1))
    releasing s ((if reply then sending s else sendingAgain s) (
      let s := send s (.request k ⟨curRef s, .user (evenPc (getX t d)) lo hi reply⟩)
      if reply then .stop s (.park (.reply (.rfetch d.toNat) 0 0)) else .ok s 0))

/-- The message slot's handler ends (R165). -/
def endHandler (s : State) (core : Nat) : State :=
  modThread s core 15 fun t => { t with phase := .idle, current := none, issues := 0 }

/-- AMRET. -/
def returnMessage (a : BitVec 5) (s : State) : Res :=
  let t := curThread s
  match t.current with
  | some ⟨src, req⟩ =>
    releasing s (
      let s := match req with
        | .user _ _ _ true => send s (.reply src s.cur.1 (.ok (valBytes 8 (getX t a))))
        | _ => s
      .gone (endHandler s s.cur.1))
  | none => .gone (endHandler s s.cur.1)

/-! ## ATOM, ATOMW and ATOMX -/

/-- ATOM.ADD. -/
def execAtomAdd (d a b c : BitVec 5) (r : BitVec 2) (s : State) : Host.Outcome State Fault Refusal :=
  atomic 0 8 false d a b c r s

/-- ATOM.AND. -/
def execAtomAnd (d a b c : BitVec 5) (r : BitVec 2) (s : State) : Host.Outcome State Fault Refusal :=
  atomic 1 8 false d a b c r s

/-- ATOM.OR. -/
def execAtomOr (d a b c : BitVec 5) (r : BitVec 2) (s : State) : Host.Outcome State Fault Refusal :=
  atomic 2 8 false d a b c r s

/-- ATOM.XOR. -/
def execAtomXor (d a b c : BitVec 5) (r : BitVec 2) (s : State) : Host.Outcome State Fault Refusal :=
  atomic 3 8 false d a b c r s

/-- ATOM.XCHG. -/
def execAtomXchg (d a b c : BitVec 5) (r : BitVec 2) (s : State) : Host.Outcome State Fault Refusal :=
  atomic 4 8 false d a b c r s

/-- ATOM.MIN. -/
def execAtomMin (d a b c : BitVec 5) (r : BitVec 2) (s : State) : Host.Outcome State Fault Refusal :=
  atomic 5 8 false d a b c r s

/-- ATOM.MAX. -/
def execAtomMax (d a b c : BitVec 5) (r : BitVec 2) (s : State) : Host.Outcome State Fault Refusal :=
  atomic 6 8 false d a b c r s

/-- ATOM.CAS. -/
def execAtomCas (d a : BitVec 5) (b : BitVec 4) (c : BitVec 5) (r : BitVec 2) (s : State) : Host.Outcome State Fault Refusal :=
  atomicCas 8 false d a b c r s

/-- ATOMW.ADD. -/
def execAtomwAdd (d a b c : BitVec 5) (r : BitVec 2) (s : State) : Host.Outcome State Fault Refusal :=
  atomic 0 4 true d a b c r s

/-- ATOMW.AND. -/
def execAtomwAnd (d a b c : BitVec 5) (r : BitVec 2) (s : State) : Host.Outcome State Fault Refusal :=
  atomic 1 4 true d a b c r s

/-- ATOMW.OR. -/
def execAtomwOr (d a b c : BitVec 5) (r : BitVec 2) (s : State) : Host.Outcome State Fault Refusal :=
  atomic 2 4 true d a b c r s

/-- ATOMW.XOR. -/
def execAtomwXor (d a b c : BitVec 5) (r : BitVec 2) (s : State) : Host.Outcome State Fault Refusal :=
  atomic 3 4 true d a b c r s

/-- ATOMW.XCHG. -/
def execAtomwXchg (d a b c : BitVec 5) (r : BitVec 2) (s : State) : Host.Outcome State Fault Refusal :=
  atomic 4 4 true d a b c r s

/-- ATOMW.MIN. -/
def execAtomwMin (d a b c : BitVec 5) (r : BitVec 2) (s : State) : Host.Outcome State Fault Refusal :=
  atomic 5 4 true d a b c r s

/-- ATOMW.MAX. -/
def execAtomwMax (d a b c : BitVec 5) (r : BitVec 2) (s : State) : Host.Outcome State Fault Refusal :=
  atomic 6 4 true d a b c r s

/-- ATOMW.CAS. -/
def execAtomwCas (d a : BitVec 5) (b : BitVec 4) (c : BitVec 5) (r : BitVec 2) (s : State) : Host.Outcome State Fault Refusal :=
  atomicCas 4 true d a b c r s

/-- ATOMX MINU. -/
def execAtomxMinu (d a b c : BitVec 5) (r : BitVec 2) (s : State) : Host.Outcome State Fault Refusal :=
  atomic 8 8 false d a b c r s

/-- ATOMX MAXU. -/
def execAtomxMaxu (d a b c : BitVec 5) (r : BitVec 2) (s : State) : Host.Outcome State Fault Refusal :=
  atomic 9 8 false d a b c r s

/-- ATOMX FMINS. -/
def execAtomxFminS (d a b c : BitVec 5) (r : BitVec 2) (s : State) : Host.Outcome State Fault Refusal :=
  atomic 10 4 false d a b c r s

/-- ATOMX FMAXS. -/
def execAtomxFmaxS (d a b c : BitVec 5) (r : BitVec 2) (s : State) : Host.Outcome State Fault Refusal :=
  atomic 11 4 false d a b c r s

/-- ATOMX FMIND. -/
def execAtomxFminD (d a b c : BitVec 5) (r : BitVec 2) (s : State) : Host.Outcome State Fault Refusal :=
  atomic 12 8 false d a b c r s

/-- ATOMX FMAXD. -/
def execAtomxFmaxD (d a b c : BitVec 5) (r : BitVec 2) (s : State) : Host.Outcome State Fault Refusal :=
  atomic 13 8 false d a b c r s

/-! ## XCELL -/

/-- XSET. -/
def execXset (a b : BitVec 5) (s : State) : Host.Outcome State Fault Refusal :=
  run 4 { xr := [a, b] } s fun s => cellPost 0 a (getX (curThread s) b) 0 0 s

/-- XADD.S. -/
def execXaddS (a b : BitVec 5) (s : State) : Host.Outcome State Fault Refusal :=
  cellAddFloat .fp32 1 a b s

/-- XADD.D. -/
def execXaddD (a b : BitVec 5) (s : State) : Host.Outcome State Fault Refusal :=
  cellAddFloat .fp64 2 a b s

/-- XADD.B. -/
def execXaddB (a b c : BitVec 5) (s : State) : Host.Outcome State Fault Refusal :=
  run 4 { xr := [a, b, c] } s fun s => cellPost 3 a (getX (curThread s) b) (getX (curThread s) c) 0 s

/-- XRD.S. -/
def execXrdS (d a : BitVec 5) (s : State) : Host.Outcome State Fault Refusal :=
  run 4 { xr := [a], xw := some d, rounds := true } s fun s => cellFetch .fp32 d a s

/-- XRD.D. -/
def execXrdD (d a : BitVec 5) (s : State) : Host.Outcome State Fault Refusal :=
  run 4 { xr := [a], xw := some d, rounds := true } s fun s => cellFetch .fp64 d a s

/-- XMAXE. -/
def execXmaxe (d a b : BitVec 5) (s : State) : Host.Outcome State Fault Refusal :=
  run 4 { xr := [a, b], xw := some d } s fun s => cellMax d a (getX (curThread s) b) s

/-! ## FENCE and MSG -/

/-- FENCE.ACQ. -/
def execFenceAcq (a : BitVec 5) (s : State) : Host.Outcome State Fault Refusal :=
  fence false true a s

/-- FENCE.REL. -/
def execFenceRel (a : BitVec 5) (s : State) : Host.Outcome State Fault Refusal :=
  fence true false a s

/-- FENCE.AR. -/
def execFenceAr (a : BitVec 5) (s : State) : Host.Outcome State Fault Refusal :=
  fence true true a s

/-- AMSEND. -/
def execAmsend (d a : BitVec 5) (b : BitVec 4) (g : BitVec 3) (n : BitVec 1) (s : State) : Host.Outcome State Fault Refusal :=
  runGated 4 { xr := [d, a, regNo (2 * b.toNat)], xs := [2 * b.toNat + 1] } g n none s fun s => sendHandler false d a b s

/-- AMRET: in the message slot only. -/
def execAmret (a : BitVec 5) (g : BitVec 3) (n : BitVec 1) (s : State) : Host.Outcome State Fault Refusal :=
  runGated 4 { xr := [a], onlyMsg := true } g n none s fun s => returnMessage a s

/-- RFETCH. -/
def execRfetch (d a : BitVec 5) (b : BitVec 4) (g : BitVec 3) (n : BitVec 1) (s : State) : Host.Outcome State Fault Refusal :=
  runGated 4 { xr := [d, a, regNo (2 * b.toNat)], xw := some d, xs := [2 * b.toNat + 1], noMsg := true } g n none s fun s => sendHandler true d a b s

end Sys2Proof.Machine
end

