-- ==== Sys2Proof/Machine/HandleFamily.lean ====
section
/-!
DEFINITION. Ownership handles (R217) and the HANDLE family (R218).
-/

namespace Sys2Proof.Machine

/-! ## References (R204) and entries (R217) -/

def refIndex (w : Word) : Nat := fieldOf w 0 8
def refGen (w : Word) : BitVec 8 := BitVec.ofNat 8 (fieldOf w 8 8)
def refHome (ctx : Nat) (w : Word) : Nat := coreKey ctx (fieldOf w 16 20)
def handleRef (core index : Nat) (gen : BitVec 8) : Word := wordOf (packedOf core * 2 ^ 16 + gen.toNat * 2 ^ 8 + index)

def hFree : Nat := 0
def hOwned : Nat := 1
def hFreeing : Nat := 2

def Handle.unused : Handle := { gen := 0, state := 0, owner := ⟨0, 0⟩, pins := 0, base := 0, size := 0 }

def getHandle (s : State) (core i : Nat) : Handle := mapGet (getCore s core).handles i Handle.unused
def setHandle (s : State) (core i : Nat) (h : Handle) : State := modCore s core fun c => { c with handles := mapSet c.handles i h }

/-- The live entry that a reference names. -/
def liveHandle (s : State) (ctx : Nat) (w : Word) : Option (Nat × Nat × Handle) :=
  let core := refHome ctx w
  let h := getHandle s core (refIndex w)
  if fieldOf w 36 28 = 0 ∧ h.gen = refGen w ∧ h.state = hOwned then some (core, refIndex w, h) else none

/-- The entry is free, with the next generation. -/
def releaseHandle (h : Handle) : Handle := { h with state := hFree, gen := h.gen + 1 }

/-- One pin less; an entry that is FREEING is freed with the last (R218). -/
def unpinHandle (s : State) (core i : Nat) : State :=
  let h := getHandle s core i
  let h := { h with pins := h.pins - 1 }
  setHandle s core i (if h.pins = 0 ∧ h.state = hFreeing then releaseHandle h else h)

/-- The slot that HPASS's word names (R218), looked at after the reference; a core outside the grid comes before slot 15 (log 157). -/
def passTarget (s : State) (ctx : Nat) (v : Word) : Except (BitVec 8) Ref :=
  let inside := match getCtx? s ctx with
    | some c => inGrid c (fieldOf v 0 20)
    | none => false
  if !inside then .error causeBadCore
  else if fieldOf v 20 4 = 15 ∨ fieldOf v 24 40 ≠ 0 then .error causeCopyOperand
  else .ok ⟨coreKey ctx (fieldOf v 0 20), fieldOf v 20 4⟩

/-- HFREE, or with a thread named the first part of HPASS, as HOME performs it for a slot: the entry is freed, now or with its last
pin, or has the new owner. -/
def handleAct (s : State) (who : Ref) (w : Word) (pass : Option Word) : Except (BitVec 8) State :=
  match liveHandle s (ctxOf who.core) w with
  | none => .error causeHandleStale
  | some (core, i, h) =>
    if h.owner ≠ who then .error causeHandleOwner
    else match pass with
      | none => .ok (setHandle s core i (if h.pins = 0 then releaseHandle h else { h with state := hFreeing }))
      | some v => match passTarget s (ctxOf who.core) v with
        | .error c => .error c
        | .ok dst => .ok (setHandle s core i { h with owner := dst })

/-- `TRAPVAL` of a cause of HFREE or HPASS: the reference, or the word that names the thread. -/
def handleVal (w : Word) (pass : Option Word) (c : BitVec 8) : Word :=
  if c = causeHandleStale ∨ c = causeHandleOwner then w else pass.getD w

/-- Deliver a reference that a slot passes into another's inbox, where that has room. -/
def deliverHandle (s : State) (who dst : Ref) (w : Word) : Option State :=
  if (refThread s dst).inbox.length ≥ 4 then none
  else some (modRef s dst fun t => { t with inbox := t.inbox ++ [(w, who.core)] })

/-- After HOME's part: HPASS delivers, or the thread parks until the inbox accepts. -/
def handleTail (s : State) (w : Word) (pass : Option Word) : Res :=
  match pass with
  | none => .ok s 0
  | some v => match passTarget s (curCtx s) v with
    | .error c => .trap s c v
    | .ok dst => match deliverHandle s (curRef s) dst w with
      | some s => .ok s 0
      | none => .stop (modCur s fun t => { t with passing := some (w, dst) }) (.park .pass)

/-- HFREE and HPASS: at the own core's table at once, and at another's by a built-in message whose answer the thread awaits; a HOME
outside the grid traps BAD_CORE (R250). -/
def handleOp (s : State) (w : Word) (pass : Option Word) : Res :=
  let home := refHome (curCtx s) w
  let inside := match getCtx? s (curCtx s) with
    | some c => inGrid c (fieldOf w 16 20)
    | none => false
  if !inside then .trap s causeBadCore w
  else if home = s.cur.1 || fieldOf w 36 28 != 0 then
    match handleAct s (curRef s) w pass with
    | .error c => .trap s c (handleVal w pass c)
    | .ok s => handleTail s w pass
  else if portFull s s.cur.1 then .stop s (.park .retry)
  else .stop (send s (.request home ⟨curRef s, .handle w pass⟩)) (.park (.reply (.handle w pass) 0 0))

/-- HOME's answer arrives: HPASS goes on to deliver. -/
def handleReply (s : State) (r : Ref) (w : Word) (pass : Option Word) : State :=
  let done (s : State) : State := modRef (writeBack s r none) r completeWait
  match pass with
  | none => done s
  | some v => match passTarget s (ctxOf r.core) v with
    | .error _ => done s
    | .ok dst => match deliverHandle s r dst w with
      | some s => done s
      | none => modRef s r fun t => { t with passing := some (w, dst), wait := .pass }

/-- A parked HPASS completes once the inbox has room. -/
def startPass (s : State) (r : Ref) : State :=
  let t := refThread s r
  match t.phase, t.wait, t.passing with
  | .parked, .pass, some (w, dst) => match deliverHandle s r dst w with
    | some s => modRef (writeBack s r none) r fun t => completeWait { t with passing := none }
    | none => s
  | _, _, _ => s

/-- HALLOC. -/
def execHalloc (d a b : BitVec 5) (s : State) : Host.Outcome State Fault Refusal :=
  run 4 { xr := [a, b], xw := some d, noMsg := true } s fun s =>
    let t := curThread s
    let base := getX t a
    let size := getX t b
    let core := s.cur.1
    if base.toNat % 16 ≠ 0 then .trap s causeCopyOperand base
    else if size.toNat % 16 ≠ 0 ∨ size.toNat < 16 ∨ base.toNat + size.toNat > curSP s then .trap s causeCopyOperand size
    else match (List.range 256).find? fun i => (getHandle s core i).state == hFree with
      | none => .trap s causeHandleFull 0
      | some i =>
        let h := getHandle s core i
        let s := setHandle s core i { h with state := hOwned, owner := curRef s, pins := 0, base := base.toNat, size := size.toNat }
        .ok (modCur s fun t => setX t d (handleRef core i h.gen)) 0

/-- HFREE. -/
def execHfree (a : BitVec 5) (s : State) : Host.Outcome State Fault Refusal :=
  run 4 { xr := [a], noMsg := true } s fun s => handleOp s (getX (curThread s) a) none

/-- HPASS: a release at the smallest scope that covers the passing core, HOME and the receiving core. -/
def execHpass (a b : BitVec 5) (s : State) : Host.Outcome State Fault Refusal :=
  run 4 { xr := [a, b], noMsg := true } s fun s =>
    releasing s (handleOp s (getX (curThread s) a) (some (getX (curThread s) b)))

/-- HOPEN. -/
def execHopen (d : BitVec 5) (s : State) : Host.Outcome State Fault Refusal :=
  run 4 { xw := some d, noMsg := true } s fun s =>
    match (curThread s).inbox with
    | [] => .stop s (.park .retry)
    | (w, from_) :: rest =>
      let home := refHome (curCtx s) w
      let scope := Nat.max (coverScope s from_ home) (Nat.max (coverScope s from_ s.cur.1) (coverScope s home s.cur.1))
      .ok (acquireAt (modCur s fun t => { setX t d w with inbox := rest }) s.cur.1 scope) 0

end Sys2Proof.Machine
end

