-- ==== Sys2Proof/Machine/MemoryFamily.lean ====
section
/-!
DEFINITION. Loads and stores (R152), synchronising ones (R153 to R156), vector ones (R157), and those of formatted pages
(R159 to R162).
-/

namespace Sys2Proof.Machine

/-! ## Scalar forms -/

/-- The displacement of an L-format access: imm × z (R80). -/
def scaledDisp {w : Nat} (i : BitVec w) (z : Nat) : Word := immWord i * wordOf z

/-- The value that LD's size code places in a register: 0 B, 1 BU, 2 H, 3 HU, 4 W, 5 WU, 6 D (R152). -/
def loadValue (w : Nat) (bs : List Byte) : Word :=
  let v : Word := bytesVal 64 bs
  match w with
  | 0 => sextW v 8
  | 2 => sextW v 16
  | 4 => sextW v 32
  | _ => v

def loadSize (w : Nat) : Nat :=
  match w with
  | 0 => 1
  | 1 => 1
  | 2 => 2
  | 3 => 2
  | 4 => 4
  | 5 => 4
  | _ => 8

/-- LD. -/
def loadScalar (len w : Nat) (d a : BitVec 5) (sg : BitVec 3) (disp : Word) (s : State) : Host.Outcome State Fault Refusal :=
  run len { xr := [a], xw := some d } s fun s =>
    loadFrom s sg (getX (curThread s) a) disp (loadSize w) (.load d.toNat w) fun bs t => setX t d (loadValue w bs)

/-- ST of `z` bytes; the data is `x[d]`. -/
def storeScalar (len z : Nat) (d a : BitVec 5) (sg : BitVec 3) (disp : Word) (s : State) : Host.Outcome State Fault Refusal :=
  run len { xr := [a, d] } s fun s => storeTo s sg (getX (curThread s) a) disp (valBytes z (getX (curThread s) d))

/-- The value of LDS: 4 bytes extended by sign, or 8 (R153). -/
def syncValue (z : Nat) (bs : List Byte) : Word := if z = 4 then sextW (bytesVal 64 bs) 32 else bytesVal 64 bs

/-- An acquire at a segment's scope by the current thread. -/
def acquiring (s : State) (scope : Nat) (e : Res) : Res :=
  match e with
  | .ok s' f => .ok (acquireAt s' s.cur.1 scope) f
  | e => e

/-- LDS (R153). -/
def loadSync (clear : Bool) (d a : BitVec 5) (sg : BitVec 3) (z : Nat) (disp : Word) (s : State) : Host.Outcome State Fault Refusal :=
  run 4 { xr := [a], xw := some d } s fun s =>
    match segCheck s sg (getX (curThread s) a) disp z (needR ||| needS) true with
    | .error e => .stop s e
    | .ok p =>
      if p.kind = kindLocal then
        acquiring s p.scope (localSync s (.syncLoad p.addr z clear) fun bs t => setX t d (syncValue z bs))
      else if p.kind = kindCore then askCore s p (.syncLoad p.addr z clear) (.sync d.toNat z)
      else futureAccess s p (if clear then 1 else 0) d 0

/-- STF (R154). -/
def storeFill (empty : Bool) (d a : BitVec 5) (sg : BitVec 3) (z : Nat) (disp : Word) (s : State) : Host.Outcome State Fault Refusal :=
  run 4 { xr := [a, d] } s fun s =>
    let v := getX (curThread s) d
    match segCheck s sg (getX (curThread s) a) disp z (needW ||| needS) true with
    | .error e => .stop s e
    | .ok p =>
      releasing s (
        if p.kind = kindLocal then localSync s (.fill p.addr (valBytes z v) empty) fun _ t => t
        else if p.kind = kindCore then postCore s p (.fill p.addr (valBytes z v) empty)
        else futureAccess s p (if empty then 3 else 7) 0 v)

/-- The check of an FE form: 16 bytes on a scratchpad, where the address is rounded down to its granule, and 8 on a
GLOBAL segment (R156). -/
def fePlace (s : State) (sg : BitVec 3) (base : Word) (need : Nat) : Except Stop Place :=
  let seg := getSeg (curThread s) sg
  let global := segKind seg == kindGlobal
  match segCheckWith (curSP s) seg sg.toNat base (if global then 8 else 16) (need ||| needS) true global with
  | .error e => .error e
  | .ok p => .ok (if global then p else { p with addr := p.addr / 16 * 16 })

/-- FESET and FECLR. -/
def feWrite (op : Nat) (a : BitVec 5) (sg : BitVec 3) (s : State) : Host.Outcome State Fault Refusal :=
  run 4 { xr := [a] } s fun s =>
    match fePlace s sg (getX (curThread s) a) needW with
    | .error e => .stop s e
    | .ok p =>
      let body : Res :=
        if p.kind = kindLocal then localSync s (.fe p.addr op) fun _ t => t
        else if p.kind = kindCore then postCore s p (.fe p.addr op)
        else futureAccess s p (5 + op) 0 0
      if op = 0 then releasing s body else body

/-- FETEST and FEWAIT; a test that finds the bit full is an acquire. -/
def feRead (d : Option (BitVec 5)) (a : BitVec 5) (sg : BitVec 3) (s : State) : Host.Outcome State Fault Refusal :=
  run 4 { xr := [a], xw := d } s fun s =>
    match fePlace s sg (getX (curThread s) a) needR with
    | .error e => .stop s e
    | .ok p =>
      if p.kind = kindLocal then
        let full := isFull (curCore s) (p.addr / 16)
        let e := localSync s (.fe p.addr (if d.isSome then 2 else 3)) fun bs t =>
          match d with
          | some d => setX t d (bytesVal 64 bs)
          | none => t
        if full then acquiring s p.scope e else e
      else if p.kind = kindCore then
        match d with
        | some d => askCore s p (.fe p.addr 2) (.fetest d.toNat)
        | none => askCore s p (.fe p.addr 3) .bare
      else futureAccess s p (if d.isSome then 4 else 2) (d.getD 0) 0

/-! ## Vector forms (R157) -/

/-- The value of a vector load: w 0 LDV and 2 LDVS, 4 LDVH, 6 LDVB. -/
def vecValue (w : Nat) (bs : List Byte) : VReg :=
  let v : VReg := bytesVal 256 bs
  if w = 6 then BitVec.ofNat 256 (v.toNat * ((2 ^ 256 - 1) / (2 ^ 32 - 1))) else v

def vecSize (w : Nat) : Nat := if w < 4 then 32 else if w < 6 then 16 else 4

def loadVec (w : Nat) (d a : BitVec 5) (sg : BitVec 3) (i : BitVec 9) (s : State) : Host.Outcome State Fault Refusal :=
  let z := vecSize w
  run 4 { xr := [a], vs := [d.toNat] } s fun s =>
    let base := getX (curThread s) a
    let put (bs : List Byte) (t : Thread) : Thread := setV t d (vecValue w bs)
    if w = 2 then
      match segCheck s sg base (scaledDisp i z) z (needR ||| needS) false with
      | .error e => .stop s e
      | .ok p =>
        if p.kind = kindLocal then acquiring s p.scope (localSync s (.syncLoad p.addr z false) put)
        else askCore s p (.syncLoad p.addr z false) (.vec d.toNat w)
    else loadFrom s sg base (scaledDisp i z) z (.vec d.toNat w) put

def storeVec (w : Nat) (d a : BitVec 5) (sg : BitVec 3) (i : BitVec 9) (s : State) : Host.Outcome State Fault Refusal :=
  let z := vecSize w
  run 4 { xr := [a], vs := [d.toNat] } s fun s =>
    let base := getX (curThread s) a
    let bs := valBytes z (getV (curThread s) d)
    if w = 3 then
      match segCheck s sg base (scaledDisp i z) z (needW ||| needS) false with
      | .error e => .stop s e
      | .ok p =>
        releasing s (
          if p.kind = kindLocal then localSync s (.fill p.addr bs false) fun _ t => t
          else postCore s p (.fill p.addr bs false))
    else storeTo s sg base (scaledDisp i z) bs

/-! ## Formatted pages (R158 to R162) -/

/-- The place of an access to `n` elements of a formatted page: the segment's rights and range, the translation, which
gives the format, then the check with the size that the format gives. In the message slot a load parks, which is forbidden there, before
the page is looked at (R166, log 152). -/
def formatPlace (s : State) (sg : BitVec 3) (base : Word) (need n kind : Nat) : Except (State × Stop) (State × Leaf × Place × Nat) :=
  let seg := getSeg (curThread s) sg
  match segCheckWith (curSP s) seg sg.toNat base 1 need false false with
  | .error e => .error (s, e)
  | .ok p =>
    if p.kind ≠ kindGlobal then .error (s, .trap causeNotFormatted (wordOf p.addr))
    else if kind == accLoad && inMsgSlot s then .error (s, .park .retry)
    else match translate s s.cur.1 p.addr kind (curThread s).csr.sys with
      | .error e => .error e
      | .ok (s, l, pa) =>
        if pteFmt l.fmt = 0 then .error (s, .trap causeNotFormatted (wordOf p.addr))
        else match segCheckWith (curSP s) seg sg.toNat base (elemBytes (pteFmt l.fmt) n) need false true with
          | .error e => .error (s, e)
          | .ok p =>
            match regionRaw s (curView s) p.addr l with
            | .error e => .error (s, e)
            | .ok _ => .ok (s, l, p, pa)

/-- Read a block's scale container. -/
def readScale (s : State) (l : Leaf) (va pa : Nat) : Except Stop (State × Nat) :=
  if !elemScaled (pteFmt l.fmt) then .ok (s, 0)
  else match scaleRead s (curView s) l va pa with
    | .error e => .error e
    | .ok (s, bs) => .ok (s, leNat bs)

/-- LDX and LDXB: `n` elements to lanes of format D; the thread parks until its data arrives (R160). A byte that it reads traps where
it is poisoned, a cb4 page's codebook included (R417). -/
def loadElems (D : Fmt) (n : Nat) (d a : BitVec 5) (sg g : BitVec 3) (gs : BitVec 1) (s : State) : Host.Outcome State Fault Refusal :=
  runGated 4 { xr := [a], vs := [d.toNat], rounds := true } g gs none s fun s => (
      match formatPlace s sg (getX (curThread s) a) needR n accLoad with
      | .error (s, e) => .stop s e
      | .ok (s, l, p, pa) =>
        let va := p.addr
        let F := pteFmt l.fmt
        match readTranslated s (curView s) va pa (elemBytes F n) with
        | .error e => .stop s e
        | .ok (s, bs) =>
          match readScale s l va pa with
          | .error e => .stop s e
          | .ok (s, scale) =>
          if F == 7 && codebookPoisoned s (curCtx s) (pteCb l.fmt) then .trap s causePoisoned (wordOf va)
          else
            let table := codebook s (curCtx s) (pteCb l.fmt)
            let t := curThread s
            let lane (i : Nat) : Nat × FFlags :=
              let (v, f) := scaledElem F (elemNum F table (elemAt F (leNat bs) i)) scale
              let (b, h) := round D (roundingOf (rndOf t) i) false (numExact v)
              (b, f ||| h)
            let lanes := (List.range n).map lane
            let v := (lanes.zipIdx.map fun p => p.1.1 * 2 ^ (fmtWidth D * p.2)).foldl (· + ·) 0
            let fl := lanes.foldl (fun f p => f ||| p.2) (0 : FFlags)
            askMemory s p (.elems d.toNat n) (leBytes 32 v ++ [fl.setWidth 8]))

/-- Write bytes of one page in granules of 64 bytes. -/
def writeLines (s : State) (v : View) (va pa : Nat) (bs : List Byte) : Nat → Except Stop State
  | 0 => .ok s
  | fuel + 1 =>
    if bs.isEmpty then .ok s
    else
      let n := 64 - va % 64
      match writeTranslated s v va pa (bs.take n) with
      | .error e => .error e
      | .ok s => writeLines s v (va + n) (pa + n) (bs.drop n) fuel

/-- STBLK (R161). -/
def storeBlock (d : BitVec 3) (a : BitVec 5) (sg g : BitVec 3) (gs : BitVec 1) (s : State) : Host.Outcome State Fault Refusal :=
  let first := 4 * d.toNat
  runGated 4 { xr := [a], vs := [first, first + 1, first + 2, first + 3], rounds := true } g gs none s fun s => (
      match formatPlace s sg (getX (curThread s) a) needW 32 accStore with
      | .error (s, e) => .stop s e
      | .ok (s, l, p, pa) =>
        let va := p.addr
        let F := pteFmt l.fmt
        if F = 7 then .trap s causeFmtStore (wordOf va)
        else
          let t := curThread s
          let ys := (List.range 32).map fun i => decodeNum .fp32 (fieldOf (getV t (regNo (first + i / 8))) (32 * (i % 8)) 32)
          let (es, scale, fl) := encodeBlock F (roundingOf (rndOf t)) ys
          let bs := leBytes (elemBytes F 32) (packElems F es)
          match writeLines s (curView s) va pa bs 4 with
          | .error e => .stop s e
          | .ok s' =>
            match (if elemScaled F then scaleWrite s' (curView s') l va (leBytes 2 scale) else .ok (settleWrite s' (curView s') va l)) with
            | .error e => .stop s e
            | .ok s => .ok (modCur s fun t => takeDraws t 32) fl)

/-- PREF: bring a line into the cluster cache, or do nothing (R162); its walk sets A as every walk does (R265, log 154). -/
def prefetchLine (a : BitVec 5) (sg g : BitVec 3) (gs : BitVec 1) (s : State) : Host.Outcome State Fault Refusal :=
  runGated 4 { xr := [a] } g gs none s fun s => (
      match segCheck s sg (getX (curThread s) a) 0 1 needR false with
      | .error _ => .ok s 0
      | .ok p =>
        if p.kind ≠ kindGlobal then .ok s 0
        else match translate s s.cur.1 p.addr accLoad (curThread s).csr.sys with
          | .error _ => .ok s 0
          | .ok (s', l, pa) =>
            if pteState l.base = stEvicting then .ok s 0
            else if memPoisoned s' pa 1 then .ok s' 0
            else .ok (cachedRead s' s.cur.1 pa 1).1 0)

/-! ## LD and ST (R152) -/

/-- LD.B. -/
def execLdB (d a : BitVec 5) (sg : BitVec 3) (i : BitVec 9) (s : State) : Host.Outcome State Fault Refusal :=
  loadScalar 4 0 d a sg (scaledDisp i (loadSize 0)) s

/-- LD.BU. -/
def execLdBu (d a : BitVec 5) (sg : BitVec 3) (i : BitVec 9) (s : State) : Host.Outcome State Fault Refusal :=
  loadScalar 4 1 d a sg (scaledDisp i (loadSize 1)) s

/-- LD.H. -/
def execLdH (d a : BitVec 5) (sg : BitVec 3) (i : BitVec 9) (s : State) : Host.Outcome State Fault Refusal :=
  loadScalar 4 2 d a sg (scaledDisp i (loadSize 2)) s

/-- LD.HU. -/
def execLdHu (d a : BitVec 5) (sg : BitVec 3) (i : BitVec 9) (s : State) : Host.Outcome State Fault Refusal :=
  loadScalar 4 3 d a sg (scaledDisp i (loadSize 3)) s

/-- LD.W. -/
def execLdW (d a : BitVec 5) (sg : BitVec 3) (i : BitVec 9) (s : State) : Host.Outcome State Fault Refusal :=
  loadScalar 4 4 d a sg (scaledDisp i (loadSize 4)) s

/-- LD.WU. -/
def execLdWu (d a : BitVec 5) (sg : BitVec 3) (i : BitVec 9) (s : State) : Host.Outcome State Fault Refusal :=
  loadScalar 4 5 d a sg (scaledDisp i (loadSize 5)) s

/-- LD.D. -/
def execLdD (d a : BitVec 5) (sg : BitVec 3) (i : BitVec 9) (s : State) : Host.Outcome State Fault Refusal :=
  loadScalar 4 6 d a sg (scaledDisp i (loadSize 6)) s

/-- ST of 1, 2, 4 or 8 bytes. -/
def execSt (d a : BitVec 5) (sg : BitVec 3) (w : BitVec 2) (i : BitVec 9) (s : State) : Host.Outcome State Fault Refusal :=
  storeScalar 4 (2 ^ w.toNat) d a sg (scaledDisp i (2 ^ w.toNat)) s

/-- LDD: LD.D of seg0:0 (R82). -/
def execLdd (d a : BitVec 5) (s : State) : Host.Outcome State Fault Refusal :=
  loadScalar 2 6 d a 0 0 s

/-- STD: ST of 8 bytes at seg0:0 (R82). -/
def execStd (d a : BitVec 5) (s : State) : Host.Outcome State Fault Refusal :=
  storeScalar 2 8 d a 0 0 s

/-! ## LDS, STF and FE (R153 to R156) -/

/-- LDS.K. -/
def execLdsK (d a : BitVec 5) (sg : BitVec 3) (z : BitVec 1) (i : BitVec 9) (s : State) : Host.Outcome State Fault Refusal :=
  loadSync false d a sg (if z = 1 then 8 else 4) (scaledDisp i (if z = 1 then 8 else 4)) s

/-- LDS.C. -/
def execLdsC (d a : BitVec 5) (sg : BitVec 3) (z : BitVec 1) (i : BitVec 9) (s : State) : Host.Outcome State Fault Refusal :=
  loadSync true d a sg (if z = 1 then 8 else 4) (scaledDisp i (if z = 1 then 8 else 4)) s

/-- STF. -/
def execStf (d a : BitVec 5) (sg : BitVec 3) (z : BitVec 1) (i : BitVec 9) (s : State) : Host.Outcome State Fault Refusal :=
  storeFill false d a sg (if z = 1 then 8 else 4) (scaledDisp i (if z = 1 then 8 else 4)) s

/-- STF.E. -/
def execStfE (d a : BitVec 5) (sg : BitVec 3) (z : BitVec 1) (i : BitVec 9) (s : State) : Host.Outcome State Fault Refusal :=
  storeFill true d a sg (if z = 1 then 8 else 4) (scaledDisp i (if z = 1 then 8 else 4)) s

/-- FESET. -/
def execFeset (a : BitVec 5) (sg : BitVec 3) (s : State) : Host.Outcome State Fault Refusal :=
  feWrite 0 a sg s

/-- FECLR. -/
def execFeclr (a : BitVec 5) (sg : BitVec 3) (s : State) : Host.Outcome State Fault Refusal :=
  feWrite 1 a sg s

/-- FETEST. -/
def execFetest (d a : BitVec 5) (sg : BitVec 3) (s : State) : Host.Outcome State Fault Refusal :=
  feRead (some d) a sg s

/-- FEWAIT. -/
def execFewait (a : BitVec 5) (sg : BitVec 3) (s : State) : Host.Outcome State Fault Refusal :=
  feRead none a sg s

/-! ## VMEM (R157) -/

/-- LDV. -/
def execLdv (d a : BitVec 5) (sg : BitVec 3) (i : BitVec 9) (s : State) : Host.Outcome State Fault Refusal :=
  loadVec 0 d a sg i s

/-- STV. -/
def execStv (d a : BitVec 5) (sg : BitVec 3) (i : BitVec 9) (s : State) : Host.Outcome State Fault Refusal :=
  storeVec 1 d a sg i s

/-- LDVS. -/
def execLdvs (d a : BitVec 5) (sg : BitVec 3) (i : BitVec 9) (s : State) : Host.Outcome State Fault Refusal :=
  loadVec 2 d a sg i s

/-- STVF. -/
def execStvf (d a : BitVec 5) (sg : BitVec 3) (i : BitVec 9) (s : State) : Host.Outcome State Fault Refusal :=
  storeVec 3 d a sg i s

/-- LDVH. -/
def execLdvh (d a : BitVec 5) (sg : BitVec 3) (i : BitVec 9) (s : State) : Host.Outcome State Fault Refusal :=
  loadVec 4 d a sg i s

/-- STVH. -/
def execStvh (d a : BitVec 5) (sg : BitVec 3) (i : BitVec 9) (s : State) : Host.Outcome State Fault Refusal :=
  storeVec 5 d a sg i s

/-- LDVB. -/
def execLdvb (d a : BitVec 5) (sg : BitVec 3) (i : BitVec 9) (s : State) : Host.Outcome State Fault Refusal :=
  loadVec 6 d a sg i s

/-! ## FMEM (R160 to R162) -/

/-- LDX. -/
def execLdx (d a : BitVec 5) (sg g : BitVec 3) (n : BitVec 1) (s : State) : Host.Outcome State Fault Refusal :=
  loadElems .fp32 8 d a sg g n s

/-- LDXB. -/
def execLdxb (d a : BitVec 5) (sg g : BitVec 3) (n : BitVec 1) (s : State) : Host.Outcome State Fault Refusal :=
  loadElems .bf16 16 d a sg g n s

/-- STBLK. -/
def execStblk (d : BitVec 3) (a : BitVec 5) (sg g : BitVec 3) (n : BitVec 1) (s : State) : Host.Outcome State Fault Refusal :=
  storeBlock d a sg g n s

/-- PREF. -/
def execPref (a : BitVec 5) (sg g : BitVec 3) (n : BitVec 1) (s : State) : Host.Outcome State Fault Refusal :=
  prefetchLine a sg g n s

end Sys2Proof.Machine
end

