-- ==== Sys2Proof/Machine/MusterUnit.lean ====
section
/-!
DEFINITION. Musters (R315 to R318): the record in its granule, its steps, completion, and the waits held at the owner.
-/

namespace Sys2Proof.Machine

/-- The fields of a muster (R315); DEBT is signed. -/
structure Muster where
  expected : Nat
  arrived : Nat
  debt : Int
  phase : Bool
  fault : Bool
  scope : Nat
deriving DecidableEq, Repr

def musterRead (c : Core) (addr : Nat) : Muster :=
  let v : BitVec 128 := bytesVal 128 (poolBytes c addr 16)
  { expected := fieldOf v 0 16, arrived := fieldOf v 16 16, debt := (BitVec.ofNat 32 (fieldOf v 32 32)).toInt
    phase := fieldOf v 64 1 = 1, fault := fieldOf v 65 1 = 1, scope := fieldOf v 66 5 }

/-- The granule of a muster; the reserved bits above SCOPE are written zero (R3). -/
def musterBits (m : Muster) : BitVec 128 :=
  BitVec.ofNat 128 (m.expected + m.arrived * 2 ^ 16 + (m.debt % 2 ^ 32).toNat * 2 ^ 32 + (if m.phase then 2 ^ 64 else 0)
    + (if m.fault then 2 ^ 65 else 0) + m.scope * 2 ^ 66)

/-- Write a muster by a slot of the core, or by another agent (16). -/
def musterWrite (c : Core) (by_ addr : Nat) (m : Muster) : Core :=
  poolStore c by_ addr (valBytes 16 (musterBits m))

/-- An answer reaches the thread that waits (R318, R319): it acquires at the scope; guard 7 is a synchronous wait, and a number
from 8 on the guard of a FORKP, to which the Hamper answers (R350). -/
def deliverAnswer (s : State) (dst : Ref) (guard : Nat) (ok : Bool) (scope : Nat) : State :=
  let s := acquireAt s dst.core scope
  if guard < 7 then
    modRef s dst fun t => { resolveG t (guardNo guard) ok with asyncWaits := t.asyncWaits - 1 }
  else if 8 ≤ guard then modRef s dst fun t => resolveG t (guardNo (guard - 8)) ok
  else match (refThread s dst).wait with
    | .reply (.muster word) _ _ =>
      if ok then modRef (writeBack s dst none) dst completeWait else trapParked s dst causeMusterFault word
    | _ => s

/-- Whether a deferred request is a wait on the muster at an address. -/
def waitsOn (addr : Nat) (d : Deferred) : Bool :=
  match d.req with
  | .muster _ a _ _ => a == addr
  | _ => false

/-- Whether a deferred request takes an entry of the list of 64 (R151); a wait of the core's own thread through a LOCAL
segment does not. -/
def takesEntry (d : Deferred) : Bool :=
  match d.req with
  | .muster 5 _ _ _ => false
  | _ => true

def deferredRoom (c : Core) : Bool := decide ((c.deferred.filter takesEntry).length < 64)

/-- Answer a held wait: a thread of the core directly, another by a message, and one that has been halted as it waits by a message that
is held until it resumes (R418). -/
def answerWait (s : State) (core : Nat) (d : Deferred) (ok : Bool) (scope : Nat) : State :=
  match d.req with
  | .muster 5 _ _ g =>
    if g = 7 && replyHeld s d.src then send s (.answer d.src core g ok scope) else deliverAnswer s d.src g ok scope
  | .muster _ _ _ g => send s (.answer d.src core g ok scope)
  | _ => s

/-- Examine the waits held on a muster: those whose phase has passed, and all of a faulted one, are answered (R316, R318). -/
def musterExamine (s : State) (core addr : Nat) : State :=
  let c := getCore s core
  let m := musterRead c addr
  let due (d : Deferred) : Bool := waitsOn addr d && (m.fault || d.parity != m.phase)
  let hit := c.deferred.filter due
  let s := setCore s core { c with deferred := c.deferred.filter fun d => !due d }
  hit.foldl (fun s d => answerWait s core d (!m.fault) m.scope) s

/-- A fault completion: ARRIVED and DEBT stay (R317). -/
def musterFaulted (m : Muster) : Muster := { m with fault := true, phase := !m.phase }

/-- The record after an arrival (or a bare debt change) with v, the check for completion included (R317). -/
def musterChange (m : Muster) (arrive : Bool) (v : Int) : Muster :=
  if m.fault then m
  else if arrive && decide (m.arrived ≥ m.expected) then musterFaulted m
  else
    let debt := m.debt + v
    if debt < -(2 ^ 31 : Int) ∨ debt ≥ (2 ^ 31 : Int) then musterFaulted m
    else
      let m := { m with arrived := m.arrived + (if arrive then 1 else 0), debt := debt }
      if m.arrived = m.expected ∧ m.debt = 0 then { m with arrived := 0, phase := !m.phase } else m

/-- Change the record of a muster and examine its waits. -/
def musterUpdate (s : State) (core by_ addr : Nat) (f : Muster → Muster) : State :=
  let m := musterRead (getCore s core) addr
  if f m = m then musterExamine s core addr
  else musterExamine (modCore s core fun c => musterWrite c by_ addr (f m)) core addr

/-- A bound delivery of n bytes, and the failure of a bound command (R211, R317). -/
def musterDebt (s : State) (core addr n : Nat) : State :=
  musterUpdate s core 16 addr fun m => musterChange m false (-(n : Int))

def musterFail (s : State) (core addr : Nat) : State :=
  musterUpdate s core 16 addr fun m => if m.fault then m else musterFaulted m

/-- What a muster step comes to for the thread that asked. -/
inductive MusterEnd where
  | done
  | busy
  | refused
  | held
  | answered (ok : Bool) (scope : Nat)
deriving DecidableEq, Repr

/-- A wait for a phase is entered, or answered at once (R318). -/
def musterWait (s : State) (core addr : Nat) (src : Ref) (guard : Nat) (parity local_ : Bool) : State × MusterEnd :=
  let m := musterRead (getCore s core) addr
  if m.fault || m.phase != parity then (s, .answered (!m.fault) m.scope)
  else if !local_ && !deferredRoom (getCore s core) then (s, .refused)
  else
    let req : Request := .muster (if local_ then 5 else 2) addr 0 guard
    (modCore s core fun c => { c with deferred := c.deferred ++ [⟨src, req, parity⟩] }, .held)

/-- The 32-bit signed operand of MARRIVE and MDEBT. -/
def debtOf (v : Word) : Int := (v.setWidth 32).toInt

/-- One muster step at the owning core; an MSYNC whose wait is refused has not arrived either (R316, R319): `by_` is the writing slot of that core, or 16. -/
def musterStep (s : State) (core by_ : Nat) (src : Ref) (op addr : Nat) (v : Word) (guard : Nat) (local_ : Bool) : State × MusterEnd :=
  match op with
  | 0 =>
    if (getCore s core).deferred.any (waitsOn addr) then (s, .busy)
    else
      let m : Muster := ⟨fieldOf v 0 16, 0, (BitVec.ofNat 32 (fieldOf v 32 32)).toInt, false, false, fieldOf v 16 5⟩
      (modCore s core fun c => poolStore c by_ addr (valBytes 16 (musterBits m)), .done)
  | 1 => (musterUpdate s core by_ addr fun m => musterChange m true (debtOf v), .done)
  | 4 => (musterUpdate s core by_ addr fun m => musterChange m false (debtOf v), .done)
  | 3 =>
    let parity := (musterRead (getCore s core) addr).phase
    match musterWait (musterUpdate s core by_ addr fun m => musterChange m true 0) core addr src guard parity local_ with
    | (_, .refused) => (s, .refused)
    | r => r
  | _ => musterWait (musterExamine s core addr) core addr src guard (v.getLsbD 0) local_

end Sys2Proof.Machine
end

