-- ==== Sys2Proof/Machine/RevFamily.lean ====
section
/-!
DEFINITION. The REV family (R370 to R374): FORK, the merges of JOIN, JOINALL and DONE, RDECL and RSTAT.
-/

namespace Sys2Proof.Machine

/-! ## Handles (R370) -/

def revHandle (home gen index : Nat) : Word := wordOf (packedOf (firstCore home) * 2 ^ 16 + gen * 2 ^ 8 + index)

/-- What a handle names: an entry in use whose generation it holds. -/
def revOf (s : State) (h : Word) : Option (RevRef × Rev) :=
  let core := coreKey (curCtx s) (fieldOf h 16 20)
  let r : RevRef := ⟨clusterOf core, fieldOf h 0 8⟩
  if coreIndex core ≠ 0 then none
  else if mapGet (getCluster s r.home).revGens r.index 0 = fieldOf h 8 8 then (getRev? s r).map fun e => (r, e)
  else none

def revOperand (h : Word) : Bool := fieldOf h 36 28 = 0

/-! ## Merges (R365, R372) -/

/-- Merge one granule of a child into the current thread's revision, as that thread's write. -/
def mergeOne (s : State) (r : RevRef) (e : Rev) (g : Nat) (child : Version) : Except Res State :=
  let ctx := curCtx s
  let t := curThread s
  let va := g * 64
  match translate s s.cur.1 va accStore t.csr.sys with
  | .error (s, st) => .error (.stop s st)
  | .ok (s, l, pa) =>
    if pteFmt l.fmt ≠ 0 then .error (.trap s causeRevOperand (wordOf va))
    else
    let root := rootGranule s pa
    let own := revValue s ctx g root revFuel t.rev
    let kept := mapGet? e.ancestors g
    let base := (kept.getD own).bytes
    let type := match regionAt s ctx va with
      | some x => x.type
      | none => 0
    let val := mergeGranule type own.bytes child.bytes base kept.isSome child.stamp own.stamp
    match revWrite s ctx g t.rev (some r) root val t.csr.stamp with
    | none => .error (.trap s causeRevPool (wordOf va))
    | some s => .ok (if t.rev.isNone then homeWrite (settleDup s s.cur.1 va l).1 s.cur.1 pa (leBytes 64 val.toNat) (some r) else s)

/-- Merge the granules from the given ones on, counting each that is done, so that a merge that stops goes on there. -/
def mergeFrom (s : State) (r : RevRef) (e : Rev) : SMap Version → Except Res State
  | [] => .ok s
  | (g, v) :: rest =>
    match mergeOne s r e g v with
    | .error x => .error x
    | .ok s => mergeFrom (modRev s r fun e => { e with merged := e.merged + 1 }) r e rest

/-- The child is no longer one to be joined. -/
def dropChild (s : State) (r : RevRef) : State :=
  modCur s fun t => { t with children := t.children.filter fun c => c.ref != r }

/-- Merge(h) on an entry that has ended: the state after it, and 0 merged or 1 discarded. -/
def mergeRev (s : State) (r : RevRef) (e : Rev) : Except Res (State × Nat) :=
  let ctx := curCtx s
  let s := acquireAt s s.cur.1 (coverScope s e.child.core s.cur.1)
  if e.phase = .halted then .ok (dropChild (freeRev s ctx r) r, 1)
  else
    let s := modRev s r fun e => { e with phase := .merging }
    match mergeFrom s r e (e.versions.drop e.merged) with
    | .error x => .error x
    | .ok s => .ok (dropChild (freeRev s ctx r) r, 0)

/-- Whether a join need not wait for an entry. -/
def revEnded (e : Rev) : Bool := e.phase != .running

/-- The unjoined children in the order of R372: ascending STAMP, ties in FORK order. -/
def joinOrder (cs : List Child) : List Child := cs.mergeSort fun a b => decide (a.stamp ≤ b.stamp)

/-- JOINALL's loop; each child merged or discarded is counted in the slot (R368). -/
def joinAll (s : State) : Nat → Except Res State
  | 0 => .ok s
  | fuel + 1 =>
    match joinOrder (curThread s).children with
    | [] => .ok s
    | c :: _ =>
      match getRev? s c.ref with
      | none => joinAll (dropChild s c.ref) fuel
      | some e =>
        if !revEnded e then .error (.stop s (.park .retry))
        else match mergeRev s c.ref e with
          | .error x => .error x
          | .ok (s, n) =>
            joinAll (modCur s fun t =>
              if n = 0 then { t with joinMerged := t.joinMerged + 1 } else { t with joinDropped := t.joinDropped + 1 }) fuel

/-! ## FORK (R371) -/

/-- Whether a slot still waits in a FORK: parked, or woken and yet to reissue it. -/
def forkWaits (s : State) (r : Ref) : Bool :=
  let t := refThread s r
  t.wait == .retry && (t.phase != .halted || t.haltedFrom.isSome)

/-- The slot that a FORK takes: on the own core, or else on the cluster's cores in ascending k. -/
def forkSlot (s : State) : Option Ref :=
  let own := s.cur.1
  let part := (curCore s).part
  (own :: (List.range 16).map (· + firstCore (clusterOf own))).findSome? fun k =>
    if (k == own || kernelFits s own k) && tagRoom (getCore s k) (liveLaunch s (curRef s)) then (lowestEmpty (getCore s k) part).map (⟨k, ·⟩)
    else none

/-- The child's first state (R371); `x` are the parent's own registers, without a word that the FORK has popped. -/
def forkChild (s : State) (x : Vector Word 32) (d : BitVec 5) (slot : Ref) (rev : RevRef) (number : BitVec 32) (tag : Nat) (pc stamp : Word) : Thread :=
  let t := curThread s
  let (localsz, frame) := match getLaunch? s (curCtx s) t.launch with
    | some l => (l.kernel.localsz, lrecFrame l.record)
    | none => (0, 0)
  let n := Thread.initial .run
  { n with
    pc := evenPc pc
    x := x.set d.toNat 0 d.isLt
    seg := t.seg.set 0 (frameSeg localsz frame slot.slot)
    csr := { n.csr with
      stamp := stamp, sys := t.csr.sys, rnd := t.csr.rnd, seed := t.csr.seed, draw := t.csr.draw, tvec := t.csr.tvec
      deadline := t.csr.deadline, trailAtoms := t.csr.trailAtoms, apxctl := t.csr.apxctl }
    soon := true, number := number, launch := t.launch, rank := t.rank, ltag := tag, rev := some rev, depth := t.depth + 1 }

/-- FORK. -/
def execFork (d a b : BitVec 5) (s : State) : Host.Outcome State Fault Refusal :=
  let own := (curThread s).x
  run 4 { xr := [a, b], xw := some d, noMsg := true } s fun s =>
    let t := curThread s
    let me := curRef s
    let ctx := curCtx s
    let home := clusterOf s.cur.1
    let pc := getX t a
    let stamp := getX t b
    if t.depth ≥ 15 then .trap s causeRevOperand (wordOf t.depth)
    else
      let cl := getCluster s home
      let ahead := cl.forkers.takeWhile (· != me)
      let free := (List.range 256).find? fun i => (mapGet? cl.revs i).isNone
      match free, forkSlot s, ahead.any (forkWaits s) with
      | some index, some slot, false =>
        let scope := coverScope s s.cur.1 slot.core
        if unperformed (curThread s) then .stop s (.park .retry)
        else match readyCore s slot.core t.launch with
          | none => .stop s (.park .retry)
          | some s =>
            let gen := mapGet cl.revGens index 0
            let gen := if gen = 255 then 1 else gen + 1
            let number := nextNumber s ctx
            let s := modCtx s ctx fun c => { c with threadNumber := number }
            let rev : RevRef := ⟨home, index⟩
            let (s, tag) := takeTag s slot.core (liveLaunch s (curRef s))
            let child := forkChild s own d slot rev number tag pc stamp
            let s := liveAdd s slot.core tag
            let s := modCluster s home fun c => { c with
              forkers := c.forkers.filter (· != me)
              revGens := mapSet c.revGens index gen
              revs := mapSet c.revs index ⟨.running, false, t.rev, me, number, slot, [], [], 0⟩ }
            let old := refThread s slot
            let s := modRef s slot fun _ => { child with lastIssue := old.lastIssue }
            let s := acquireAt s slot.core scope
            .ok (modCur s fun t =>
              { setX t d (revHandle home gen index) with children := t.children ++ [⟨rev, gen, stamp⟩] }) 0
      | _, _, _ =>
        let s := modCluster s home fun c => if c.forkers.contains me then c else { c with forkers := c.forkers ++ [me] }
        .stop s (.park .retry)

/-! ## JOIN, JOINALL, RDECL, RSTAT -/

/-- JOIN. -/
def execJoin (d a : BitVec 5) (s : State) : Host.Outcome State Fault Refusal :=
  run 4 { xr := [a], xw := some d, noMsg := true } s fun s =>
    let h := getX (curThread s) a
    if !revOperand h then .trap s causeRevOperand h
    else match revOf s h with
      | none => .trap s causeRevStale h
      | some (r, e) =>
        if !(curThread s).children.any (fun c => c.ref == r && c.gen == fieldOf h 8 8) then .trap s causeRevOperand h
        else if !revEnded e then .stop s (.park .retry)
        else match mergeRev s r e with
          | .error x => x
          | .ok (s, n) => .ok (modCur s fun t => setX t d (wordOf n)) 0

/-- JOINALL. -/
def execJoinall (d : BitVec 5) (s : State) : Host.Outcome State Fault Refusal :=
  run 4 { xw := some d, noMsg := true } s fun s =>
    match joinAll s ((curThread s).children.length + 1) with
    | .error x => x
    | .ok s => .ok (modCur s fun t =>
        { setX t d (wordOf (t.joinMerged + t.joinDropped * 2 ^ 32)) with joinMerged := 0, joinDropped := 0 }) 0

/-- RDECL (R373). -/
def execRdecl (d a b : BitVec 5) (s : State) : Host.Outcome State Fault Refusal :=
  run 4 { xr := [a, b], xw := some d, noMsg := true } s fun s =>
    let t := curThread s
    let base := getX t a
    let word := getX t b
    let size := fieldOf word 0 48
    let type := fieldOf word 48 4
    match getCtx? s (curCtx s) with
    | none => .trap s causeRevOperand base
    | some c =>
      if base.toNat % 64 ≠ 0 then .trap s causeRevOperand base
      else if size % 64 ≠ 0 ∨ size = 0 ∨ type > 12 ∨ fieldOf word 52 12 ≠ 0 ∨ base.toNat + size > 2 ^ 56 then .trap s causeRevOperand word
      else if c.regions.any (fun r => decide (base.toNat < r.base + r.size) && decide (r.base < base.toNat + size))
          || decide (c.regions.length ≥ 64) || !(ctxRevs s (curCtx s)).isEmpty then .trap s causeRevOperand base
      else releasing s (
        let s := modCtx s (curCtx s) fun c => { c with regions := c.regions ++ [⟨base.toNat, size, type⟩] }
        .ok (modCur s fun t => setX t d (wordOf c.regions.length)) 0)

/-- RSTAT (R374), which parks for the Fuller's answer. The code of an entry that is MERGING is not stated: a free value. -/
def execRstat (d a : BitVec 5) (s : State) : Host.Outcome State Fault Refusal :=
  run 4 { xr := [a], xw := some d, noMsg := true } s fun s =>
    let h := getX (curThread s) a
    if !revOperand h then .trap s causeRevOperand h
    else if h = 0 then
      let pages := (storeSpill s (curCtx s) [] + 1023) / 1024
      askUnit s (some d) 0 (wordOf (pages * 2 ^ 32 + (ctxRevs s (curCtx s)).length))
    else
      let held (e : Rev) : Nat := (e.versions.length + e.ancestors.length) * 2 ^ 32
      match (if fieldOf h 8 8 = 0 then none else revOf s h) with
      | none => askUnit s (some d) 0 0
      | some (_, e) =>
        let (s, code) := match e.phase with
          | .running => (s, 1)
          | .done => (s, 2)
          | .halted => (s, 3)
          | .merging => let (s, w) := takeFree s; (s, w.toNat % 8)
        askUnit s (some d) 0 (wordOf (held e + code))

end Sys2Proof.Machine
end

