-- ==== Sys2Proof/Machine/TaskFamily.lean ====
section
/-!
DEFINITION. The TASK family: YIELD, WFE and MIGRATE (R119 to R122), messages and queues (R290 to R292), LAUNCH and DONE
(R306).
-/

namespace Sys2Proof.Machine

/-! ## YIELD, WFE, MIGRATE -/

/-- YIELD gives away the next home cycle (R120). -/
def execYield (s : State) : Host.Outcome State Fault Refusal :=
  runT 4 { noMsg := true } s fun t => .ok { t with yielded := true } 0

/-- WFE (R121). -/
def execWfe (s : State) : Host.Outcome State Fault Refusal :=
  runT 4 { noMsg := true } s fun t => if t.event then .ok { t with event := false } 0 else .park .event

/-- MIGRATE (R122): steps 1 to 3; the move itself is the step that finds a free slot. -/
def execMigrate (a : BitVec 5) (s : State) : Host.Outcome State Fault Refusal :=
  run 4 { xr := [a], noMsg := true } s fun s =>
    let v := getX (curThread s) a
    let inside := match getCtx? s (curCtx s) with
      | some c => decide (v.toNat < 2 ^ 20) && inGrid c v.toNat
      | none => false
    let k := coreKey (curCtx s) v.toNat
    if !inside || !kernelFits s s.cur.1 k then .trap s causeBadCore v
    else if k = s.cur.1 then .ok s 0
    else .stop s (.park (migrateWait (curThread s) k false))

/-! ## Messages and queues -/

/-- TSEND (R291, R292). -/
def execTsend (a : BitVec 5) (b : BitVec 4) (s : State) : Host.Outcome State Fault Refusal :=
  run 4 { xr := [a, regNo (2 * b.toNat)], xs := [2 * b.toNat + 1] } s fun s =>
    let t := curThread s
    let id := getX t a
    if id.toNat ≥ 2 ^ 32 then .trap s causeBadTask id
    else releasing s (sendingAgain s <|
      .ok (send s (.task (curRef s) ⟨getX t (regNo (2 * b.toNat)), getX t (regNo (2 * b.toNat + 1)), id.setWidth 32, curRef s, t.number, 0, 0⟩)) 0)

/-- The four words of a message or bounce (R291). -/
def taskWords (m : TaskMsg) : List Word :=
  [m.lo, m.hi, wordOf (m.task.toNat + m.status * 2 ^ 32), wordOf (packedOf m.sender.core)]

/-- The words of an empty queue. -/
def taskNone : List Word := [0, 0, wordOf (0xFF * 2 ^ 32), 0]

/-- TRECV (R291). -/
def execTrecv (d : BitVec 3) (b : BitVec 5) (s : State) : Host.Outcome State Fault Refusal :=
  run 4 { xs := groupRegs d, noMsg := true } s fun s =>
    let t := curThread s
    if b = 2 then
      match t.bounces with
      | [] => .ok (modCur s fun t => putGroup t d taskNone) 0
      | m :: rest => .ok (modCur s fun t => putGroup { t with bounces := rest } d (taskWords m)) 0
    else match t.mailbox with
      | [] => if b = 0 then .stop s (.park .retry) else .ok (modCur s fun t => putGroup t d taskNone) 0
      | m :: rest =>
        let s := modCur s fun t => putGroup { t with mailbox := rest } d (taskWords m)
        .ok (askForward (acquireAt s s.cur.1 3) (curRef s)) 0

/-- An operand of RQPUSH or SLEEP that breaks R290. -/
def taskOperand (id prio : Word) : Option Word :=
  if id.toNat ≥ 2 ^ 32 then some id else if prio.toNat ≥ 4 then some prio else none

/-- Append to the current core's ready queue, or trap RQ_FULL. -/
def pushReady (s : State) (id prio : Word) (k : State → Res) : Res :=
  let (c, ok) := readyPush (curCore s) (id.setWidth 32) prio.toNat
  if ok then k (setCore s s.cur.1 c) else .trap s causeRqFull id

/-- RQPUSH (R291). -/
def execRqpush (a b : BitVec 5) (s : State) : Host.Outcome State Fault Refusal :=
  run 4 { xr := [a, b], noMsg := true } s fun s =>
    let id := getX (curThread s) a
    let prio := getX (curThread s) b
    match taskOperand id prio with
    | some v => .trap s causeBadTask v
    | none => pushReady s id prio fun s => .ok s 0

/-- The oldest id of the highest non-empty priority, 3 before 0 (R291). -/
def popReady (c : Core) : Option (Nat × BitVec 32 × Core) :=
  [3, 2, 1, 0].findSome? fun p =>
    match c.ready.get (Fin.ofNat 4 p) with
    | id :: rest => some (p, id, { c with ready := c.ready.set (Fin.ofNat 4 p) rest })
    | [] => none

/-- RQPOP (R291); then woken entries are appended (R288). -/
def execRqpop (d : BitVec 5) (s : State) : Host.Outcome State Fault Refusal :=
  run 4 { xw := some d, noMsg := true } s fun s =>
    match popReady (curCore s) with
    | none => .ok (modCur (modCore s s.cur.1 drainWoken) fun t => setX t d allOnes) 0
    | some (p, id, c) =>
      .ok (modCur (setCore s s.cur.1 (drainWoken c)) fun t => setX t d (wordOf (id.toNat + p * 2 ^ 32))) 0

/-- SLEEP (R291). -/
def execSleep (a b : BitVec 5) (s : State) : Host.Outcome State Fault Refusal :=
  run 4 { xr := [a, b], noMsg := true } s fun s =>
    let t := curThread s
    let id := getX t a
    let prio := getX t b
    let task : BitVec 32 := id.setWidth 32
    let wait (s : State) : Res :=
      if readyEmpty (curCore s) && !(curThread s).timerTrap then .stop s (.park .sleep) else .ok s 0
    match taskOperand id prio with
    | some v => .trap s causeBadTask v
    | none =>
      let c := curCore s
      if t.mailbox.any (·.task == task) then pushReady s id prio wait
      else if c.sleepers.any (·.task == task) || decide (c.sleepers.length ≥ 16) then .trap s causeSleepFull id
      else wait (setCore s s.cur.1 { c with sleepers := c.sleepers ++ [⟨task, prio.toNat, false⟩] })

/-- TIMER (R291): its assignments take effect in the order written (R5), so that with d = a the timer keeps its value, but for a
chain port, whose word is the operand (R170). -/
def execTimer (d a : BitVec 5) (s : State) : Host.Outcome State Fault Refusal :=
  runT 4 { xr := [a], xw := some d, noMsg := true } s fun t =>
    let port := t.csr.chain && (a == 28 || a == 29)
    let v := if d = a ∧ !port then t.csr.timer else getX t a
    .ok { setX t d t.csr.timer with csr := { t.csr with timer := v }, timerTrap := false } 0

/-! ## LAUNCH and DONE (R306) -/

/-- Entries of the device launch queue of a context (R283). -/
def ringRoom (s : State) (ctx : Nat) : Bool :=
  match getCtx? s ctx with
  | some c => decide (c.ring.length < 256)
  | none => false

/-- Copy a record into the device launch queue for a thread that then awaits its id. -/
def ringPush (s : State) (r : Ref) (bs : List Byte) : State :=
  modCtx s (ctxOf r.core) fun c => { c with ring := c.ring ++ [(bytesVal 512 bs, r)] }

/-- LAUNCH. -/
def execLaunch (d a : BitVec 5) (s : State) : Host.Outcome State Fault Refusal :=
  run 4 { xr := [a], xw := some d, noMsg := true } s fun s =>
    let word := getX (curThread s) a
    let sg : BitVec 3 := BitVec.ofNat 3 (fieldOf word 61 3)
    if fieldOf word 56 5 ≠ 0 then .trap s causeAtomOperand word
    else match segCheck s sg (wordOf (fieldOf word 0 56)) 0 64 needR false with
      | .error e => .stop s e
      | .ok p =>
        if !ringRoom s (curCtx s) then .stop s (.park .retry)
        else releasing s (
          if p.kind = kindLocal then
            localAccess s (
              if poolPoisoned (curCore s) p.addr 64 then .trap s causePoisoned (wordOf p.addr)
              else .stop (ringPush s (curRef s) (poolBytes (curCore s) p.addr 64)) (.park (.launch d.toNat)))
          else if p.kind = kindCore then askCore s p (.load p.addr 64) (.launch d.toNat)
          else match viewRead s (curView s) p.addr 64 accLoad with
            | .error (s, e) => .stop s e
            | .ok (s, _, bs) => .stop (ringPush s (curRef s) bs) (.park (.launch d.toNat)))

/-- DONE (R306), also of a thread without a trap handler (R412). -/
def doneRes (s : State) : Res :=
  let t := curThread s
  if !(t.matq.isEmpty && t.copyq.isEmpty && guardsResolved t) then .stop s (.park .retry)
  else match joinAll s (t.children.length + 1) with
    | .error x => x
    | .ok s =>
      if (curThread s).unacked ≠ 0 then .stop s (.park .retry) else .gone (retireThread s (curRef s))

/-- DONE. -/
def execDone (s : State) : Host.Outcome State Fault Refusal :=
  run 4 { noMsg := true } s doneRes

end Sys2Proof.Machine
end

