-- ==== Sys2Proof/Machine/MessageUnit.lean ====
section
/-!
DEFINITION. Messages in flight: which of them keep their order (R164), the reply of a parked access (R104, R163), and what
the message slot does with the messages of its inbound queue (R165, R169).
-/

namespace Sys2Proof.Machine

/-! ## Order (R164) -/

/-- The way a packet takes: packets of one way arrive in the order sent. -/
def wayOf : Packet → List Nat
  | .request d m => [0, d, m.src.core]
  | .resend d m due => [15, d, m.src.core, m.src.slot, due]
  | .reply d k _ => [1, d.core, d.slot, k]
  | .source d k _ _ => [16, d.core, d.slot, k]
  | .ack d k => [2, d.core, d.slot, k]
  | .chainWord _ d _ => [3, d.core, d.slot]
  | .task k m => [4, ctxOf k.core, if k.slot = 15 then 2 ^ 32 + k.core else m.number.toNat, m.task.toNat]
  | .forward d m _ => [5, d.core, d.slot, m.task.toNat]
  | .ask d _ => [17, d.core, d.slot]
  | .bounce m => [6, ctxOf m.sender.core, if m.sender.slot = 15 then 2 ^ 32 + m.sender.core else m.number.toNat, m.task.toNat]
  | .answer d k _ _ _ => [7, d.core, d.slot, k]
  | .up c l k _ => [8, c, l.toNat, k]
  | .done c l k _ _ => [8, c, l.toNat, k]
  | .migrant _ d => [9, d]
  | .chunk k d _ _ _ _ _ => [10, k.core, d]
  | .drain k d _ _ _ _ _ => [11, k.core, d]
  | .stolen v k _ => [12, v, k.who.core, k.who.slot]
  | .count h k _ _ => [13, h.toNat, k]
  | .prim c d o _ => [14, c, d, o]
  | .flit c d o _ => [14, c, d, o]

/-- The context of a packet. -/
def packetCtx : Packet → Nat
  | .request d _ => ctxOf d
  | .resend d _ _ => ctxOf d
  | .reply d _ _ => ctxOf d.core
  | .source d _ _ _ => ctxOf d.core
  | .ack d _ => ctxOf d.core
  | .chainWord _ d _ => ctxOf d.core
  | .task k _ => ctxOf k.core
  | .forward d _ _ => ctxOf d.core
  | .ask d _ => ctxOf d.core
  | .bounce m => ctxOf m.sender.core
  | .answer d _ _ _ _ => ctxOf d.core
  | .up c _ _ _ => c
  | .done c _ _ _ _ => c
  | .migrant k _ => ctxOf k.core
  | .chunk k _ _ _ _ _ _ => ctxOf k.core
  | .drain k _ _ _ _ _ _ => ctxOf k.core
  | .stolen _ k _ => ctxOf k.who.core
  | .count _ _ home _ => ctxOf (firstCore home)
  | .prim c _ _ _ => c
  | .flit c _ _ _ => c

/-- Take a packet out of the net, where none sent before it takes the same way; those of a SAVED context wait in its image (R253). -/
def takeMsg (s : State) (msg : Nat) : Option (Packet × State) :=
  match s.net[msg]? with
  | none => none
  | some p =>
    if ctxSaved s (packetCtx p) || (s.net.take msg).any (fun q => wayOf q == wayOf p) then none
    else some (p, { s with net := s.net.eraseIdx msg })

/-- An event that takes a packet: it leaves the state as it is where the packet is not one of its own, or cannot arrive yet. -/
def onMsg (msg : Nat) (s : State) (f : Packet → State → Option State) : Host.Outcome State Fault Refusal :=
  match takeMsg s msg with
  | some (p, s') => .next ((f p s').getD s)
  | none => .next s

/-! ## Replies (R104, R163) -/

/-- A parked instruction completes with a result for an x register, and flags. -/
def replyDone (s : State) (r : Ref) (d : Option (BitVec 5 × Word)) (raised : FFlags) : State :=
  let traps := (flagTrap raised (refThread s r).csr.ftrapen).isSome
  raiseFlags (modRef (if traps then writeTrapping s r d else writeBack s r d) r completeWait) r raised

/-- The parked access fails at its owner with a cause. -/
def replyFault (s : State) (r : Ref) (dest : ReplyTo) (sg : Nat) (off : Word) (c : BitVec 8) : State :=
  let at_ : Word := wordOf (segBase (getSeg (refThread s r) (guardNo sg))) + off
  match dest with
  | .handle w pass => trapParked s r c (handleVal w pass c)
  | .rfetch _ => trapParked s r causeRemoteFault (wordOf c.toNat)
  | .minit word => if c = causeMusterBusy then trapParked s r c word else
      if c = 0x10 then trapParked s r (causeSegLimit sg) off else trapParked s r c at_
  | _ => if c = 0x10 then trapParked s r (causeSegLimit sg) off else trapParked s r c at_

/-- The bytes of a reply reach their destination. -/
def replyData (s : State) (r : Ref) (src : Nat) (dest : ReplyTo) (sg : Nat) (bs : List Byte) : State :=
  let scope := segScope (getSeg (refThread s r) (guardNo sg))
  match dest with
  | .load d w => replyDone s r (some (regNo d, loadValue w bs)) 0
  | .sync d z => replyDone (acquireAt s r.core scope) r (some (regNo d, syncValue z bs)) 0
  | .vec d w =>
    let s := if w = 2 then acquireAt s r.core scope else s
    replyDone (modRef s r fun t => setV t (regNo d) (vecValue w bs)) r none 0
  | .elems d n =>
    replyDone (modRef s r fun t => setV (takeDraws t n) (regNo d) (bytesVal 256 (bs.take 32))) r none (bytesVal 5 (bs.drop 32))
  | .fetest d =>
    let s := if leNat bs = 0 then s else acquireAt s r.core scope
    replyDone s r (some (regNo d, bytesVal 64 bs)) 0
  | .bare => replyDone (acquireAt s r.core scope) r none 0
  | .atom d z sx acq =>
    let v : Word := bytesVal 64 (bs.take z)
    replyDone (acquireAt s r.core acq) r (some (regNo d, if sx then sextW v 32 else v)) (bytesVal 5 (bs.drop z))
  | .cell d double =>
    let (t, f) := putCell (if double then .fp64 else .fp32) (regNo d) (bytesVal 256 bs) (refThread s r)
    replyDone (modRef s r fun t => takeDraws t 1) r (some (regNo d, getX t (regNo d))) f
  | .maxe d => replyDone s r (some (regNo d, bytesVal 64 bs)) 0
  | .unit d acq => replyDone (acquireAt s r.core acq) r (d.map fun d => (regNo d, bytesVal 64 bs)) 0
  | .rfetch d => replyDone (acquireAt s r.core (coverScope s src r.core)) r (some (regNo d, bytesVal 64 bs)) 0
  | .minit _ => replyDone s r none 0
  | .launch d =>
    if ringRoom s (ctxOf r.core) then modRef (ringPush s r bs) r fun t => { t with wait := .launch d }
    else modRef s r fun t => rewait (unpop t)
  | .muster _ => replyDone s r none 0
  | .operand => modRef s r fun t => rewait { unpop t with fetched := some bs }
  | .handle w pass => handleReply s r w pass

/-- A reply arrives for the thread that waits for it. -/
def performReply (s : State) (r : Ref) (src : Nat) (data : Except (BitVec 8) (List Byte)) : State :=
  match (refThread s r).wait, data with
  | .reply dest sg off, .error c => replyFault s r dest sg off c
  | .reply dest sg _, .ok bs => replyData s r src dest sg bs
  | .launch d, .ok bs => replyDone s r (some (regNo d, bytesVal 64 bs)) 0
  | _, _ => s

/-- The replies that have been held for the threads of a context, which resume: each is written (R418). -/
def writeReplies (s : State) (ctx : Nat) : State :=
  let ours (p : Packet) : Bool := match p with
    | .reply r _ _ => ctxOf r.core == ctx
    | .answer r _ g _ _ => ctxOf r.core == ctx && g == 7
    | _ => false
  (s.net.filter ours).foldl (fun s p => match p with
    | .reply r src data => performReply s r src data
    | .answer r _ g ok scope => deliverAnswer s r g ok scope
    | _ => s) { s with net := s.net.filter fun p => !ours p }

/-! ## The message slot (R165, R169) -/

/-- Whether the message slot of a core takes a message now: it is IDLE, and the context has not stopped issue there (R418). -/
def slotServes (s : State) (core : Nat) : Bool :=
  (getThread s core 15).phase == .idle
    && match getCtx? s (ctxOf core) with
      | some c => c.phase == .running || c.phase == .idle || (c.phase == .halting && !(getCore s core).halting)
      | none => false

/-- The oldest message of a core's inbound queue, and the state without it, where the message slot takes one: one that arrived in this
cycle is pending from the next (R99). -/
def takeInq (s : State) (core : Nat) : Option (Message × State) :=
  if !slotServes s core then none
  else match (getCore s core).inq with
    | m :: rest => if (getCore s core).arrived ≤ rest.length then some (m, modCore s core fun c => { c with inq := rest }) else none
    | [] => none

/-- The first byte past what a request touches. -/
def requestEnd : Request → Nat
  | .load a n => a + n
  | .store a bs => a + bs.length
  | .syncLoad a n _ => a + n
  | .fill a bs _ => a + bs.length
  | .fe a _ => a + 16
  | .atomic a _ n _ _ => a + n
  | .cell a _ _ _ => a + 32
  | .muster _ a _ _ => a + 16
  | .user _ _ _ _ => 0
  | .source _ _ _ => 0
  | .handle _ _ => 0

/-- A request that cannot be performed fails: a posted one is discarded and noted, by the owner where it lies outside the scratchpad
(R148) and by the issuing core where an addend meets a poisoned cell (R245); an asynchronous wait on a muster is answered false, and any
other is answered with the cause. -/
def failRequest (s : State) (core : Nat) (m : Message) (c : BitVec 8) : State :=
  let refuser := match m.req with
    | .cell _ _ _ _ => if c = causePoisoned then m.src.core else core
    | _ => core
  if isPosted m.req then send (refuseWrite s refuser) (.ack m.src core)
  else match m.req with
    | .muster 2 _ _ g => if g < 7 then send s (.answer m.src core g false 0) else send s (.reply m.src core (.error c))
    | .muster 3 _ _ g => if g < 7 then send s (.answer m.src core g false 0) else send s (.reply m.src core (.error c))
    | _ => send s (.reply m.src core (.error c))

/-- Perform a request of the inbound queue, once its range lies within the scratchpad. -/
def inBounds (s : State) (core : Nat) (m : Message) (k : State → State) : State :=
  if requestEnd m.req ≤ scratchSize (getCore s core).part then k s else failRequest s core m 0x10

/-- A request that the deferred-request list refuses is sent again after 256 cycles (R151). -/
def refuseRequest (s : State) (core : Nat) (m : Message) : State := send s (.resend core m (s.cycle + 256))

/-- A synchronising request is performed, deferred or refused (R151). -/
def syncRequest (s : State) (core : Nat) (m : Message) : State :=
  inBounds s core m fun s =>
    if syncMet (getCore s core) m.req then settleBits (performSync s core m) core
    else if deferredRoom (getCore s core) then
      modCore s core fun c => { c with deferred := c.deferred ++ [⟨m.src, m.req, false⟩] }
    else refuseRequest s core m

/-- An atomic or cell request is performed (R241 to R246). -/
def atomicRequest (s : State) (core : Nat) (m : Message) : State :=
  inBounds s core m fun s =>
    let c := getCore s core
    match m.req with
    | .atomic a op z v new =>
      if poolPoisoned c a z then failRequest s core m causePoisoned
      else
        let old := leNat (poolBytes c a z)
        let s := match atomicNew op z old v.toNat new.toNat with
          | some n => setCore s core (poolStore c 16 a (leBytes z n))
          | none => s
        send s (.reply m.src core (.ok (leBytes z old ++ [(atomicFlags op old v.toNat).setWidth 8])))
    | .cell a op b e =>
      if op ≠ 0 && poolPoisoned c a 32 then failRequest s core m causePoisoned
      else
        let cell : BitVec 256 := bytesVal 256 (poolBytes c a 32)
        if op < 4 then
          send (setCore s core (poolStore c 16 a (valBytes 32 (cellWrite op cell b e)))) (.ack m.src core)
        else if op < 6 then send s (.reply m.src core (.ok (valBytes 32 cell)))
        else
          let (cell, v) := cellMaxe cell (b.setWidth 16)
          send (setCore s core (poolStore c 16 a (valBytes 32 cell))) (.reply m.src core (.ok (valBytes 8 v)))
    | _ => s

/-- A muster step that another core has asked for (R316, R319). -/
def musterRequest (s : State) (core : Nat) (m : Message) : State :=
  inBounds s core m fun s =>
    match m.req with
    | .muster op a v g =>
      if op ≠ 0 && poolPoisoned (getCore s core) a 16 then failRequest s core m causePoisoned
      else
        let (s', e) := musterStep s core 16 m.src op a v g false
        match e with
        | .done => answerRequest s' core m (.ok [])
        | .busy => send s (.reply m.src core (.error causeMusterBusy))
        | .refused => refuseRequest s core m
        | .held => s'
        | .answered ok scope => send s' (.answer m.src core g ok scope)
    | _ => s

/-- An operation on a handle of this core, for a thread of another (R218). -/
def handleRequest (s : State) (core : Nat) (m : Message) : State :=
  match m.req with
  | .handle w pass => match handleAct s m.src w pass with
    | .ok s => answerRequest s core m (.ok [])
    | .error c => answerRequest s core m (.error c)
  | _ => s

/-- A copy engine's read of its source bytes, once the whole range has been found within the scratchpad (R213). -/
def sourceRequest (s : State) (core : Nat) (m : Message) : State :=
  match m.req with
  | .source runs check tag =>
    let c := getCore s core
    send s (.source m.src core tag (
      if scratchSize c.part < check then .error causeCopyRemote
      else if runs.any fun r => poolPoisoned c r.1 r.2 then .error causePoisoned
      else .ok (runs.flatMap fun r => poolBytes c r.1 r.2)))
  | _ => s

/-- A user message's handler starts (R165, R168). -/
def startHandler (s : State) (core : Nat) (m : Message) : State :=
  match m.req with
  | .user handler lo hi _ =>
    acquireAt (modThread s core 15 fun t =>
      { setX (setX t 8 lo) 9 hi with
        phase := .handling, pc := handler, handler := handler, issues := 0, current := some m
        csr := { t.csr with amsrc := BitVec.ofNat 20 (packedOf m.src.core) } }) core (coverScope s m.src.core core)
  | _ => s

end Sys2Proof.Machine
end

