-- ==== Sys2Proof/Machine/LaunchEvents.lean ====
section
/-!
DEFINITION. The steps of launches: reading a record (R297, R298), placing (R297, R299, R250), dispatch (R300), the
completion tree (R301 to R303) and the deadline (R304).
-/

namespace Sys2Proof.Machine

/-! ## Records -/

/-- Whether the device takes new work (R325, R336). -/
def takesWork (s : State) : Bool := s.power && s.status.ready && !s.status.linkFatal

def getHostq (s : State) (q : Nat) : HostQueue := mapGet s.hostq q HostQueue.initial
def modHostq (s : State) (q : Nat) (f : HostQueue → HostQueue) : State := { s with hostq := mapSet s.hostq q (f (getHostq s q)) }

/-- The record that Hjelec reads next from a queue, with the thread whose LAUNCH put it there, and the state once the
queue has moved past it (R281, R283). -/
def nextRecord (s : State) (ctx queue : Nat) : Option (BitVec 512 × Option Ref × State) :=
  if queue < 64 then
    let h := getHostq s queue
    if h.enable && h.head != h.tail && h.ctxnum.toNat == ctx then
      let pa := h.base.toNat + 64 * (h.head.toNat % 2 ^ h.log2n.toNat)
      some (BitVec.ofNat 512 (memNat s pa 64), none, modHostq s queue fun h => { h with head := h.head + 1 })
    else none
  else if queue = 64 then
    match getCtx? s ctx with
    | some c => match c.ring with
      | (r, w) :: rest => some (r, some w, setCtx s ctx { c with ring := rest })
      | [] => none
    | none => none
  else none

/-- A refused record of a host queue sets BADREC (R298). -/
def badRecord (s : State) (queue : Nat) : State := if queue < 64 then modHostq s queue fun h => { h with badrec := true } else s

/-- A kernel of a launch whose checks failed. -/
def noKernel : Kernel :=
  { part := 0, textsz := 0, localsz := 0, entry := 0, deadline := 0, trees := [], regions := [], scopes := [], books := [] }

/-- What reading the record comes to: the lowest reason of a refusal (0: none), and the kernel; 10 where the context is FAULTED. -/
def readReason (c : Context) : LaunchCheck → PageNeed → Option (Nat × Kernel)
  | .wait, _ => none
  | .ok k, need =>
    if c.phase = .faulted then some (10, noKernel)
    else match need with
      | .away => none
      | .bad => some (11, noKernel)
      | .here => some (0, k)
  | .refused _, .away => none
  | .refused r, _ => some (r, noKernel)

/-- The pin of DONEFUT's page (R303). -/
def doneNeed (s : State) (ctx : Nat) (rec : BitVec 512) : PageNeed :=
  let va := lrecDonefut rec
  if va = 0 then .here else if va % 8 ≠ 0 then .bad else needPin s ctx va true

/-- The first run of `n` indices of the task table that are none of `busy`. -/
def freeRun (busy : List Nat) (n : Nat) : Option Nat :=
  (0 :: busy.map (· + 1)).find? fun start =>
    decide (start + n ≤ 2 ^ 20) && !busy.any fun i => decide (start ≤ i) && decide (i < start + n)

/-- The run that Hjelec chooses: of entries that are FREE, and, while there are such, that no destroyed context of the number has used
(R256, R284). -/
def freeTasks (s : State) (ctx : Nat) (c : Context) (n : Nat) : Option Nat :=
  let busy := c.tasks.map (·.1)
  match freeRun (busy ++ (mapGet s.oldGens ctx []).map (·.1)) n with
  | some i => some i
  | none => freeRun busy n

/-- A task entry is reserved (R286). -/
def reserveTask (c : Context) (i : Nat) : Context :=
  { c with
    taskGens := mapSet c.taskGens i (nextGen (mapGet c.taskGens i 0))
    tasks := mapSet c.tasks i { phase := .unplaced, want := false, place := ⟨0, 0⟩, mbox := [], mhead := 0, verdicts := 0 } }

/-- The entries of a launch: one for each thread and its run, from the first indices free for them, once there are such (R284). -/
def launchEntries (l : Launch) : Nat := lrecThreads l.record * (1 + lrecTasks l.record)
def reserveTasks (s : State) (ctx : Nat) (id : BitVec 32) : State :=
  match getCtx? s ctx, getLaunch? s ctx id with
  | some c, some l =>
    match l.taskBase, freeTasks s ctx c (launchEntries l) with
    | none, some base =>
      let c := ((List.range (launchEntries l)).map (· + base)).foldl reserveTask c
      modLaunch (setCtx s ctx c) ctx id fun l => { l with taskBase := some base }
    | _, _ => s
  | _, _ => s

/-- A launch that is refused when it is to be placed gives its entries up. -/
def releaseTasks (s : State) (ctx : Nat) (l : Launch) : State :=
  match l.taskBase with
  | some base => exitEntries s ctx ((List.range (launchEntries l)).map (· + base))
  | none => s

/-- Whether no context of a higher priority has a record in its device launch queue (R283). -/
def ringTurn (s : State) (ctx : Nat) (c : Context) : Bool :=
  s.contexts.all fun p => p.1 == ctx || p.2.ring.isEmpty || decide (ctxPrio p.2 ≤ ctxPrio c)

/-- LAUNCH_RECORD_READ: queues 0 to 63 are the host's, 64 is the context's device launch queue. Where a page is away that
Hjelec must read, the read waits for its recall. -/
def execLaunchRecordRead (ctx queue : Nat) (s : State) : Host.Outcome State Fault Refusal :=
  if !takesWork s then .next s
  else match nextRecord s ctx queue with
    | none => .next s
    | some (rec, who, s') =>
      match getCtx? s' ctx with
      | none => .next (badRecord s' queue)
      | some c =>
        if queue = 64 && !ringTurn s ctx c then .next s
        else
          let need := doneNeed s' ctx rec
          match readReason c (checkRecord s' ctx c rec false) need with
          | none => .next s
          | some (reason, k) =>
            let id := c.launchId
            let pin := lrecDonefut rec ≠ 0 && need == .here && reason != 10
            let s := if pin then pinOne s' ctx (lrecDonefut rec) else s'
            let s := modCtx s ctx fun c =>
              { c with launchId := id + 1, launches := mapSet c.launches id.toNat { newLaunch rec k .read queue with pinned := pin } }
            let s := match who with
              | some r => send s (.reply r r.core (.ok (valBytes 8 (id.setWidth 64))))
              | none => s
            .next (if reason = 0 then reserveTasks s ctx id
              else finishLaunch (badRecord s queue) ctx id (statusRefused ||| BitVec.ofNat 32 reason))

/-! ## Clusters of the partition (R250) -/

/-- A map entry of a placed cluster; physical clusters are numbered die * 1024 + py * 32 + px. -/
def placedEntry (phys : Nat) : BitVec 16 := BitVec.ofNat 16 (phys / 1024 * 2 ^ 13 + phys % 1024 * 2 ^ 3 + 1)
def entryPlaced (e : BitVec 16) : Bool := fieldOf e 0 1 = 1

/-- Write an entry of the cluster map: the routers' copy, and the map in memory. -/
def setMapEntry (s : State) (ctx i : Nat) (e : BitVec 16) : State :=
  match getCtx? s ctx with
  | some c => memWrite (setCtx s ctx { c with map := if e = 0 then mapErase c.map i else mapSet c.map i e }) (ctxCmap c + 2 * i) (valBytes 2 e)
  | none => s

/-- Physical clusters that no context holds and that are present, lowest first (R24, R255). -/
def freeClusters (s : State) : List Nat :=
  let held := s.contexts.flatMap fun p => p.2.map.filterMap fun e => if entryPlaced e.2 then some (entryPhys e.2) else none
  (List.range 8192).filter fun k => !(mapGet s.absent (k / 1024) []).contains (k % 1024) && !held.contains k

/-- The virtual indices of a context that are not placed. -/
def unplaced (c : Context) : List Nat :=
  (List.range (ctxGridW c * ctxGridH c)).filter fun i => !entryPlaced (mapGet c.map i 0)

/-- Place virtual clusters on physical ones, in order. -/
def placeClusters (s : State) (ctx : Nat) (c : Context) (idx phys : List Nat) : State :=
  (idx.zip phys).foldl (fun s p => takeRotors (setMapEntry s ctx p.1 (placedEntry p.2)) (gridCluster ctx c p.1)) s

/-- Hjelec places the whole grid before a launch runs; none where too few clusters are free. -/
def placeGrid (s : State) (ctx : Nat) (c : Context) : Option State :=
  let idx := unplaced c
  if idx.isEmpty then some s
  else
    let phys := (freeClusters s).take idx.length
    if phys.length < idx.length then none else some (placeClusters s ctx c idx phys)

/-! ## Placing a launch (R297, R299) -/

/-- The slot of a rank (R297). -/
def rankRef (cores : List Nat) (u r : Nat) : Ref := ⟨cores.getD (r / u) 0, r % u⟩

/-- Bind one rank. -/
def bindRank (ctx : Nat) (id : BitVec 32) (l : Launch) (cores : List Nat) (taskBase : Nat) (s : State) (rank : Nat) : State :=
  let lrec := l.record
  let u := partSlots l.kernel.part
  let n := lrecThreads lrec
  let run := 1 + lrecTasks lrec
  let first := taskBase + rank * run
  let r := rankRef cores u rank
  let chain := lrecChain lrec
  let s := bindSlot s r id (lrecKimg lrec)
    { pc := l.kernel.entry, stamp := wordOf (id.toNat * 2 ^ 32 + rank), part := l.kernel.part, sys := lrecSys lrec, chain := chain
      prio := lrecPrio lrec, rank := BitVec.ofNat 32 rank, task := currentId s ctx first, launch := id
      up := if chain && rank != 0 then some (rankRef cores u (rank - 1)) else none
      down := if chain && decide (rank + 1 < n) then some (rankRef cores u (rank + 1)) else none
      ltag := 0, record := lrec, taskBase := first, taskRun := run, quad := none, openLaunch := 0 }
  ((List.range run).map (· + first)).foldl (fun s i => placeTask s ctx i r) s

/-- Whether a core takes the ranks of a launch from `first` on. -/
def coreTakes (s : State) (id : BitVec 32) (l : Launch) (core first : Nat) : Bool :=
  let c := getCore s core
  let u := partSlots l.kernel.part
  (!coreThreads c || (c.kimg == wordOf (lrecKimg l.record) && c.part == l.kernel.part)) && decide (liveLaunches c < 4) && tagRoom c id && !c.halting
    && (List.range (Nat.min u (lrecThreads l.record - first))).all fun i => (coreSlot c (slotOf i)).phase == .empty

/-- PLACE_LAUNCH: the cores are packed coordinates. The launch waits while an earlier one of its queue waits, while too few
clusters are free, or while a core does not take it. -/
def execPlaceLaunch (ctx launch : Nat) (cores : List Nat) (s : State) : Host.Outcome State Fault Refusal :=
  match getCtx? s ctx with
  | none => .next s
  | some c =>
    match mapGet? c.launches launch with
    | none => .next s
    | some l =>
      let id := BitVec.ofNat 32 launch
      let u := partSlots l.kernel.part
      let n := lrecThreads l.record
      let waits := c.launches.any fun p => decide (p.1 < launch) && p.2.phase == .read && p.2.queue == l.queue
      let fits := cores.length = (n + u - 1) / u && cores.eraseDups.length == cores.length && cores.all (inGrid c)
      if l.phase ≠ .read || (c.phase ≠ .idle && c.phase ≠ .running) || waits || !takesWork s || !fits then .next s
      else
        let k := l.kernel
        let scope := scopeReason s ctx c k
        let reason := if scope = 0 then tableReason s ctx c k else scope
        if reason = 100 then .next s
        else if reason ≠ 0 then .next (finishLaunch (badRecord (releaseTasks s ctx l) l.queue) ctx id (statusRefused ||| BitVec.ofNat 32 reason))
        else
          let s := reserveTasks s ctx id
          match placeGrid s ctx c, (getLaunch? s ctx id).bind (·.taskBase) with
          | some s, some base =>
            let keys := cores.map (coreKey ctx)
            if !(keys.zipIdx.all fun k => coreTakes s id l k.1 (k.2 * u)) then .next s
            else
              let pins := treePages s ctx k.trees
              let s := registerKernel s ctx k
              let s := (List.range n).foldl (bindRank ctx id l keys base) s
              let s := modLaunch s ctx id fun l => { l with phase := .running, treePins := pins }
              .next (modCtx s ctx fun c => { c with phase := .running })
          | _, _ => .next s

/-! ## Dispatch (R300) -/

/-- The default `seg1` (R147). -/
def defaultSeg1 (part : BitVec 32) : SegWord := BitVec.ofNat 128 (scratchSize part * 2 ^ 56 + 15 * 2 ^ 90)

/-- The thread's first state. -/
def dispatchThread (t : Thread) (b : Bind) (c : Context) (l : Launch) (seg2 : SegWord) (slot : Nat) (number : BitVec 32) : Thread :=
  let lrec := b.record
  let frag := b.quad.isSome
  let limit := segLimit seg2
  let own : SegWord := BitVec.ofNat 128 ((segBase seg2 + b.rank.toNat * limit) % 2 ^ 56 + seg2.toNat / 2 ^ 56 * 2 ^ 56)
  let firstTask := if lrecTasks lrec = 0 || frag then 0
    else (taskId (b.taskBase + 1) (mapGet c.taskGens (b.taskBase + 1) 0)).toNat
  let t := putWords t 0 [lrecArg lrec 0, lrecArg lrec 1, wordOf limit, wordOf b.rank.toNat,
    wordOf (if frag then 0 else lrecThreads lrec), lrecArg lrec 2, wordOf firstTask,
    wordOf (if frag then b.openLaunch.toNat else b.launch.toNat)]
  { t with
    phase := .run, pc := evenPc b.pc, number := number, soon := true
    seg := ((t.seg.set 0 (frameSeg l.kernel.localsz (lrecFrame lrec) slot)).set 1 (defaultSeg1 b.part)).set 2 (if seg2 = 0 then 0 else own)
    csr := { t.csr with
      stamp := b.stamp, task := b.task, sys := b.sys, chain := b.chain, tvec := evenPc (ctxTvec c), deadline := wordOf l.kernel.deadline } }

/-- DISPATCH: the first issue of the thread acquires at DEVICE what the launch has released (R300). -/
def execDispatch (core slot : Nat) (s : State) : Host.Outcome State Fault Refusal :=
  let r : Ref := ⟨core, slot % 16⟩
  let ctx := ctxOf core
  match getCtx? s ctx, mapGet? (getCore s core).binds r.slot with
  | some c, some b =>
    match getLaunch? s ctx b.launch with
    | none => .next s
    | some l =>
      if (refThread s r).phase ≠ .bound || c.phase ≠ .running || (getCore s core).halting then .next s
      else match (if (getCore s core).imageDue then loadImage s core b.launch else some s) with
        | none => .next s
        | some s =>
          let number := nextNumber s ctx
          let s := modCtx s ctx fun c => { c with threadNumber := number }
          let seg2 := (launchSeg2 s ctx c l.record).getD 0
          .next (acquireAt (modRef s r fun t => dispatchThread t b c l seg2 r.slot number) core 3)
  | _, _ => .next s

/-! ## The completion tree (R301 to R303) -/

/-- Whether packets hold an `up` of a launch. -/
def launchUps (net : List Packet) (ctx : Nat) (launch : BitVec 32) : Bool :=
  net.any fun p => match p with
    | .up c l _ _ => c == ctx && l == launch
    | _ => false

/-- COUNTER_UP. -/
def execCounterUp (msg : Nat) (s : State) : Host.Outcome State Fault Refusal :=
  onMsg msg s fun p s => match p with
    | .up ctx l _ parent => some (nodeAdd s ctx l parent)
    | _ => none

/-- COUNTER_DONE: a `done` counts only once every `up` of the launch that was sent before it has come in; when the root's counter returns to 0 the
launch is complete. -/
def execCounterDone (msg : Nat) (s : State) : Host.Outcome State Fault Refusal :=
  onMsg msg s fun p s => match p with
    | .done ctx l _ parent word =>
      if launchUps (s.net.take msg) ctx l then none
      else
        let s := nodeSub s ctx l parent word
        match getLaunch? s ctx l with
        | some x =>
          some (if parent = nodeRoot && nodeCount s ctx l nodeRoot == 0 && x.phase == .running then
            finishLaunch s ctx l (mapGet x.words nodeRoot 0) else s)
        | none => some s
    | _ => none

/-! ## The deadline (R304) -/

/-- Whether a launch has overrun: its count exceeds the effective deadline. -/
def overran (c : Context) (p : Nat × Launch) : Bool :=
  (p.2.phase == .running || p.2.phase == .placing) && decide (p.2.kernel.deadline < p.2.ran)
    && (c.frame.phase == .closed || p.1 != c.frame.launch.toNat)

/-- DEADLINE_CHECK. -/
def execDeadlineCheck (ctx : Nat) (s : State) : Host.Outcome State Fault Refusal :=
  match getCtx? s ctx with
  | some c => .next (if c.phase = .running && c.launches.any (overran c) then haltContext s ctx causeDeadlineOverrun else s)
  | none => .next s

end Sys2Proof.Machine
end

