-- ==== Sys2Proof/Machine/LinkUnit.lean ====
section
/-!
DEFINITION. The link unit (R328 to R335): landing windows, counters, armed sends, what a send reads when it fires, and the
total order in which counters change and arms fire.
-/

namespace Sys2Proof.Machine

/-! ## Windows (R330) -/

/-- Unpin pages that were pinned for a window. -/
def unpinAll (s : State) (ctx : Nat) (pages : List Nat) : State := pages.foldl (fun s va => releasePin s ctx va) s

/-- What pinning the pages of a range comes to: their VAs and the pieces of its physical range, or a stop, before which the
pages that are already pinned are unpinned again. -/
def pinRange (s : State) (ctx va n : Nat) (pages : List Nat) (pieces : List (Nat × Nat)) :
    Nat → Except (State × Stop) (State × List Nat × List (Nat × Nat))
  | 0 => .ok (s, pages, pieces)
  | fuel + 1 =>
    if n = 0 then .ok (s, pages, pieces)
    else
      let fail (e : Stop) : Except (State × Stop) (State × List Nat × List (Nat × Nat)) := .error (unpinAll s ctx pages, e)
      let broken := match walk s ctx va with
        | .error (c, _) => if c = causePtBad ∨ c = causePoisoned then some c else none
        | .ok _ => none
      match broken, rawLeaf s ctx va with
      | some c, _ => fail (.trap c (wordOf va))
      | none, none => fail (.trap causeLinkOperand (wordOf va))
      | none, some l =>
        if pteFmt l.fmt ≠ 0 then fail (.trap causeLinkOperand (wordOf va))
        else match pinPage s ctx va with
          | .unmapped => fail (.trap causeLinkOperand (wordOf va))
          | .overflow => fail (.trap causePinOverflow (wordOf va))
          | .away => fail (.park (.recall va))
          | .pinned s' _ =>
            if !isBacked s (leafPa l va) then .error (unpinAll s' ctx (va :: pages), .trap causePaUnbacked (wordOf va))
            else
              let size := if l.large then 2 ^ 28 else 65536
              let here := Nat.min n (size - va % size)
              pinRange s' ctx (va + here) (n - here) (va :: pages) (pieces ++ [(leafPa l va, here)]) fuel

def getPost? (s : State) (ctx w : Nat) : Option Window :=
  match getCtx? s ctx with
  | some c => mapGet? c.windows w
  | none => none

def setPost (s : State) (ctx w : Nat) (x : Option Window) : State :=
  modCtx s ctx fun c => { c with windows := match x with
    | some x => mapSet c.windows w x
    | none => mapErase c.windows w }

/-- Write payload bytes at an offset of a window's physical range. -/
def windowWrite (s : State) (off : Nat) (bs : List Byte) : List (Nat × Nat) → State
  | [] => s
  | (pa, n) :: rest =>
    if off ≥ n then windowWrite s (off - n) bs rest
    else
      let here := bs.take (n - off)
      let s := softWrite s (pa + off) here
      windowWrite s 0 (bs.drop (n - off)) rest

/-! ## Arms and counters (R331, R328) -/

def armFree : Nat := 0
def armArmed : Nat := 1
def armSending : Nat := 2
def armFailed : Nat := 3

def getArm? (s : State) (ctx i : Nat) : Option Arm :=
  match getCtx? s ctx with
  | some c => mapGet? c.arms i
  | none => none

def setArm (s : State) (ctx i : Nat) (a : Option Arm) : State :=
  modCtx s ctx fun c => { c with arms := match a with
    | some a => mapSet c.arms i a
    | none => mapErase c.arms i }

def counterOf (s : State) (ctx c : Nat) : Word :=
  match getCtx? s ctx with
  | some x => mapGet x.counters c 0
  | none => 0

/-- What a send finds at its source: bytes, a failure (R332), or a page that is away or not mapped yet, for which it waits (R269). -/
inductive SendRead where
  | bytes (bs : List Byte)
  | failed
  | away (va : Nat) (cause found : BitVec 8)

/-- A core's state, from the image of its cluster where that is saved (R254). -/
def coreAnywhere (s : State) (core : Nat) : Core :=
  match getCtx? s (ctxOf core) with
  | some c =>
    if corePlaced s core then getCore s core
    else ((c.images.flatMap fun p => p.2.cores).find? fun p => p.1 == core).map (·.2) |>.getD (getCore s core)
  | none => getCore s core

/-- Bytes of a send's source within one 64-byte line. -/
def sendPiece (s : State) (a : Arm) (at_ n : Nat) : SendRead :=
  if segKind a.src.seg = kindGlobal then
    match walk s (ctxOf a.ctxCore) at_ with
    | .error (c, found) => if c = causePtBad ∨ c = causePoisoned then .failed else .away at_ c found
    | .ok l =>
      let pa := leafPa l at_
      if leafAllows l.base accCopyRead a.sys && isBacked s pa && !memPoisoned s pa n then .bytes (memBytes s pa n) else .failed
  else
    let c := coreAnywhere s a.ctxCore
    if poolPoisoned c at_ n then .failed else .bytes (poolBytes c at_ n)

/-- Read `n` bytes of a send's source. -/
def sendBytes (s : State) (a : Arm) (at_ n : Nat) : Nat → SendRead
  | 0 => .bytes []
  | fuel + 1 =>
    if n = 0 then .bytes []
    else
      let k := Nat.min n (64 - at_ % 64)
      match sendPiece s a at_ k with
      | .bytes bs => match sendBytes s a (at_ + k) (n - k) fuel with
        | .bytes rest => .bytes (bs ++ rest)
        | e => e
      | e => e

/-- Cut a source at every 4,096-byte step of its offset (R331): the packets by number, each with its offset in the window. -/
def sendPackets (off doff : Nat) (bs : List Byte) (i : Nat) : Nat → SMap (Nat × List Byte × Nat × Option Nat)
  | 0 => []
  | fuel + 1 =>
    if bs.isEmpty then []
    else
      let k := 4096 - off % 4096
      (i, (doff, bs.take k, 512, none)) :: sendPackets (off + k) (doff + k) (bs.drop k) (i + 1) fuel

/-- The peer link over which packets to a device leave, if there is a route (R326). -/
def linkTo (s : State) (dev : Nat) : Option Nat := mapGet? s.routes dev

/-- An arm that fires reads its source, and its packets leave (R331), or have no route, which fails it (R332); while a page of the source
is away the send is held, its fault recorded against the slot that armed it (log 54). -/
def fireArm (s : State) (ctx i : Nat) : State :=
  match getArm? s ctx i with
  | none => s
  | some a =>
    match sendBytes s a (segBase a.src.seg + a.src.off) a.len (a.len / 64 + 2) with
    | .failed => setArm s ctx i (some { a with state := armFailed, reason := 3, held := false })
    | .away va c found =>
      recordFault (setArm s ctx i (some { a with state := armSending, held := true })) a.ctxCore a.slot va accCopyRead c found
    | .bytes bs =>
      if (linkTo s a.dev).isNone then setArm s ctx i (some { a with state := armFailed, reason := 2, held := false })
      else setArm s ctx i (some { a with state := armSending, held := false, packets := sendPackets a.src.off a.doff bs 0 (a.len / 4096 + 2) })

/-- The sends that are held look at their sources again. -/
def retrySends (s : State) (ctx : Nat) : State :=
  match getCtx? s ctx with
  | none => s
  | some c => c.arms.foldl (fun s p => if p.2.held then fireArm s ctx p.1 else s) s

/-- Fire every arm that is eligible, in ascending index (R331). -/
def fireArms (s : State) (ctx : Nat) : State :=
  match getCtx? s ctx with
  | none => s
  | some c => c.arms.foldl (fun s p =>
      if p.2.state = armArmed && !(counterOf s ctx p.2.tctr).ult p.2.thresh then fireArm s ctx p.1 else s) s

/-- Add to a counter, and let arms fire (R328, R331). -/
def counterAdd (s : State) (ctx c : Nat) (v : Word) : State :=
  fireArms (modCtx s ctx fun x => { x with counters := mapSet x.counters c (mapGet x.counters c 0 + v) }) ctx

/-- The state word of an arm entry (R333). -/
def armWord (a : Arm) : Word := wordOf (a.state + a.reason * 16 + a.accepted % 2 ^ 32 * 2 ^ 32)

end Sys2Proof.Machine
end

