-- ==== Sys2Proof/Machine/ContextUnit.lean ====
section
/-!
DEFINITION. What pre-emption, saving, restoring and destroying do to a context's cores and clusters (R253 to R256, R418).
-/

namespace Sys2Proof.Machine

/-! ## Halting (R418) -/

/-- Packets that wait in a halted context: migrating threads, the replies of halted threads, and what the built-in logic of a message
slot has still to send behind a request in its target's queues; they are part of the saved state (R253). Every other has been performed or stands in its target's queue before HALTING ends (log 76). -/
def packetHeld (s : State) : Packet → Bool
  | .reply r _ _ => replyHeld s r
  | .answer r _ g _ _ => g == 7 && replyHeld s r
  | .migrant _ _ => true
  | .resend d m _ => heldAt s d m.src
  | _ => false

/-- A matrix command stops at its checkpoint: its offer and its leave are withdrawn (R202, R422). -/
def checkpointMat (q : MatCmd) : MatCmd := { q with leave := .none, offered := false, ready := false }

/-- A copy command stops at a chunk boundary; a page fault it is held on is cancelled, and source bytes at hand or on their way are
discarded (R216, R253). -/
def checkpointCopy (q : CopyCmd) : CopyCmd := { q with leave := .none, held := none, fetch := none }

/-- The halt signal reaches a core: its engines complete or checkpoint (R418 step 4), and its grants are returned. -/
def haltEngines (s : State) (core : Nat) : State :=
  let s := modCluster s (clusterOf core) fun c =>
    { c with leaveAsked := c.leaveAsked.filter (·.core != core), leaveHeld := c.leaveHeld.filter (·.core != core) }
  modCore s core fun c =>
    { c with
      halting := true, cb4Leave := false
      slots := c.slots.map fun t => { t with matq := t.matq.map checkpointMat, copyq := t.copyq.map checkpointCopy } }

/-- A user thread goes to HALTED (R96); the wait for a page or a future is cancelled, and the access reissues (R253, R322). -/
def haltThread (t : Thread) : Thread :=
  match t.phase with
  | .run => { t with phase := .halted, haltedFrom := some .run }
  | .trapped => { t with phase := .halted, haltedFrom := some .trapped }
  | .parked =>
    let t := match t.wait with
      | .page _ _ => { t with wait := .retry }
      | .future => { unpop t with wait := .retry }
      | _ => t
    { t with phase := .halted, haltedFrom := some .parked }
  | _ => t

/-- At the start of a rotation the user threads of a core that the signal has reached go to HALTED (R418 step 2). -/
def haltThreads (s : State) (core : Nat) : State :=
  let s := { s with waits := s.waits.map fun p => (p.1, p.2.filter fun w => w.who.core != core) }
  modCore s core fun c => { c with slots := Vector.ofFn fun i : Fin 16 => if i.val = 15 then c.slots.get i else haltThread (c.slots.get i) }

/-- Whether a core has halted. -/
def coreHalted (c : Core) : Bool :=
  c.halting && (coreSlot c 15).phase != .handling
    && (userSlots c).all fun p => p.2.phase != .run && p.2.phase != .trapped && p.2.phase != .parked

/-- A thread returns to its remembered state, with its event flag set (R96, R121). -/
def resumeThread (t : Thread) : Thread :=
  match t.phase, t.haltedFrom with
  | .halted, some p => { t with phase := p, haltedFrom := none, event := true }
  | _, _ => t

/-- A context resumes. -/
def resumeContext (s : State) (ctx : Nat) : State :=
  let s := { s with
    cores := s.cores.map fun p =>
      if ctxOf p.1 = ctx then (p.1, { p.2 with halting := false, slots := p.2.slots.map resumeThread }) else p }
  modCtx (writeReplies s ctx) ctx fun c =>
    let live := launchesLeft c (2 ^ 32)
    { c with phase := if live || launchQueued s ctx c then .running else .idle, resize := none, stay := false, reason := none, haltVal := 0 }

/-! ## Cluster images (R254, R255) -/

/-- The tasks of a slot are SWAPPED: the messages of its mailbox go to the front of the memory mailboxes (R286). The image keeps
their order among the slot's tasks (R255). -/
def swapTasks (s : State) (r : Ref) : State :=
  let t := refThread s r
  let ctx := ctxOf r.core
  let s := (taskIndices t).foldl (fun s i =>
    match getTask? s ctx i with
    | some e =>
      let mine := t.mailbox.filter fun m => taskIndex m.task == i
      if e.phase = .placed ∧ e.place = r then setTask s ctx i { mboxFront s ctx mine e with phase := .swapped } else s
    | none => s) s
  modRef s r fun t => { t with refusal := [], overflowed := false }

/-- The tasks of a restored slot are PLACED: its mailbox takes again what it held, and then the rest of the memory mailboxes is
forwarded (R255, R286). -/
def unswapTasks (s : State) (r : Ref) : State :=
  let t := refThread s r
  let ctx := ctxOf r.core
  let is := (taskIndices t).filter fun i => match getTask? s ctx i with
    | some e => e.phase == .swapped && e.place == r
    | none => false
  let s := is.foldl (fun s i =>
    match getTask? s ctx i with
    | some e => setTask s ctx i (mboxAdvance s ctx (t.mailbox.filter fun m => taskIndex m.task == i).length e)
    | none => s) s
  is.foldl (fun s i => placeTask s ctx i r) s

/-- The second-level TLBs hold nothing of a context whose clusters leave or return (R254). -/
def dropSecond (s : State) (ctx : Nat) : State :=
  { s with dies := s.dies.map fun p => (p.1, { p.2 with
      tlb := p.2.tlb.filter fun q => (if q.1 % 2 = 1 then q.1 / 2 / 2 ^ 28 else q.1 / 2 / 2 ^ 40) != ctx }) }

/-- Images of virtual clusters are written into the save area (R254): the arrangement of their bytes is Hjelec's, and what they hold
stands in `Context.images`, or in the cores of a context that is dumped (log 114). -/
def writeImages (s : State) (ctx : Nat) (is : List Nat) : State :=
  modCtx s ctx fun c => { c with saved := is.foldl setAdd c.saved }

/-- Save a virtual cluster: its image is written and its map entry cleared. -/
def saveCluster (s : State) (ctx i : Nat) : State :=
  match getCtx? s ctx with
  | none => s
  | some c =>
    let k := gridCluster ctx c i
    let ours := (s.cores.filter fun p => clusterOf p.1 == k).map (·.1)
    let s := leaveCores s ours
    let s := ours.foldl (fun s core => (List.range 15).foldl (fun s j => swapTasks s ⟨core, j⟩) s) s
    let image : Image :=
      { cores := s.cores.filter fun p => clusterOf p.1 == k, cluster := { getCluster s k with cache := [], tlb := [] } }
    let s := { s with cores := s.cores.filter fun p => clusterOf p.1 != k, clusters := mapErase s.clusters k }
    let s := writeImages (dropSecond s ctx) ctx [i]
    setMapEntry (modCtx s ctx fun c => { c with images := mapSet c.images i image }) ctx i 0

/-- Restore a virtual cluster into a physical one. -/
def restoreCluster (s : State) (ctx i phys : Nat) : State :=
  match getCtx? s ctx with
  | none => s
  | some c =>
    let k := gridCluster ctx c i
    let s := match mapGet? c.images i with
      | some image =>
        let s := image.cores.foldl (fun s p => setCore s p.1 { p.2 with donated := none, matServed := none, copyServed := none }) s
        setCluster s k image.cluster
      | none => s
    let s := setMapEntry (modCtx s ctx fun c => { c with images := mapErase c.images i }) ctx i (placedEntry phys)
    let s := joinGeometry s ctx (phys / 1024)
    let s := { s with rotors := s.rotors.filter fun p => p.1 / 16 != phys }
    ((s.cores.filter fun p => clusterOf p.1 == k).map (·.1)).foldl (fun s core =>
      (List.range 15).foldl (fun s j => unswapTasks s ⟨core, j⟩) s) s

/-- The virtual indices of a context that are placed. -/
def placedIndices (c : Context) : List Nat :=
  (List.range (ctxGridW c * ctxGridH c)).filter fun i => entryPlaced (mapGet c.map i 0)

/-- Every placed cluster is saved, and the context is SAVED. -/
def saveAll (s : State) (ctx : Nat) (c : Context) : State :=
  let s := (placedIndices c).foldl (fun s i => saveCluster s ctx i) s
  modCtx s ctx fun c => { c with phase := .saved, resize := none, stay := false }

/-- The clusters that a resize removes are saved, placed on free ones and restored, or all are saved where too few are free; then
the context resumes where the resize alone had halted it (R255). -/
def resizeNow (s : State) (ctx : Nat) (c : Context) (removed : List Nat) : State :=
  let idx := (placedIndices c).filter removed.contains
  let phys := (freeClusters s).take idx.length
  if phys.length < idx.length then saveAll s ctx c
  else
    let s := idx.foldl (fun s i => saveCluster s ctx i) s
    let s := (idx.zip phys).foldl (fun s p => restoreCluster s ctx p.1 p.2) s
    if c.resize.isSome && !c.stay then resumeContext s ctx else modCtx s ctx fun c => { c with resize := none, stay := false }

/-! ## Events that wait (R252) -/

/-- What an event does where the state lists it; none where it waits. -/
def performEvent (s : State) (ctx : Nat) (c : Context) : CtxEvent → Option State
  | .preempt =>
    if c.phase = .running then some (setCtx s ctx { c with phase := .halting })
    else if c.resize.isSome && (c.phase = .halting || c.phase = .halted) then some (setCtx s ctx { c with stay := true })
    else none
  | .resume => if c.phase = .halted && !c.mustDump then some (resumeContext s ctx) else none
  | .save => if c.phase = .halted && !c.mustDump then some (saveAll s ctx c) else none
  | .resize removed =>
    if c.phase = .running then some (setCtx s ctx { c with phase := .halting, resize := some removed })
    else if c.phase = .halted && !c.mustDump then some (resizeNow s ctx c removed)
    else none
  | .halt reason val => if c.phase = .running then some (haltWith s ctx reason val) else none

/-- An event comes: it acts, or waits behind those that wait already (R252). -/
def raiseEvent (s : State) (ctx : Nat) (e : CtxEvent) : State :=
  match getCtx? s ctx with
  | none => s
  | some c => match performEvent s ctx c e with
    | some s => s
    | none => setCtx s ctx { c with waiting := c.waiting ++ [e] }

/-- The first waiting event that the state now lists acts; and a context with nothing live and nothing queued is IDLE. -/
def settleEvents (s : State) (ctx : Nat) : State :=
  match getCtx? s ctx with
  | none => s
  | some c =>
    match c.waiting.find? fun e => (performEvent s ctx c e).isSome with
    | none => settleIdle s ctx
    | some e =>
      let c := { c with waiting := c.waiting.erase e }
      (performEvent (setCtx s ctx c) ctx c e).getD s

/-! ## Destruction (R256) -/

/-- The PAs of the entries of a table that are not all zero. -/
def usedEntries (s : State) (table n : Nat) : List Nat :=
  ((s.mem.filter fun p => decide (table ≤ p.1) && decide (p.1 < table + 16 * n)).map fun p => (p.1 - table) / 16 * 16 + table).eraseDups

/-- The PAs of the leaves of a page table. -/
def leafEntries (s : State) (table : Nat) : List (Nat × Nat × Nat) → List Nat
  | [] => []
  | (_, _, n) :: more => (usedEntries s table (2 ^ n)).flatMap fun pa =>
      let e : Word := wordOf (memNat s pa 8)
      if pteLeaf e then [pa] else if pteState e = stResident then leafEntries s (pteFrame e) more else []

/-- The pages of a context are released: every leaf is UNMAPPED, without pins (R256, R268). -/
def releasePages (s : State) (c : Context) : State :=
  (leafEntries s (ctxRoot c) walkLevels).foldl (fun s pa => memWrite s pa (List.replicate 16 0)) s

/-- The tentative entries of its open windows are discarded (R381). -/
def clearTents (s : State) (ctx : Nat) (c : Context) : State :=
  c.spec.foldl (fun s p => match herePa s ctx p.1 with
    | some d => memWrite s (d + 96) (List.replicate 128 0)
    | none => s) s

/-- Everything of a context is discarded: cores with their slots and queues, clusters with their Hampers and Fullers, messages
in flight, waiters, fault records and translations. Its pages are released with all their pins (log 115); the generations of
its task entries stay (R256). -/
def destroyContext (s : State) (ctx : Nat) (c : Context) : State :=
  let s := releasePages (clearTents (leaveCores s ((s.cores.filter fun p => ctxOf p.1 == ctx).map (·.1))) ctx c) c
  let s := c.parties.foldl (fun s p => partyStore s ctx p.1 p.2 ⟨0, 0, []⟩) (dropContext s ctx)
  let s := { s with
    oldGens := if c.taskGens.isEmpty then s.oldGens
      else mapSet s.oldGens ctx (c.taskGens.foldl (fun m g => mapSet m g.1 g.2) (mapGet s.oldGens ctx []))
    cores := s.cores.filter fun p => ctxOf p.1 != ctx
    clusters := s.clusters.filter fun p => ctxOf (firstCore p.1) != ctx
    net := s.net.filter fun p => packetCtx p != ctx
    waits := s.waits.map fun p => (p.1, p.2.filter fun w => ctxOf w.who.core != ctx)
    dies := s.dies.map fun p => (p.1, { p.2 with
      faults := p.2.faults.filter (·.ctx != ctx), pendingSet := p.2.pendingSet.filter (·.1 != ctx), dropped := setDel p.2.dropped ctx })
    contexts := mapErase s.contexts ctx }
  (List.range 8).foldl settleCapacity s

/-! ## Creation (R249, R252) -/

/-- Why a context record is refused (R325): 1 reserved bits, 2 a field out of limits, 3 a table address unbacked; 0 for a
valid one. STATE is the device's own field. -/
def recordReason (s : State) (r : BitVec 1024) : Nat :=
  let f (lo n : Nat) : Nat := recField r lo n
  let inside (pa n : Nat) : Bool := isBacked s pa && isBacked s (pa + n - 1)
  if f 896 128 ≠ 0 ∨ f 752 16 ≠ 0 ∨ f 544 32 ≠ 0 ∨ f 177 15 ≠ 0 then 1
  else if f 832 64 % 65536 ≠ 0 ∨ f 736 16 < 16 ∨ f 736 16 > 4096 ∨ f 720 16 = 0 ∨ f 720 16 > 256 ∨ f 704 16 = 0 ∨ f 704 16 > 256
      ∨ f 640 64 % 65536 ≠ 0 ∨ f 576 64 % 65536 ≠ 0 ∨ f 448 64 % 65536 ≠ 0 ∨ f 320 1 ≠ 0 ∨ f 160 8 > 3 ∨ f 144 16 = 0
      ∨ f 128 16 = 0 ∨ f 128 16 > 4096 ∨ f 64 64 % 32 ≠ 0 ∨ f 0 64 % 65536 ≠ 0 then 2
  else if !(inside (f 0 64) 65536 && inside (f 64 64) (32 * f 128 16) && inside (f 192 64) 256 && inside (f 256 64) 8192
      && inside (f 768 64) (2 * f 704 16 * f 720 16)) then 3
  else 0

/-- A context right after creation. -/
def newContext (r : BitVec 1024) : Context :=
  { record := r, phase := .idle, reason := none, haltVal := 0, mustDump := false, resize := none, stay := false, waiting := []
    saved := [], walked := [], map := [], scopes := [], launchId := 0, launches := [], ring := [], threadNumber := 0, tasks := [], taskGens := [], parties := [], regions := [], rootStamps := []
    windows := [], counters := [], arms := [], armGens := []
    trail := { mode := 0, full := false, pages := 0, index := [], consumed := [], positions := [], exhausted := false }
    frame := emptyFrame, spec := [], sequences := [], prefixWaits := [], images := [], away := [], evicting := [] }

/-- What Hjelec does for a new context: the map cleared, the codebooks zeroed, the pages of the Trail and of the revision
pool pinned (R267), the Trail's MODE read (R357), and its entries indexed for a replay (R361). -/
def createContext (s : State) (ctx : Nat) (r : BitVec 1024) : State :=
  let c := newContext r
  let s := setCtx s ctx c
  let s := memWrite s (ctxCmap c) (List.replicate (2 * ctxGridW c * ctxGridH c) 0)
  let s := clearLine (memWrite s (ctxCbtab c) (List.replicate 8192 0)) (ctxCbtab c) 8192
  let pages (va n : Nat) : List Nat := (List.range n).map fun i => va + 65536 * i
  let pins := pages (ctxTrailbase c) (ctxTrailpages c) ++ pages (ctxRevpool c) (ctxRevsize c / 65536)
  let s := pins.foldl (fun s va => pinOne s ctx va) s
  let mode : Nat := if ctxTrailpages c = 0 then 0 else match trailPa s ctx 0 with
    | some pa => memNat s pa 1
    | none => 0
  let index := if mode = 2 then (List.range (trailEntries s ctx)).map (trailEntry s ctx) else []
  modTrail s ctx fun t => { t with mode := if mode ≤ 2 then mode else 0, pages := ctxTrailpages c, index := index }

end Sys2Proof.Machine
end

