-- ==== Sys2Proof/Machine/ControlFamily.lean ====
section
/-!
DEFINITION. Compares, guards and SEL (R112 to R114), branches and jumps (R115 to R118).
-/

namespace Sys2Proof.Machine

/-! ## Operations -/

/-- The guard that a compare parks on: its destination, where it combines (R108, R112). -/
def combineGuard (g : BitVec 3) (k : BitVec 2) : List (BitVec 3) := if k = 0 then [] else [g]

/-- Write a compare's mask into its guard. -/
def putCompare (t : Thread) (g : BitVec 3) (k : BitVec 2) (holds : Bool) : Thread :=
  setG t g (combineMask k (getG t g).mask (boolMask holds))

/-- A compare of two registers by an integer condition. -/
def compareRegs (fn : Nat) (g : BitVec 3) (k : BitVec 2) (a b : BitVec 5) (s : State) : Host.Outcome State Fault Refusal :=
  runT 4 { xr := [a, b], gs := g :: combineGuard g k } s fun t => .ok (putCompare t g k (intCond fn (getX t a) (getX t b))) 0

/-- A compare of a register with a signed immediate. -/
def compareImm (fn : Nat) (g : BitVec 3) (k : BitVec 2) (a : BitVec 5) (i : BitVec 12) (s : State) : Host.Outcome State Fault Refusal :=
  runT 4 { xr := [a], gs := g :: combineGuard g k } s fun t => .ok (putCompare t g k (intCond fn (getX t a) (immWord i))) 0

/-- A compare of two floating values. -/
def compareFloats (F : Fmt) (fn : Nat) (g : BitVec 3) (k : BitVec 2) (a b : BitVec 5) (s : State) : Host.Outcome State Fault Refusal :=
  runT 4 { xr := [a, b], gs := g :: combineGuard g k, f64 := F == .fp64 } s fun t =>
    let p := floatCond F fn (floatIn F (getX t a)) (floatIn F (getX t b))
    .ok (putCompare t g k p.1) p.2

/-- A mask operation on two guards (R114). -/
def guardOp (d a b : BitVec 3) (f : BitVec 8 → BitVec 8 → BitVec 8) (s : State) : Host.Outcome State Fault Refusal :=
  runT 4 { gs := [d, a, b] } s fun t => .ok (setG t d (f (getG t a).mask (getG t b).mask)) 0

/-- BC: compare and branch (R115). -/
def branchOn (fn : Nat) (a b : BitVec 5) (o : BitVec 12) (s : State) : Host.Outcome State Fault Refusal :=
  runT 4 { xr := [a, b] } s fun t =>
    if intCond fn (getX t a) (getX t b) then .goto t (pcTarget t o) else .ok t 0

/-- A branch through a tb register when a guard's bit 0 has a value (R118). -/
def branchThrough (len : Nat) (tb : BitVec 2) (g : BitVec 3) (when_ : Bool) (s : State) : Host.Outcome State Fault Refusal :=
  runT len { gs := [g] } s fun t =>
    if (getG t g).mask.getLsbD 0 = when_ then .goto t (getTb t tb) else .ok t 0

/-! ## CMP and CMPI (R112, R113) -/

/-- CMP.EQ. -/
def execCmpEq (g : BitVec 3) (k : BitVec 2) (a b : BitVec 5) (s : State) : Host.Outcome State Fault Refusal :=
  compareRegs 0 g k a b s

/-- CMP.NE. -/
def execCmpNe (g : BitVec 3) (k : BitVec 2) (a b : BitVec 5) (s : State) : Host.Outcome State Fault Refusal :=
  compareRegs 1 g k a b s

/-- CMP.LT. -/
def execCmpLt (g : BitVec 3) (k : BitVec 2) (a b : BitVec 5) (s : State) : Host.Outcome State Fault Refusal :=
  compareRegs 2 g k a b s

/-- CMP.GE. -/
def execCmpGe (g : BitVec 3) (k : BitVec 2) (a b : BitVec 5) (s : State) : Host.Outcome State Fault Refusal :=
  compareRegs 3 g k a b s

/-- CMP.LTU. -/
def execCmpLtu (g : BitVec 3) (k : BitVec 2) (a b : BitVec 5) (s : State) : Host.Outcome State Fault Refusal :=
  compareRegs 4 g k a b s

/-- CMP.GEU. -/
def execCmpGeu (g : BitVec 3) (k : BitVec 2) (a b : BitVec 5) (s : State) : Host.Outcome State Fault Refusal :=
  compareRegs 5 g k a b s

/-- CMP.TST. -/
def execCmpTst (g : BitVec 3) (k : BitVec 2) (a b : BitVec 5) (s : State) : Host.Outcome State Fault Refusal :=
  compareRegs 6 g k a b s

/-- CMP.TSTZ. -/
def execCmpTstz (g : BitVec 3) (k : BitVec 2) (a b : BitVec 5) (s : State) : Host.Outcome State Fault Refusal :=
  compareRegs 7 g k a b s

/-- CMP.FEQ.S. -/
def execCmpFeqS (g : BitVec 3) (k : BitVec 2) (a b : BitVec 5) (s : State) : Host.Outcome State Fault Refusal :=
  compareFloats .fp32 0 g k a b s

/-- CMP.FLT.S. -/
def execCmpFltS (g : BitVec 3) (k : BitVec 2) (a b : BitVec 5) (s : State) : Host.Outcome State Fault Refusal :=
  compareFloats .fp32 1 g k a b s

/-- CMP.FLE.S. -/
def execCmpFleS (g : BitVec 3) (k : BitVec 2) (a b : BitVec 5) (s : State) : Host.Outcome State Fault Refusal :=
  compareFloats .fp32 2 g k a b s

/-- CMP.FUN.S. -/
def execCmpFunS (g : BitVec 3) (k : BitVec 2) (a b : BitVec 5) (s : State) : Host.Outcome State Fault Refusal :=
  compareFloats .fp32 3 g k a b s

/-- CMP.FEQ.D. -/
def execCmpFeqD (g : BitVec 3) (k : BitVec 2) (a b : BitVec 5) (s : State) : Host.Outcome State Fault Refusal :=
  compareFloats .fp64 0 g k a b s

/-- CMP.FLT.D. -/
def execCmpFltD (g : BitVec 3) (k : BitVec 2) (a b : BitVec 5) (s : State) : Host.Outcome State Fault Refusal :=
  compareFloats .fp64 1 g k a b s

/-- CMP.FLE.D. -/
def execCmpFleD (g : BitVec 3) (k : BitVec 2) (a b : BitVec 5) (s : State) : Host.Outcome State Fault Refusal :=
  compareFloats .fp64 2 g k a b s

/-- CMP.FUN.D. -/
def execCmpFunD (g : BitVec 3) (k : BitVec 2) (a b : BitVec 5) (s : State) : Host.Outcome State Fault Refusal :=
  compareFloats .fp64 3 g k a b s

/-- CMPI.EQ. -/
def execCmpiEq (g : BitVec 3) (k : BitVec 2) (a : BitVec 5) (i : BitVec 12) (s : State) : Host.Outcome State Fault Refusal :=
  compareImm 0 g k a i s

/-- CMPI.NE. -/
def execCmpiNe (g : BitVec 3) (k : BitVec 2) (a : BitVec 5) (i : BitVec 12) (s : State) : Host.Outcome State Fault Refusal :=
  compareImm 1 g k a i s

/-- CMPI.LT. -/
def execCmpiLt (g : BitVec 3) (k : BitVec 2) (a : BitVec 5) (i : BitVec 12) (s : State) : Host.Outcome State Fault Refusal :=
  compareImm 2 g k a i s

/-- CMPI.GE. -/
def execCmpiGe (g : BitVec 3) (k : BitVec 2) (a : BitVec 5) (i : BitVec 12) (s : State) : Host.Outcome State Fault Refusal :=
  compareImm 3 g k a i s

/-- CMPI.LTU. -/
def execCmpiLtu (g : BitVec 3) (k : BitVec 2) (a : BitVec 5) (i : BitVec 12) (s : State) : Host.Outcome State Fault Refusal :=
  compareImm 4 g k a i s

/-- CMPI.GEU. -/
def execCmpiGeu (g : BitVec 3) (k : BitVec 2) (a : BitVec 5) (i : BitVec 12) (s : State) : Host.Outcome State Fault Refusal :=
  compareImm 5 g k a i s

/-- CMPI.TST. -/
def execCmpiTst (g : BitVec 3) (k : BitVec 2) (a : BitVec 5) (i : BitVec 12) (s : State) : Host.Outcome State Fault Refusal :=
  compareImm 6 g k a i s

/-- CMPI.TSTZ. -/
def execCmpiTstz (g : BitVec 3) (k : BitVec 2) (a : BitVec 5) (i : BitVec 12) (s : State) : Host.Outcome State Fault Refusal :=
  compareImm 7 g k a i s

/-! ## Guards and SEL (R114) -/

/-- GAND. -/
def execGand (d a b : BitVec 3) (s : State) : Host.Outcome State Fault Refusal :=
  guardOp d a b (fun x y => x &&& y) s

/-- GOR. -/
def execGor (d a b : BitVec 3) (s : State) : Host.Outcome State Fault Refusal :=
  guardOp d a b (fun x y => x ||| y) s

/-- GXOR. -/
def execGxor (d a b : BitVec 3) (s : State) : Host.Outcome State Fault Refusal :=
  guardOp d a b (fun x y => x ^^^ y) s

/-- GANDN. -/
def execGandn (d a b : BitVec 3) (s : State) : Host.Outcome State Fault Refusal :=
  guardOp d a b (fun x y => x &&& ~~~y) s

/-- GNOT. -/
def execGnot (d a : BitVec 3) (s : State) : Host.Outcome State Fault Refusal :=
  guardOp d a a (fun x _ => ~~~x) s

/-- GSET. -/
def execGset (d : BitVec 3) (a : BitVec 5) (s : State) : Host.Outcome State Fault Refusal :=
  runT 4 { xr := [a], gs := [d] } s fun t => .ok (setG t d ((getX t a).setWidth 8)) 0

/-- GGET never parks. -/
def execGget (d : BitVec 5) (a : BitVec 3) (s : State) : Host.Outcome State Fault Refusal :=
  runT 4 { xr := [], xw := some d } s fun t =>
    .ok (setX t d (if (getG t a).pending then 0x100 else (getG t a).mask.setWidth 64)) 0

/-- GWAIT parks until the guard is RESOLVED. -/
def execGwait (a : BitVec 3) (s : State) : Host.Outcome State Fault Refusal :=
  runT 4 { gs := [a] } s fun t => .ok t 0

/-- SEL. -/
def execSel (d a b : BitVec 5) (g : BitVec 3) (s : State) : Host.Outcome State Fault Refusal :=
  runT 4 { xr := [a, b], xw := some d, gs := [g] } s fun t =>
    .ok (setX t d (if (getG t g).mask.getLsbD 0 then getX t a else getX t b)) 0

/-! ## Branches and jumps (R115 to R118) -/

/-- BC.EQ. -/
def execBcEq (a b : BitVec 5) (o : BitVec 12) (s : State) : Host.Outcome State Fault Refusal :=
  branchOn 0 a b o s

/-- BC.NE. -/
def execBcNe (a b : BitVec 5) (o : BitVec 12) (s : State) : Host.Outcome State Fault Refusal :=
  branchOn 1 a b o s

/-- BC.LT. -/
def execBcLt (a b : BitVec 5) (o : BitVec 12) (s : State) : Host.Outcome State Fault Refusal :=
  branchOn 2 a b o s

/-- BC.GE. -/
def execBcGe (a b : BitVec 5) (o : BitVec 12) (s : State) : Host.Outcome State Fault Refusal :=
  branchOn 3 a b o s

/-- BC.LTU. -/
def execBcLtu (a b : BitVec 5) (o : BitVec 12) (s : State) : Host.Outcome State Fault Refusal :=
  branchOn 4 a b o s

/-- BC.GEU. -/
def execBcGeu (a b : BitVec 5) (o : BitVec 12) (s : State) : Host.Outcome State Fault Refusal :=
  branchOn 5 a b o s

/-- JAL. -/
def execJal (d : BitVec 5) (o : BitVec 20) (s : State) : Host.Outcome State Fault Refusal :=
  runT 4 { xw := some d } s fun t => .goto (setX t d (t.pc + 4)) (evenPc (pcTarget t o))

/-- JALR: the target is formed before x[d] is written. -/
def execJalr (d a : BitVec 5) (i : BitVec 15) (s : State) : Host.Outcome State Fault Refusal :=
  runT 4 { xr := [a], xw := some d } s fun t =>
    .goto (setX t d (t.pc + 4)) (evenPc (getX t a + immWord i))

/-- PTB. -/
def execPtb (t : BitVec 2) (o : BitVec 20) (s : State) : Host.Outcome State Fault Refusal :=
  runT 4 {} s fun th => .ok (setTb th t (evenPc (pcTarget th o))) 0

/-- BT. -/
def execBt (t : BitVec 2) (g : BitVec 3) (s : State) : Host.Outcome State Fault Refusal :=
  branchThrough 4 t g true s

/-- BTN. -/
def execBtn (t : BitVec 2) (g : BitVec 3) (s : State) : Host.Outcome State Fault Refusal :=
  branchThrough 4 t g false s

/-- BTA. -/
def execBta (t : BitVec 2) (s : State) : Host.Outcome State Fault Refusal :=
  runT 4 {} s fun th => .goto th (getTb th t)

/-- PTBR. -/
def execPtbr (t : BitVec 2) (a : BitVec 5) (s : State) : Host.Outcome State Fault Refusal :=
  runT 4 { xr := [a] } s fun th => .ok (setTb th t (evenPc (getX th a))) 0

/-- CALLT. -/
def execCallt (d : BitVec 5) (t : BitVec 2) (s : State) : Host.Outcome State Fault Refusal :=
  runT 4 { xw := some d } s fun th => .goto (setX th d (th.pc + 4)) (getTb th t)

end Sys2Proof.Machine
end

