-- ==== Sys2Proof/Machine/IntFamily.lean ====
section
/-!
DEFINITION. The integer families: INT (R130 to R132), MUL (R133, R134), the immediate forms (R135 to R138).
-/

namespace Sys2Proof.Machine

/-! ## Results (R131 to R137) -/

def shiftAmount (b : Word) : Nat := b.toNat % 64
def shiftAmountW (b : Word) : Nat := b.toNat % 32
/-- A 32-bit result extended by sign. -/
def narrow (v : Word) : Word := sextW v 32
def low32 (v : Word) : BitVec 32 := v.setWidth 32
def minSigned (a b : Word) : Word := if a.slt b then a else b
def maxSigned (a b : Word) : Word := if a.slt b then b else a
def minUnsigned (a b : Word) : Word := if a.ult b then a else b
def maxUnsigned (a b : Word) : Word := if a.ult b then b else a
def sllw (v : Word) (n : Nat) : Word := ((low32 v) <<< n).signExtend 64
def srlw (v : Word) (n : Nat) : Word := ((low32 v) >>> n).signExtend 64
def sraw (v : Word) (n : Nat) : Word := ((low32 v).sshiftRight n).signExtend 64

/-- Leading zero bits: the position above the highest one bit counts from the top. -/
def leadingZeros (v : Word) : Word := if v = 0 then 64 else wordOf (63 - v.toNat.log2)

def trailingZerosFrom (n : Nat) : Nat → Nat
  | 0 => 0
  | k + 1 => if n % 2 = 1 then 0 else 1 + trailingZerosFrom (n / 2) k
def trailingZeros (v : Word) : Word := wordOf (trailingZerosFrom v.toNat 64)

def onesFrom (n : Nat) : Nat → Nat
  | 0 => 0
  | k + 1 => n % 2 + onesFrom (n / 2) k
def popCount (v : Word) : Word := wordOf (onesFrom v.toNat 64)

def reverseBits (v : Word) : Word := v.reverse
def swapBytes (v : Word) : Word := wordOf (leNat (leBytes 8 v.toNat).reverse)

/-- The width of SEXT and ZEXT by the code of R132. -/
def extWidth (w : BitVec 5) : Nat :=
  match w.toNat with
  | 0 => 8
  | 1 => 16
  | _ => 32

/-- Bits [127:64] of a product of integers. -/
def highProduct (a b : Int) : Word := BitVec.ofInt 64 (a * b / 2 ^ 64)

/-- Quot and Rem of R134 at a width. -/
def quotS {w : Nat} (x y : BitVec w) : BitVec w :=
  if y = 0 then BitVec.allOnes w else BitVec.ofInt w (x.toInt.tdiv y.toInt)
def remS {w : Nat} (x y : BitVec w) : BitVec w :=
  if y = 0 then x else BitVec.ofInt w (x.toInt.tmod y.toInt)
def quotU {w : Nat} (x y : BitVec w) : BitVec w := if y = 0 then BitVec.allOnes w else BitVec.ofNat w (x.toNat / y.toNat)
def remU {w : Nat} (x y : BitVec w) : BitVec w := if y = 0 then x else BitVec.ofNat w (x.toNat % y.toNat)

/-- Insert the low `len` bits of `v` into `old` at `pos` (R137). -/
def insertField (old v : Word) (pos len : Nat) : Word := setField old pos len v.toNat

/-! ## INT (R131) -/

/-- ADD (R131). -/
def execAdd (d a b : BitVec 5) (s : State) : Host.Outcome State Fault Refusal :=
  regReg 4 d a b (fun x y => x + y) s

/-- SUB (R131). -/
def execSub (d a b : BitVec 5) (s : State) : Host.Outcome State Fault Refusal :=
  regReg 4 d a b (fun x y => x - y) s

/-- AND (R131). -/
def execAnd (d a b : BitVec 5) (s : State) : Host.Outcome State Fault Refusal :=
  regReg 4 d a b (fun x y => x &&& y) s

/-- OR (R131). -/
def execOr (d a b : BitVec 5) (s : State) : Host.Outcome State Fault Refusal :=
  regReg 4 d a b (fun x y => x ||| y) s

/-- XOR (R131). -/
def execXor (d a b : BitVec 5) (s : State) : Host.Outcome State Fault Refusal :=
  regReg 4 d a b (fun x y => x ^^^ y) s

/-- ANDN (R131). -/
def execAndn (d a b : BitVec 5) (s : State) : Host.Outcome State Fault Refusal :=
  regReg 4 d a b (fun x y => x &&& ~~~y) s

/-- ORN (R131). -/
def execOrn (d a b : BitVec 5) (s : State) : Host.Outcome State Fault Refusal :=
  regReg 4 d a b (fun x y => x ||| ~~~y) s

/-- SLL (R131). -/
def execSll (d a b : BitVec 5) (s : State) : Host.Outcome State Fault Refusal :=
  regReg 4 d a b (fun x y => x <<< shiftAmount y) s

/-- SRL (R131). -/
def execSrl (d a b : BitVec 5) (s : State) : Host.Outcome State Fault Refusal :=
  regReg 4 d a b (fun x y => x >>> shiftAmount y) s

/-- SRA (R131). -/
def execSra (d a b : BitVec 5) (s : State) : Host.Outcome State Fault Refusal :=
  regReg 4 d a b (fun x y => x.sshiftRight (shiftAmount y)) s

/-- ROL (R131). -/
def execRol (d a b : BitVec 5) (s : State) : Host.Outcome State Fault Refusal :=
  regReg 4 d a b (fun x y => x.rotateLeft (shiftAmount y)) s

/-- ROR (R131). -/
def execRor (d a b : BitVec 5) (s : State) : Host.Outcome State Fault Refusal :=
  regReg 4 d a b (fun x y => x.rotateRight (shiftAmount y)) s

/-- MIN (R131). -/
def execMin (d a b : BitVec 5) (s : State) : Host.Outcome State Fault Refusal :=
  regReg 4 d a b minSigned s

/-- MAX (R131). -/
def execMax (d a b : BitVec 5) (s : State) : Host.Outcome State Fault Refusal :=
  regReg 4 d a b maxSigned s

/-- MINU (R131). -/
def execMinu (d a b : BitVec 5) (s : State) : Host.Outcome State Fault Refusal :=
  regReg 4 d a b minUnsigned s

/-- MAXU (R131). -/
def execMaxu (d a b : BitVec 5) (s : State) : Host.Outcome State Fault Refusal :=
  regReg 4 d a b maxUnsigned s

/-- ADDW (R131). -/
def execAddw (d a b : BitVec 5) (s : State) : Host.Outcome State Fault Refusal :=
  regReg 4 d a b (fun x y => narrow (x + y)) s

/-- SUBW (R131). -/
def execSubw (d a b : BitVec 5) (s : State) : Host.Outcome State Fault Refusal :=
  regReg 4 d a b (fun x y => narrow (x - y)) s

/-- SLLW (R131). -/
def execSllw (d a b : BitVec 5) (s : State) : Host.Outcome State Fault Refusal :=
  regReg 4 d a b (fun x y => sllw x (shiftAmountW y)) s

/-- SRLW (R131). -/
def execSrlw (d a b : BitVec 5) (s : State) : Host.Outcome State Fault Refusal :=
  regReg 4 d a b (fun x y => srlw x (shiftAmountW y)) s

/-- SRAW (R131). -/
def execSraw (d a b : BitVec 5) (s : State) : Host.Outcome State Fault Refusal :=
  regReg 4 d a b (fun x y => sraw x (shiftAmountW y)) s

/-- CLZ (R131). -/
def execClz (d a : BitVec 5) (s : State) : Host.Outcome State Fault Refusal :=
  regOne 4 d a leadingZeros s

/-- CTZ (R131). -/
def execCtz (d a : BitVec 5) (s : State) : Host.Outcome State Fault Refusal :=
  regOne 4 d a trailingZeros s

/-- POPC (R131). -/
def execPopc (d a : BitVec 5) (s : State) : Host.Outcome State Fault Refusal :=
  regOne 4 d a popCount s

/-- BREV (R131). -/
def execBrev (d a : BitVec 5) (s : State) : Host.Outcome State Fault Refusal :=
  regOne 4 d a reverseBits s

/-- BSWAP (R131). -/
def execBswap (d a : BitVec 5) (s : State) : Host.Outcome State Fault Refusal :=
  regOne 4 d a swapBytes s

/-- SEXT: the width by the code (R132). -/
def execSext (d a w : BitVec 5) (s : State) : Host.Outcome State Fault Refusal :=
  regOne 4 d a (fun x => sextW x (extWidth w)) s

/-- ZEXT (R132). -/
def execZext (d a w : BitVec 5) (s : State) : Host.Outcome State Fault Refusal :=
  regOne 4 d a (fun x => zextW x (extWidth w)) s

/-- LEA.h (R131). -/
def execLea (d a b : BitVec 5) (h : BitVec 3) (s : State) : Host.Outcome State Fault Refusal :=
  regReg 4 d a b (fun x y => x + (y <<< h.toNat)) s

/-! ## MUL (R133, R134) -/

/-- MUL (R133). -/
def execMul (d a b : BitVec 5) (s : State) : Host.Outcome State Fault Refusal :=
  regReg 4 d a b (fun x y => x * y) s

/-- MULH (R133). -/
def execMulh (d a b : BitVec 5) (s : State) : Host.Outcome State Fault Refusal :=
  regReg 4 d a b (fun x y => highProduct x.toInt y.toInt) s

/-- MULHU (R133). -/
def execMulhu (d a b : BitVec 5) (s : State) : Host.Outcome State Fault Refusal :=
  regReg 4 d a b (fun x y => highProduct x.toNat y.toNat) s

/-- MULHSU (R133). -/
def execMulhsu (d a b : BitVec 5) (s : State) : Host.Outcome State Fault Refusal :=
  regReg 4 d a b (fun x y => highProduct x.toInt y.toNat) s

/-- DIV (R133). -/
def execDiv (d a b : BitVec 5) (s : State) : Host.Outcome State Fault Refusal :=
  regReg 4 d a b quotS s

/-- DIVU (R133). -/
def execDivu (d a b : BitVec 5) (s : State) : Host.Outcome State Fault Refusal :=
  regReg 4 d a b quotU s

/-- REM (R133). -/
def execRem (d a b : BitVec 5) (s : State) : Host.Outcome State Fault Refusal :=
  regReg 4 d a b remS s

/-- REMU (R133). -/
def execRemu (d a b : BitVec 5) (s : State) : Host.Outcome State Fault Refusal :=
  regReg 4 d a b remU s

/-- MULW (R133). -/
def execMulw (d a b : BitVec 5) (s : State) : Host.Outcome State Fault Refusal :=
  regReg 4 d a b (fun x y => narrow (x * y)) s

/-- DIVW (R133). -/
def execDivw (d a b : BitVec 5) (s : State) : Host.Outcome State Fault Refusal :=
  regReg 4 d a b (fun x y => (quotS (low32 x) (low32 y)).signExtend 64) s

/-- DIVUW (R133). -/
def execDivuw (d a b : BitVec 5) (s : State) : Host.Outcome State Fault Refusal :=
  regReg 4 d a b (fun x y => (quotU (low32 x) (low32 y)).signExtend 64) s

/-- REMW (R133). -/
def execRemw (d a b : BitVec 5) (s : State) : Host.Outcome State Fault Refusal :=
  regReg 4 d a b (fun x y => (remS (low32 x) (low32 y)).signExtend 64) s

/-- REMUW (R133). -/
def execRemuw (d a b : BitVec 5) (s : State) : Host.Outcome State Fault Refusal :=
  regReg 4 d a b (fun x y => (remU (low32 x) (low32 y)).signExtend 64) s

/-! ## Immediates (R135 to R138) -/

/-- ADDI (R135). -/
def execAddi (d a : BitVec 5) (i : BitVec 15) (s : State) : Host.Outcome State Fault Refusal :=
  regOne 4 d a (fun x => x + immWord i) s

/-- ANDI (R135). -/
def execAndi (d a : BitVec 5) (i : BitVec 15) (s : State) : Host.Outcome State Fault Refusal :=
  regOne 4 d a (fun x => x &&& immWord i) s

/-- ORI (R135). -/
def execOri (d a : BitVec 5) (i : BitVec 15) (s : State) : Host.Outcome State Fault Refusal :=
  regOne 4 d a (fun x => x ||| immWord i) s

/-- XORI (R135). -/
def execXori (d a : BitVec 5) (i : BitVec 15) (s : State) : Host.Outcome State Fault Refusal :=
  regOne 4 d a (fun x => x ^^^ immWord i) s

/-- SLLI (R136). -/
def execSlli (d a : BitVec 5) (h : BitVec 6) (s : State) : Host.Outcome State Fault Refusal :=
  regOne 4 d a (fun x => x <<< h.toNat) s

/-- SRLI (R136). -/
def execSrli (d a : BitVec 5) (h : BitVec 6) (s : State) : Host.Outcome State Fault Refusal :=
  regOne 4 d a (fun x => x >>> h.toNat) s

/-- SRAI (R136). -/
def execSrai (d a : BitVec 5) (h : BitVec 6) (s : State) : Host.Outcome State Fault Refusal :=
  regOne 4 d a (fun x => x.sshiftRight h.toNat) s

/-- RORI (R136). -/
def execRori (d a : BitVec 5) (h : BitVec 6) (s : State) : Host.Outcome State Fault Refusal :=
  regOne 4 d a (fun x => x.rotateRight h.toNat) s

/-- SLLIW (R136). -/
def execSlliw (d a : BitVec 5) (h : BitVec 5) (s : State) : Host.Outcome State Fault Refusal :=
  regOne 4 d a (fun x => sllw x h.toNat) s

/-- SRLIW (R136). -/
def execSrliw (d a : BitVec 5) (h : BitVec 5) (s : State) : Host.Outcome State Fault Refusal :=
  regOne 4 d a (fun x => srlw x h.toNat) s

/-- SRAIW (R136). -/
def execSraiw (d a : BitVec 5) (h : BitVec 5) (s : State) : Host.Outcome State Fault Refusal :=
  regOne 4 d a (fun x => sraw x h.toNat) s

/-- BEXT: len is l + 1 (R137). -/
def execBext (d a : BitVec 5) (l p : BitVec 6) (s : State) : Host.Outcome State Fault Refusal :=
  regOne 4 d a (fun x => wordOf (fieldOf x p.toNat (l.toNat + 1))) s

/-- BEXTS (R137). -/
def execBexts (d a : BitVec 5) (l p : BitVec 6) (s : State) : Host.Outcome State Fault Refusal :=
  regOne 4 d a (fun x => sextW (wordOf (fieldOf x p.toNat (l.toNat + 1))) (l.toNat + 1)) s

/-- BINS: reads x[d] as well (R137). -/
def execBins (d a : BitVec 5) (l p : BitVec 6) (s : State) : Host.Outcome State Fault Refusal :=
  runT 4 { xr := [a, d], xw := some d } s fun t => .ok (setX t d (insertField (getX t d) (getX t a) p.toNat (l.toNat + 1))) 0

/-- LUI (R138). -/
def execLui (d : BitVec 5) (i : BitVec 20) (s : State) : Host.Outcome State Fault Refusal :=
  runT 4 { xr := [], xw := some d } s fun t => .ok (setX t d (immWord i * 4096)) 0

/-- ADDPC (R138). -/
def execAddpc (d : BitVec 5) (i : BitVec 20) (s : State) : Host.Outcome State Fault Refusal :=
  runT 4 { xr := [], xw := some d } s fun t => .ok (setX t d (t.pc + immWord i * 4096)) 0

end Sys2Proof.Machine
end

