-- ==== Sys2Proof/Machine/Elementary.lean ====
section
/-!
DEFINITION. The correctly rounded functions of R43: each exact value f(x) is enclosed between two rationals with 400
binary places, from which the floors that Round asks for are read.
-/

namespace Sys2Proof.Machine

/-- The binary places of the enclosures. -/
def elemPlaces : Nat := 400

/-- The floor of pi * 2^400. -/
def piFloor : Nat := 0x3243f6a8885a308d313198a2e03707344a4093822299f31d0082efa98ec4e6c89452821e638d01377be5466cf34e90c6cc0ac

/-- The floor of ln 2 * 2^400. -/
def ln2Floor : Nat := 0xb17217f7d1cf79abc9e3b39803f2f6af40f343267298b62d8a0d175b8baafa2be7b876206debac98559552fb4afa1b10ed2e

/-- A nonnegative real between lo / 2^400 and hi / 2^400. -/
structure Enclosure where
  lo : Nat
  hi : Nat
deriving DecidableEq, Repr

def encMul (a b : Enclosure) : Enclosure :=
  { lo := a.lo * b.lo / 2 ^ elemPlaces, hi := a.hi * b.hi / 2 ^ elemPlaces + 1 }

def encDivNat (a : Enclosure) (n : Nat) : Enclosure := { lo := a.lo / n, hi := a.hi / n + 1 }

def encAdd (a b : Enclosure) : Enclosure := { lo := a.lo + b.lo, hi := a.hi + b.hi }

/-- The difference of enclosures whose first is the larger number. -/
def encSub (a b : Enclosure) : Enclosure := { lo := a.lo - b.hi, hi := a.hi - b.lo }

/-- The quotient of two enclosures, the second above zero. -/
def encDiv (a b : Enclosure) : Enclosure :=
  { lo := a.lo * 2 ^ elemPlaces / b.hi, hi := a.hi * 2 ^ elemPlaces / b.lo + 1 }

/-- Room for the terms of a series that are left out. -/
def encWiden (a : Enclosure) : Enclosure := { lo := a.lo - 4, hi := a.hi + 4 }

/-- m * 2^e for e at most 0, exactly or rounded outwards. -/
def encDyadic (m : Nat) (e : Nat) : Enclosure :=
  let a := m * 2 ^ elemPlaces
  { lo := a / 2 ^ e, hi := (a + 2 ^ e - 1) / 2 ^ e }

def encPi : Enclosure := { lo := piFloor, hi := piFloor + 1 }
def encLn2 : Enclosure := { lo := ln2Floor, hi := ln2Floor + 1 }
def encOne : Enclosure := { lo := 2 ^ elemPlaces, hi := 2 ^ elemPlaces }

/-- The sum of y^n / n! from the term t = y^n / n!, for `fuel` terms. -/
def expTerms (y : Enclosure) : Nat → Nat → Enclosure → Enclosure → Enclosure
  | 0, _, _, s => s
  | fuel + 1, n, t, s => expTerms y fuel (n + 1) (encDivNat (encMul t y) (n + 1)) (encAdd s t)

/-- e^y for y below 1. -/
def encExp (y : Enclosure) : Enclosure := encWiden (expTerms y 100 0 encOne { lo := 0, hi := 0 })

/-- The sum of z^(2k+1) / (2k+1) from the power p = z^(2k+1). -/
def atanhTerms (zz : Enclosure) : Nat → Nat → Enclosure → Enclosure → Enclosure
  | 0, _, _, s => s
  | fuel + 1, k, p, s => atanhTerms zz fuel (k + 1) (encMul p zz) (encAdd s (encDivNat p (2 * k + 1)))

/-- atanh z for z at most 1/3. -/
def encAtanh (z : Enclosure) : Enclosure := encWiden (atanhTerms (encMul z z) 140 0 z { lo := 0, hi := 0 })

/-- The terms a^n / n!, a^(n+2) / (n+2)!, ... added in turn to one sum and the other. -/
def trigTerms (aa : Enclosure) : Nat → Nat → Enclosure → Enclosure → Enclosure → Enclosure × Enclosure
  | 0, _, _, s, r => (s, r)
  | fuel + 1, n, t, s, r =>
    let t' := encDivNat (encMul t aa) ((n + 1) * (n + 2))
    let (r', s') := trigTerms aa fuel (n + 2) t' r (encAdd s t)
    (s', r')

/-- sin a for a between 0 and pi / 2. -/
def encSin (a : Enclosure) : Enclosure :=
  let (s, r) := trigTerms (encMul a a) 60 1 a { lo := 0, hi := 0 } { lo := 0, hi := 0 }
  encWiden (encSub s r)

/-- cos a for a between 0 and pi / 2. -/
def encCos (a : Enclosure) : Enclosure :=
  let (s, r) := trigTerms (encMul a a) 60 0 encOne { lo := 0, hi := 0 } { lo := 0, hi := 0 }
  encWiden (encSub s r)

/-- A number that no power of two divides evenly, enclosed times 2^n, as a magnitude. Where the enclosure does not
decide a floor, the floor is a free value (PRESUMED, log 10: 400 places decide every operand). -/
def encMag (v : Enclosure) (n : Int) : Mag where
  ex := (v.lo.log2 : Int) - elemPlaces + n
  floorAt k :=
    let d : Int := elemPlaces - n + k
    if d < 0 then (Config.freeFloor v.lo, true)
    else if d > elemPlaces + 64 then (0, true)
    else
      let a := v.lo / 2 ^ d.toNat
      let b := v.hi / 2 ^ d.toNat
      (if a = b then a else Config.freeFloor v.lo, true)

/-- 2^x (R43). -/
def exp2Num (p : FVal) : Exact × FFlags :=
  match p with
  | .nan s => (.nan false, raiseIf s flagNV)
  | .inf false => (.inf false, 0)
  | .inf true => (.zero false, 0)
  | .zero _ => (.real false (dyadicMag 1 0), 0)
  | .fin neg m e =>
    if e ≥ 0 then
      let x : Int := (m * 2 ^ e.toNat : Nat)
      (.real false (dyadicMag 1 (if neg then -x else x)), 0)
    else
      let d : Nat := (-e).toNat
      let x : Int := if neg then -(m : Int) else m
      let n := x / (2 ^ d : Nat)
      let r := (x % (2 ^ d : Nat)).toNat
      if r = 0 then (.real false (dyadicMag 1 n), 0)
      else (.real false (encMag (encExp (encMul (encDyadic r d) encLn2)) n), 0)

/-- log2 x (R43). -/
def log2Num (p : FVal) : Exact × FFlags :=
  match p with
  | .nan s => (.nan false, raiseIf s flagNV)
  | .zero _ => (.inf true, flagDZ)
  | .inf true => (.nan false, flagNV)
  | .inf false => (.inf false, 0)
  | .fin true _ _ => (.nan false, flagNV)
  | .fin false m e =>
    let l := m.log2
    let E : Int := l + e
    if m = 2 ^ l then (numExact (intNum E 0 false), 0)
    else
      -- x = 2^E * t with t = m / 2^l, and log2 t = 2 atanh ((t - 1) / (t + 1)) / ln 2
      let z := encDiv (encDyadic (m - 2 ^ l) l) (encDyadic (m + 2 ^ l) l)
      let a := encAtanh z
      let lg := encDiv { lo := 2 * a.lo, hi := 2 * a.hi } encLn2
      if E ≥ 0 then
        let whole := E.toNat * 2 ^ elemPlaces
        (.real false (encMag { lo := whole + lg.lo, hi := whole + lg.hi } 0), 0)
      else
        let whole := (-E).toNat * 2 ^ elemPlaces
        (.real true (encMag { lo := whole - lg.hi, hi := whole - lg.lo } 0), 0)

/-- The quadrant of |x| * 2 modulo 4 and the rest below 1 over 2^d, for x = m * 2^-d * 1/2 steps: x = (j + s / 2^(d-1)) / 2. -/
def quadrant (m d : Nat) : Nat × Nat := (m / 2 ^ (d - 1) % 4, m % 2 ^ (d - 1))

/-- sin(pi x) and cos(pi x) away from their special cases: quadrant j and the angle pi * s / 2^d. -/
def trigPi (cosine : Bool) (neg : Bool) (m d : Nat) : Exact :=
  let (j, s) := quadrant m d
  let a := encMul (encDyadic s d) encPi
  let j := if cosine then j + 1 else j
  let mag := if j % 2 = 0 then encSin a else encCos a
  let flip := decide (j % 4 ≥ 2)
  .real (if cosine then flip else flip != neg) (encMag mag 0)

/-- sin(pi x) (R43). -/
def sinpiNum (p : FVal) : Exact × FFlags :=
  match p with
  | .nan s => (.nan false, raiseIf s flagNV)
  | .inf _ => (.nan false, flagNV)
  | .zero n => (.zero n, 0)
  | .fin neg m e =>
    if e ≥ 0 then (.zero neg, 0)
    else
      let d := (-e).toNat
      let (j, s) := quadrant m d
      if s = 0 then
        if j % 2 = 0 then (.zero neg, 0) else (.real ((j == 3) != neg) (dyadicMag 1 0), 0)
      else (trigPi false neg m d, 0)

/-- cos(pi x) (R43). -/
def cospiNum (p : FVal) : Exact × FFlags :=
  match p with
  | .nan s => (.nan false, raiseIf s flagNV)
  | .inf _ => (.nan false, flagNV)
  | .zero _ => (.real false (dyadicMag 1 0), 0)
  | .fin _ m e =>
    if e ≥ 0 then (.real (e == 0 && m % 2 == 1) (dyadicMag 1 0), 0)
    else
      let d := (-e).toNat
      let (j, s) := quadrant m d
      if s = 0 then
        if j % 2 = 1 then (.zero false, 0) else (.real (j == 2) (dyadicMag 1 0), 0)
      else (trigPi true false m d, 0)

/-- 1 / x (R43). -/
def rcpNum (p : FVal) : Exact × FFlags :=
  match p with
  | .nan s => (.nan false, raiseIf s flagNV)
  | .inf n => (.zero n, 0)
  | .zero n => (.inf n, flagDZ)
  | .fin n m e => (.real n (ratioMag 1 m (-e)), 0)

/-- 1 / sqrt x (R43). -/
def rsqNum (p : FVal) : Exact × FFlags :=
  match p with
  | .nan s => (.nan false, raiseIf s flagNV)
  | .inf true => (.nan false, flagNV)
  | .inf false => (.zero false, 0)
  | .zero n => (.inf n, flagDZ)
  | .fin true _ _ => (.nan false, flagNV)
  | .fin false m e => (.real false (rsqrtMag m e), 0)

end Sys2Proof.Machine
end

