-- ==== Sys2Proof/Machine/VectorFamily.lean ====
section
/-!
DEFINITION. Vector instructions (08): lanes and masks (R172, R173), VINT (R176), VFLT (R177, R178), VFMA and VX2 (R179,
R180), VLANE (R181 to R183), VCVT (R184).
-/

namespace Sys2Proof.Machine

/-! ## Lanes -/

def laneGet (w : Nat) (v : VReg) (i : Nat) : Nat := fieldOf v (w * i) w

/-- Whether a lane is enabled: by the mask bit of the 32-bit group that holds its lowest byte (R173). -/
def laneOn (w : Nat) (mask : BitVec 8) (i : Nat) : Bool := mask.getLsbD (w * i / 32)

/-- The lanes below `n`, ascending: an enabled lane takes the result `f lane draws`, with its flags, and counts as one draw;
another keeps its old bits. The answer is the register's value, the flags, and how many lanes were enabled. -/
def foldLanes (w : Nat) (on : Nat → Bool) (old : VReg) (f : Nat → Nat → Nat × FFlags) : Nat → Nat × FFlags × Nat
  | 0 => (0, 0, 0)
  | n + 1 =>
    let p := foldLanes w on old f n
    if on n then
      let r := f n p.2.2
      (p.1 + r.1 % 2 ^ w * 2 ^ (w * n), p.2.1 ||| r.2, p.2.2 + 1)
    else (p.1 + laneGet w old n * 2 ^ (w * n), p.2.1, p.2.2)

/-- A register whose lanes of width w are computed under the mask of a guard; with `draws`, each enabled lane rounds under
`RND` and takes a draw (R178). -/
def laneOp (w : Nat) (draws : Bool) (d : BitVec 5) (m : BitVec 3) (f : Thread → Nat → Rounding → Nat × FFlags) (t : Thread) : TRes :=
  let rs := rndOf t
  let p := foldLanes w (laneOn w (getG t m).mask) (getV t d) (fun i j => f t i (roundingOf rs j)) (256 / w)
  .ok (setV (if draws then takeDraws t p.2.2 else t) d (BitVec.ofNat 256 p.1)) p.2.1

def vnum (v : BitVec 5) : Nat := v.toNat

/-! ## VINT (R176) -/

def intLaneWidth (t : BitVec 2) : Nat :=
  match t.toNat with
  | 0 => 32
  | 1 => 16
  | _ => 8

/-- Two's complement of a lane, and back. -/
def laneInt (w n : Nat) : Int := if n < 2 ^ (w - 1) then n else (n : Int) - 2 ^ w
def laneOut (w : Nat) (n : Int) : Nat := (n % 2 ^ w).toNat
/-- Clamp to the signed range (VADDS, VSUBS). -/
def laneClamp (w : Nat) (n : Int) : Nat := laneOut w (max (-(2 ^ (w - 1))) (min (2 ^ (w - 1) - 1) n))

/-- An integer lane operation of two sources; `f w p q`. -/
def vint2 (len : Nat) (t : BitVec 2) (d a b : BitVec 5) (m : BitVec 3) (f : Nat → Nat → Nat → Nat) (s : State) : Host.Outcome State Fault Refusal :=
  let w := intLaneWidth t
  runT len { vs := [vnum d, vnum a, vnum b], gs := [m] } s
    (laneOp w false d m fun t i _ => (f w (laneGet w (getV t a) i) (laneGet w (getV t b) i), 0))

/-- An integer lane operation of one source. -/
def vint1 (t : BitVec 2) (d a : BitVec 5) (m : BitVec 3) (f : Nat → Nat → Nat) (s : State) : Host.Outcome State Fault Refusal :=
  let w := intLaneWidth t
  runT 4 { vs := [vnum d, vnum a], gs := [m] } s (laneOp w false d m fun t i _ => (f w (laneGet w (getV t a) i), 0))

def laneAdd (w p q : Nat) : Nat := (p + q) % 2 ^ w
def laneSub (w p q : Nat) : Nat := (p + 2 ^ w - q) % 2 ^ w
def laneSra (w p n : Nat) : Nat := laneOut w (laneInt w p / 2 ^ n)

/-! ## VFLT, VFMA, VX2 (R177 to R180) -/

def fltFmt (p : BitVec 1) : Fmt := if p = 0 then .fp32 else .fp16

/-- A floating lane operation of two sources. -/
def vflt2 (len : Nat) (F : Fmt) (rounds : Bool) (d a b : BitVec 5) (m : BitVec 3) (f : Rounding → Nat → Nat → Nat × FFlags) (s : State) :
    Host.Outcome State Fault Refusal :=
  let w := fmtWidth F
  runT len { vs := [vnum d, vnum a, vnum b], gs := [m], rounds := rounds, f64 := F == .fp64 } s
    (laneOp w rounds d m fun t i r => f r (laneGet w (getV t a) i) (laneGet w (getV t b) i))

/-- A floating lane operation of one source. -/
def vflt1 (F : Fmt) (rounds : Bool) (d a : BitVec 5) (m : BitVec 3) (f : Rounding → Nat → Nat × FFlags) (s : State) :
    Host.Outcome State Fault Refusal :=
  let w := fmtWidth F
  runT 4 { vs := [vnum d, vnum a], gs := [m], rounds := rounds, f64 := F == .fp64 } s
    (laneOp w rounds d m fun t i r => f r (laneGet w (getV t a) i))

/-- A lane operation of three sources on format F (R179, VFMAH). -/
def vflt3 (F : Fmt) (d a b c : BitVec 5) (m : BitVec 3) (f : Rounding → Nat → Nat → Nat → Nat × FFlags) (s : State) :
    Host.Outcome State Fault Refusal :=
  let w := fmtWidth F
  runT 4 { vs := [vnum d, vnum a, vnum b, vnum c], gs := [m], rounds := true, f64 := F == .fp64 } s
    (laneOp w true d m fun t i r => f r (laneGet w (getV t a) i) (laneGet w (getV t b) i) (laneGet w (getV t c) i))

/-- An elementary function of R43, rounded once. -/
def elemLane (F : Fmt) (f : FVal → Exact × FFlags) (r : Rounding) (a : Nat) : Nat × FFlags :=
  let (x, fl) := f (decodeNum F a)
  roundWith F r x fl

/-- Rounding to an integral value (R178): toward a fixed direction without NX, or under `RND` with it. -/
def integralLane (F : Fmt) (nx : Bool) (r : Rounding) (a : Nat) : Nat × FFlags :=
  let (v, inexact) := integralNum r (decodeNum F a)
  roundWith F r (numExact v) (raiseIf (nx && inexact) flagNX)

/-- The sum of three terms of VDOT2BF, exact (R180). -/
def dot2Term (r : Rounding) (c a0 b0 a1 b1 : FVal) : FVal × FFlags :=
  let (p, f0) := mulNum a0 b0
  let (q, f1) := mulNum a1 b1
  let plus := [c, p, q].any fun x => x == .inf false
  let minus := [c, p, q].any fun x => x == .inf true
  let (x, f2) := addNum r c p
  let (y, f3) := addNum r x q
  (y, f0 ||| f1 ||| f2 ||| f3 ||| raiseIf (plus && minus) flagNV)

/-- Σ over four byte products (VDOT4I, VDOT4N). -/
def dot4 (signed : Bool) (a b : VReg) (i : Nat) : Int :=
  let x (v : VReg) (j : Nat) : Int := if signed then laneInt 8 (laneGet 8 v j) else laneGet 8 v j
  (List.range 4).foldl (fun n j => n + x a (4 * i + j) * x b (4 * i + j)) 0

def vdot4 (signed : Bool) (d a b c : BitVec 5) (m : BitVec 3) (s : State) : Host.Outcome State Fault Refusal :=
  runT 4 { vs := [vnum d, vnum a, vnum b, vnum c], gs := [m] } s
    (laneOp 32 false d m fun t i _ =>
      (laneOut 32 (laneGet 32 (getV t c) i + dot4 signed (getV t a) (getV t b) i), 0))

/-! ## VLANE (R181 to R183) -/

/-- VCMP: the condition's mask under the lane mask, combined into the guard. -/
def vcompare (cond : Nat → Nat → Bool × FFlags) (g : BitVec 3) (k : BitVec 2) (a b : BitVec 5) (m : BitVec 3) (s : State) :
    Host.Outcome State Fault Refusal :=
  runT 4 { vs := [vnum a, vnum b], gs := [m, g] } s fun t =>
    let mask := (getG t m).mask
    let old := (getG t g).mask
    let res := (List.range 8).map fun i =>
      if mask.getLsbD i then
        let c := cond (laneGet 32 (getV t a) i) (laneGet 32 (getV t b) i)
        ((combineMask k old (boolMask c.1)).getLsbD i, c.2)
      else (if k = 0 then false else old.getLsbD i, 0)
    let bits := (List.range 8).foldl (fun n i => n + (if (res.getD i (false, 0)).1 then 2 ^ i else 0)) 0
    .ok (setG t g (BitVec.ofNat 8 bits)) (res.foldl (fun f p => f ||| p.2) 0)

/-- The integer conditions on 32-bit lanes, by sign extension to 64 bits, which keeps both orders. -/
def lanecond (fn p q : Nat) : Bool × FFlags := (intCond fn (sextW (wordOf p) 32) (sextW (wordOf q) 32), 0)

def enabledLanes (t : Thread) (m : BitVec 3) : List Nat := (List.range 8).filter fun i => (getG t m).mask.getLsbD i

/-- VREDMAXF and VREDMINF (R183). -/
def reduceMinMax (isMax : Bool) (d a : BitVec 5) (m : BitVec 3) (s : State) : Host.Outcome State Fault Refusal :=
  runT 4 { xw := some d, vs := [vnum a], gs := [m] } s fun t =>
    let xs := (enabledLanes t m).map (laneGet 32 (getV t a))
    let nv := raiseIf (xs.any fun x => numIsSNaN (decodeNum .fp32 x)) flagNV
    match xs with
    | [] => .ok (setX t d (wordOf (fmtCanon .fp32))) 0
    | x :: r =>
      let first := if numIsNaN (decodeNum .fp32 x) then fmtCanon .fp32 else x
      .ok (setX t d (wordOf (r.foldl (fun acc y => (minMaxNum .fp32 isMax acc y).1) first))) nv

/-! ## VCVT (R184) -/

/-- A format of VCVT by its code (R86). -/
inductive VFmt where
  | float (F : Fmt)
  | int (T : IntFmt)
deriving DecidableEq, Repr

def vfmtOf (c : BitVec 3) : VFmt :=
  match c.toNat with
  | 0 => .float .fp32
  | 1 => .float .bf16
  | 2 => .float .fp16
  | 3 => .float .e4m3
  | 4 => .float .e5m2
  | 5 => .int ⟨32, true⟩
  | 6 => .int ⟨16, true⟩
  | _ => .int ⟨8, true⟩

def vfmtWidth : VFmt → Nat
  | .float F => fmtWidth F
  | .int T => T.width

/-- Convert of R51 between two formats of VCVT. -/
def vconvert (S D : VFmt) (sat : Bool) (r : Rounding) (bits : Nat) : Nat × FFlags :=
  match S, D with
  | .float F, .float G => convertFloat F G r sat bits
  | .float F, .int T => toIntFmt T r sat (decodeNum F bits)
  | .int T, .float G => ofIntFmt G r (decodeIntFmt T bits)
  | .int T, .int U => (intNarrow U sat (decodeIntFmt T bits), 0)

def vfmtFloat : VFmt → Bool
  | .float _ => true
  | .int _ => false

/-- VCVT on n = 256 / max(ws, wd) elements; the bits of v[d] above them become zero. -/
def vcvtOp (d a : BitVec 5) (m : BitVec 3) (sat : Bool) (S D : VFmt) (s : State) : Host.Outcome State Fault Refusal :=
  let rounds := vfmtFloat S || vfmtFloat D
  let ws := vfmtWidth S
  let wd := vfmtWidth D
  let n := 256 / max ws wd
  runT 4 { vs := [vnum d, vnum a], gs := [m], rounds := rounds } s fun t =>
    let rs := rndOf t
    let mask := (getG t m).mask
    let p := foldLanes wd (fun i => mask.getLsbD (8 * i / n)) (getV t d)
      (fun i j => vconvert S D sat (roundingOf rs j) (laneGet ws (getV t a) i)) n
    .ok (setV (if rounds then takeDraws t p.2.2 else t) d (BitVec.ofNat 256 p.1)) p.2.1

/-! ## Meanings -/

/-- VADD (R176). -/
def execVadd (d a b : BitVec 5) (m : BitVec 3) (t : BitVec 2) (s : State) : Host.Outcome State Fault Refusal :=
  vint2 4 t d a b m laneAdd s

/-- VSUB (R176). -/
def execVsub (d a b : BitVec 5) (m : BitVec 3) (t : BitVec 2) (s : State) : Host.Outcome State Fault Refusal :=
  vint2 4 t d a b m laneSub s

/-- VMUL (R176). -/
def execVmul (d a b : BitVec 5) (m : BitVec 3) (t : BitVec 2) (s : State) : Host.Outcome State Fault Refusal :=
  vint2 4 t d a b m (fun w p q => p * q % 2 ^ w) s

/-- VMULH (R176). -/
def execVmulh (d a b : BitVec 5) (m : BitVec 3) (t : BitVec 2) (s : State) : Host.Outcome State Fault Refusal :=
  vint2 4 t d a b m (fun w p q => laneOut w (laneInt w p * laneInt w q / 2 ^ w)) s

/-- VMULHN (R176). -/
def execVmulhn (d a b : BitVec 5) (m : BitVec 3) (t : BitVec 2) (s : State) : Host.Outcome State Fault Refusal :=
  vint2 4 t d a b m (fun w p q => p * q / 2 ^ w) s

/-- VAND (R176). -/
def execVand (d a b : BitVec 5) (m : BitVec 3) (t : BitVec 2) (s : State) : Host.Outcome State Fault Refusal :=
  vint2 4 t d a b m (fun _ p q => p &&& q) s

/-- VOR (R176). -/
def execVor (d a b : BitVec 5) (m : BitVec 3) (t : BitVec 2) (s : State) : Host.Outcome State Fault Refusal :=
  vint2 4 t d a b m (fun _ p q => p ||| q) s

/-- VXOR (R176). -/
def execVxor (d a b : BitVec 5) (m : BitVec 3) (t : BitVec 2) (s : State) : Host.Outcome State Fault Refusal :=
  vint2 4 t d a b m (fun _ p q => p ^^^ q) s

/-- VANDN (R176). -/
def execVandn (d a b : BitVec 5) (m : BitVec 3) (t : BitVec 2) (s : State) : Host.Outcome State Fault Refusal :=
  vint2 4 t d a b m (fun w p q => p &&& (2 ^ w - 1 - q)) s

/-- VSHL (R176). -/
def execVshl (d a b : BitVec 5) (m : BitVec 3) (t : BitVec 2) (s : State) : Host.Outcome State Fault Refusal :=
  vint2 4 t d a b m (fun w p q => p * 2 ^ (q % w) % 2 ^ w) s

/-- VSHR (R176). -/
def execVshr (d a b : BitVec 5) (m : BitVec 3) (t : BitVec 2) (s : State) : Host.Outcome State Fault Refusal :=
  vint2 4 t d a b m (fun w p q => p / 2 ^ (q % w)) s

/-- VSRA (R176). -/
def execVsra (d a b : BitVec 5) (m : BitVec 3) (t : BitVec 2) (s : State) : Host.Outcome State Fault Refusal :=
  vint2 4 t d a b m (fun w p q => laneSra w p (q % w)) s

/-- VMIN (R176). -/
def execVmin (d a b : BitVec 5) (m : BitVec 3) (t : BitVec 2) (s : State) : Host.Outcome State Fault Refusal :=
  vint2 4 t d a b m (fun w p q => if laneInt w q < laneInt w p then q else p) s

/-- VMAX (R176). -/
def execVmax (d a b : BitVec 5) (m : BitVec 3) (t : BitVec 2) (s : State) : Host.Outcome State Fault Refusal :=
  vint2 4 t d a b m (fun w p q => if laneInt w p < laneInt w q then q else p) s

/-- VMINN (R176). -/
def execVminn (d a b : BitVec 5) (m : BitVec 3) (t : BitVec 2) (s : State) : Host.Outcome State Fault Refusal :=
  vint2 4 t d a b m (fun _ p q => Nat.min p q) s

/-- VMAXN (R176). -/
def execVmaxn (d a b : BitVec 5) (m : BitVec 3) (t : BitVec 2) (s : State) : Host.Outcome State Fault Refusal :=
  vint2 4 t d a b m (fun _ p q => Nat.max p q) s

/-- VADDS (R176). -/
def execVadds (d a b : BitVec 5) (m : BitVec 3) (t : BitVec 2) (s : State) : Host.Outcome State Fault Refusal :=
  vint2 4 t d a b m (fun w p q => laneClamp w (laneInt w p + laneInt w q)) s

/-- VSUBS (R176). -/
def execVsubs (d a b : BitVec 5) (m : BitVec 3) (t : BitVec 2) (s : State) : Host.Outcome State Fault Refusal :=
  vint2 4 t d a b m (fun w p q => laneClamp w (laneInt w p - laneInt w q)) s

/-- VABS (R176). -/
def execVabs (d a : BitVec 5) (m : BitVec 3) (t : BitVec 2) (s : State) : Host.Outcome State Fault Refusal :=
  vint1 t d a m (fun w p => laneOut w (laneInt w p).natAbs) s

/-- VNEG (R176). -/
def execVneg (d a : BitVec 5) (m : BitVec 3) (t : BitVec 2) (s : State) : Host.Outcome State Fault Refusal :=
  vint1 t d a m (fun w p => laneSub w 0 p) s

/-- VADDF (R178). -/
def execVaddf (d a b : BitVec 5) (m : BitVec 3) (p : BitVec 1) (s : State) : Host.Outcome State Fault Refusal :=
  vflt2 4 (fltFmt p) true d a b m (addBits (fltFmt p)) s

/-- VSUBF (R178). -/
def execVsubf (d a b : BitVec 5) (m : BitVec 3) (p : BitVec 1) (s : State) : Host.Outcome State Fault Refusal :=
  vflt2 4 (fltFmt p) true d a b m (subBits (fltFmt p)) s

/-- VMULF (R178). -/
def execVmulf (d a b : BitVec 5) (m : BitVec 3) (p : BitVec 1) (s : State) : Host.Outcome State Fault Refusal :=
  vflt2 4 (fltFmt p) true d a b m (mulBits (fltFmt p)) s

/-- VDIVF (R178). -/
def execVdivf (d a b : BitVec 5) (m : BitVec 3) (p : BitVec 1) (s : State) : Host.Outcome State Fault Refusal :=
  vflt2 4 (fltFmt p) true d a b m (divBits (fltFmt p)) s

/-- VMINF (R178). -/
def execVminf (d a b : BitVec 5) (m : BitVec 3) (p : BitVec 1) (s : State) : Host.Outcome State Fault Refusal :=
  vflt2 4 (fltFmt p) false d a b m (fun _ => minMaxNum (fltFmt p) false) s

/-- VMAXF (R178). -/
def execVmaxf (d a b : BitVec 5) (m : BitVec 3) (p : BitVec 1) (s : State) : Host.Outcome State Fault Refusal :=
  vflt2 4 (fltFmt p) false d a b m (fun _ => minMaxNum (fltFmt p) true) s

/-- VABSF (R178). -/
def execVabsf (d a : BitVec 5) (m : BitVec 3) (p : BitVec 1) (s : State) : Host.Outcome State Fault Refusal :=
  vflt1 (fltFmt p) false d a m (fun _ x => (x % fmtSign (fltFmt p), 0)) s

/-- VNEGF (R178). -/
def execVnegf (d a : BitVec 5) (m : BitVec 3) (p : BitVec 1) (s : State) : Host.Outcome State Fault Refusal :=
  vflt1 (fltFmt p) false d a m (fun _ x => (signBits (fltFmt p) 1 x x, 0)) s

/-- VSQRT (R178). -/
def execVsqrt (d a : BitVec 5) (m : BitVec 3) (p : BitVec 1) (s : State) : Host.Outcome State Fault Refusal :=
  vflt1 (fltFmt p) true d a m (sqrtBits (fltFmt p)) s

/-- VRCP (R43). -/
def execVrcp (d a : BitVec 5) (m : BitVec 3) (p : BitVec 1) (s : State) : Host.Outcome State Fault Refusal :=
  vflt1 (fltFmt p) true d a m (elemLane (fltFmt p) rcpNum) s

/-- VRSQ (R43). -/
def execVrsq (d a : BitVec 5) (m : BitVec 3) (p : BitVec 1) (s : State) : Host.Outcome State Fault Refusal :=
  vflt1 (fltFmt p) true d a m (elemLane (fltFmt p) rsqNum) s

/-- VEXP2 (R43). -/
def execVexp2 (d a : BitVec 5) (m : BitVec 3) (p : BitVec 1) (s : State) : Host.Outcome State Fault Refusal :=
  vflt1 (fltFmt p) true d a m (elemLane (fltFmt p) exp2Num) s

/-- VLOG2 (R43). -/
def execVlog2 (d a : BitVec 5) (m : BitVec 3) (p : BitVec 1) (s : State) : Host.Outcome State Fault Refusal :=
  vflt1 (fltFmt p) true d a m (elemLane (fltFmt p) log2Num) s

/-- VSINPI (R43). -/
def execVsinpi (d a : BitVec 5) (m : BitVec 3) (p : BitVec 1) (s : State) : Host.Outcome State Fault Refusal :=
  vflt1 (fltFmt p) true d a m (elemLane (fltFmt p) sinpiNum) s

/-- VCOSPI (R43). -/
def execVcospi (d a : BitVec 5) (m : BitVec 3) (p : BitVec 1) (s : State) : Host.Outcome State Fault Refusal :=
  vflt1 (fltFmt p) true d a m (elemLane (fltFmt p) cospiNum) s

/-- VFLOOR (R178). -/
def execVfloor (d a : BitVec 5) (m : BitVec 3) (p : BitVec 1) (s : State) : Host.Outcome State Fault Refusal :=
  vflt1 (fltFmt p) false d a m (fun _ => integralLane (fltFmt p) false rdn) s

/-- VCEIL (R178). -/
def execVceil (d a : BitVec 5) (m : BitVec 3) (p : BitVec 1) (s : State) : Host.Outcome State Fault Refusal :=
  vflt1 (fltFmt p) false d a m (fun _ => integralLane (fltFmt p) false rup) s

/-- VTRUNC (R178). -/
def execVtrunc (d a : BitVec 5) (m : BitVec 3) (p : BitVec 1) (s : State) : Host.Outcome State Fault Refusal :=
  vflt1 (fltFmt p) false d a m (fun _ => integralLane (fltFmt p) false rtz) s

/-- VRINT (R178). -/
def execVrint (d a : BitVec 5) (m : BitVec 3) (p : BitVec 1) (s : State) : Host.Outcome State Fault Refusal :=
  vflt1 (fltFmt p) true d a m (integralLane (fltFmt p) true) s

/-- VCLASS (R178). -/
def execVclass (d a : BitVec 5) (m : BitVec 3) (p : BitVec 1) (s : State) : Host.Outcome State Fault Refusal :=
  vflt1 (fltFmt p) false d a m (fun _ x => (classMask (fltFmt p) x, 0)) s

/-- VADDD (R178). -/
def execVaddd (d a b : BitVec 5) (m : BitVec 3) (s : State) : Host.Outcome State Fault Refusal :=
  vflt2 4 .fp64 true d a b m (addBits .fp64) s

/-- VSUBD (R178). -/
def execVsubd (d a b : BitVec 5) (m : BitVec 3) (s : State) : Host.Outcome State Fault Refusal :=
  vflt2 4 .fp64 true d a b m (subBits .fp64) s

/-- VMULD (R178). -/
def execVmuld (d a b : BitVec 5) (m : BitVec 3) (s : State) : Host.Outcome State Fault Refusal :=
  vflt2 4 .fp64 true d a b m (mulBits .fp64) s

/-- VDIVD (R178). -/
def execVdivd (d a b : BitVec 5) (m : BitVec 3) (s : State) : Host.Outcome State Fault Refusal :=
  vflt2 4 .fp64 true d a b m (divBits .fp64) s

/-- VMIND (R178). -/
def execVmind (d a b : BitVec 5) (m : BitVec 3) (s : State) : Host.Outcome State Fault Refusal :=
  vflt2 4 .fp64 false d a b m (fun _ => minMaxNum .fp64 false) s

/-- VMAXD (R178). -/
def execVmaxd (d a b : BitVec 5) (m : BitVec 3) (s : State) : Host.Outcome State Fault Refusal :=
  vflt2 4 .fp64 false d a b m (fun _ => minMaxNum .fp64 true) s

/-- VSQRTD (R178). -/
def execVsqrtd (d a : BitVec 5) (m : BitVec 3) (s : State) : Host.Outcome State Fault Refusal :=
  vflt1 .fp64 true d a m (sqrtBits .fp64) s

/-- VFMAD: the addend is the old lane of v[d] (R178). -/
def execVfmad (d a b : BitVec 5) (m : BitVec 3) (s : State) : Host.Outcome State Fault Refusal :=
  vflt3 .fp64 d a b d m (fmaBits .fp64 false false) s

/-- VFMA (R179). -/
def execVfma (d a b c : BitVec 5) (m : BitVec 3) (s : State) : Host.Outcome State Fault Refusal :=
  vflt3 .fp32 d a b c m (fmaBits .fp32 false false) s

/-- VFMS (R179). -/
def execVfms (d a b c : BitVec 5) (m : BitVec 3) (s : State) : Host.Outcome State Fault Refusal :=
  vflt3 .fp32 d a b c m (fmaBits .fp32 false true) s

/-- VFNMA (R179). -/
def execVfnma (d a b c : BitVec 5) (m : BitVec 3) (s : State) : Host.Outcome State Fault Refusal :=
  vflt3 .fp32 d a b c m (fmaBits .fp32 true true) s

/-- VFNMS (R179). -/
def execVfnms (d a b c : BitVec 5) (m : BitVec 3) (s : State) : Host.Outcome State Fault Refusal :=
  vflt3 .fp32 d a b c m (fmaBits .fp32 true false) s

/-- VFMAH (R180). -/
def execVfmah (d a b c : BitVec 5) (m : BitVec 3) (s : State) : Host.Outcome State Fault Refusal :=
  vflt3 .fp16 d a b c m (fmaBits .fp16 false false) s

/-- VDOT4I (R180). -/
def execVdot4i (d a b c : BitVec 5) (m : BitVec 3) (s : State) : Host.Outcome State Fault Refusal :=
  vdot4 true d a b c m s

/-- VDOT4N (R180). -/
def execVdot4n (d a b c : BitVec 5) (m : BitVec 3) (s : State) : Host.Outcome State Fault Refusal :=
  vdot4 false d a b c m s

/-- VDOT2BF (R180). -/
def execVdot2bf (d a b c : BitVec 5) (m : BitVec 3) (s : State) : Host.Outcome State Fault Refusal :=
  runT 4 { vs := [vnum d, vnum a, vnum b, vnum c], gs := [m], rounds := true } s
    (laneOp 32 true d m fun t i r =>
      let h (v : BitVec 5) (j : Nat) := decodeNum .bf16 (laneGet 16 (getV t v) j)
      let (x, f) := dot2Term r (decodeNum .fp32 (laneGet 32 (getV t c) i)) (h a (2 * i)) (h b (2 * i)) (h a (2 * i + 1)) (h b (2 * i + 1))
      roundWith .fp32 r (numExact x) f)

/-- VCMP.EQ (R181). -/
def execVcmpEq (g : BitVec 3) (k : BitVec 2) (a b : BitVec 5) (m : BitVec 3) (s : State) : Host.Outcome State Fault Refusal :=
  vcompare (lanecond 0) g k a b m s

/-- VCMP.NE (R181). -/
def execVcmpNe (g : BitVec 3) (k : BitVec 2) (a b : BitVec 5) (m : BitVec 3) (s : State) : Host.Outcome State Fault Refusal :=
  vcompare (lanecond 1) g k a b m s

/-- VCMP.LT (R181). -/
def execVcmpLt (g : BitVec 3) (k : BitVec 2) (a b : BitVec 5) (m : BitVec 3) (s : State) : Host.Outcome State Fault Refusal :=
  vcompare (lanecond 2) g k a b m s

/-- VCMP.GE (R181). -/
def execVcmpGe (g : BitVec 3) (k : BitVec 2) (a b : BitVec 5) (m : BitVec 3) (s : State) : Host.Outcome State Fault Refusal :=
  vcompare (lanecond 3) g k a b m s

/-- VCMP.LTU (R181). -/
def execVcmpLtu (g : BitVec 3) (k : BitVec 2) (a b : BitVec 5) (m : BitVec 3) (s : State) : Host.Outcome State Fault Refusal :=
  vcompare (lanecond 4) g k a b m s

/-- VCMP.GEU (R181). -/
def execVcmpGeu (g : BitVec 3) (k : BitVec 2) (a b : BitVec 5) (m : BitVec 3) (s : State) : Host.Outcome State Fault Refusal :=
  vcompare (lanecond 5) g k a b m s

/-- VCMP.FEQ (R181). -/
def execVcmpFeq (g : BitVec 3) (k : BitVec 2) (a b : BitVec 5) (m : BitVec 3) (s : State) : Host.Outcome State Fault Refusal :=
  vcompare (floatCond .fp32 0) g k a b m s

/-- VCMP.FLT (R181). -/
def execVcmpFlt (g : BitVec 3) (k : BitVec 2) (a b : BitVec 5) (m : BitVec 3) (s : State) : Host.Outcome State Fault Refusal :=
  vcompare (floatCond .fp32 1) g k a b m s

/-- VCMP.FLE (R181). -/
def execVcmpFle (g : BitVec 3) (k : BitVec 2) (a b : BitVec 5) (m : BitVec 3) (s : State) : Host.Outcome State Fault Refusal :=
  vcompare (floatCond .fp32 2) g k a b m s

/-- VCMP.FUN (R181). -/
def execVcmpFun (g : BitVec 3) (k : BitVec 2) (a b : BitVec 5) (m : BitVec 3) (s : State) : Host.Outcome State Fault Refusal :=
  vcompare (floatCond .fp32 3) g k a b m s

/-- VSEL: the guard selects, and every lane is written (R182). -/
def execVsel (d a b : BitVec 5) (m : BitVec 3) (s : State) : Host.Outcome State Fault Refusal :=
  runT 4 { vs := [vnum d, vnum a, vnum b], gs := [m] } s
    (laneOp 32 false d 7 fun t i _ => (laneGet 32 (getV t (if (getG t m).mask.getLsbD i then a else b)) i, 0))

/-- VBCAST (R182). -/
def execVbcast (d a : BitVec 5) (m : BitVec 3) (s : State) : Host.Outcome State Fault Refusal :=
  runT 4 { xr := [a], vs := [vnum d], gs := [m] } s
    (laneOp 32 false d m fun t _ _ => (fieldOf (getX t a) 0 32, 0))

/-- VINS: one lane, by x[b][2:0] (R182). -/
def execVins (d a b : BitVec 5) (m : BitVec 3) (s : State) : Host.Outcome State Fault Refusal :=
  runT 4 { xr := [a, b], vs := [vnum d], gs := [m] } s
    (laneOp 32 false d m fun t i _ =>
      (if i = fieldOf (getX t b) 0 3 then fieldOf (getX t a) 0 32 else laneGet 32 (getV t d) i, 0))

/-- VEXT (R182). -/
def execVext (d a b : BitVec 5) (s : State) : Host.Outcome State Fault Refusal :=
  runT 4 { xr := [b], xw := some d, vs := [vnum a] } s fun t =>
    .ok (setX t d (sextW (wordOf (laneGet 32 (getV t a) (fieldOf (getX t b) 0 3))) 32)) 0

/-- VPERM (R182). -/
def execVperm (d a b : BitVec 5) (m : BitVec 3) (s : State) : Host.Outcome State Fault Refusal :=
  runT 4 { vs := [vnum d, vnum a, vnum b], gs := [m] } s
    (laneOp 32 false d m fun t i _ => (laneGet 32 (getV t a) (laneGet 32 (getV t b) i % 8), 0))

/-- VSHUF: the old v[d] is the upper half (R182). -/
def execVshuf (d a b : BitVec 5) (m : BitVec 3) (s : State) : Host.Outcome State Fault Refusal :=
  runT 4 { vs := [vnum d, vnum a, vnum b], gs := [m] } s
    (laneOp 32 false d m fun t i _ =>
      let k := laneGet 32 (getV t b) i % 16
      (if k < 8 then laneGet 32 (getV t a) k else laneGet 32 (getV t d) (k - 8), 0))

/-- VREDADDF: from −0, ascending (R183). -/
def execVredaddf (d a : BitVec 5) (m : BitVec 3) (s : State) : Host.Outcome State Fault Refusal :=
  runT 4 { xw := some d, vs := [vnum a], gs := [m], rounds := true } s fun t =>
    let rs := rndOf t
    let sum := (enabledLanes t m).foldl (fun (acc : Nat × FFlags × Nat) i =>
      let y := addBits .fp32 (roundingOf rs acc.2.2) acc.1 (laneGet 32 (getV t a) i)
      (y.1, acc.2.1 ||| y.2, acc.2.2 + 1)) (0x80000000, 0, 0)
    .ok (setX (takeDraws t sum.2.2) d (wordOf sum.1)) sum.2.1

/-- VREDMAXF (R183). -/
def execVredmaxf (d a : BitVec 5) (m : BitVec 3) (s : State) : Host.Outcome State Fault Refusal :=
  reduceMinMax true d a m s

/-- VREDMINF (R183). -/
def execVredminf (d a : BitVec 5) (m : BitVec 3) (s : State) : Host.Outcome State Fault Refusal :=
  reduceMinMax false d a m s

/-- VREDADDI (R183). -/
def execVredaddi (d a : BitVec 5) (m : BitVec 3) (s : State) : Host.Outcome State Fault Refusal :=
  runT 4 { xw := some d, vs := [vnum a], gs := [m] } s fun t =>
    .ok (setX t d ((enabledLanes t m).foldl (fun n i => n + sextW (wordOf (laneGet 32 (getV t a) i)) 32) 0)) 0

/-- VMOV (R182). -/
def execVmov (d a : BitVec 5) (m : BitVec 3) (s : State) : Host.Outcome State Fault Refusal :=
  runT 4 { vs := [vnum d, vnum a], gs := [m] } s (laneOp 32 false d m fun t i _ => (laneGet 32 (getV t a) i, 0))

/-- VIOTA (R182). -/
def execViota (d a : BitVec 5) (m : BitVec 3) (s : State) : Host.Outcome State Fault Refusal :=
  runT 4 { xr := [a], vs := [vnum d], gs := [m] } s
    (laneOp 32 false d m fun t i _ => (fieldOf (getX t a + wordOf i) 0 32, 0))

/-- VCVT (R184). -/
def execVcvt (d a : BitVec 5) (m : BitVec 3) (t : BitVec 1) (dst src : BitVec 3) (s : State) : Host.Outcome State Fault Refusal :=
  vcvtOp d a m (t == 1) (vfmtOf src) (vfmtOf dst) s

end Sys2Proof.Machine
end

