-- ==== Sys2Proof/Machine/CompactFamily.lean ====
section
/-!
DEFINITION. The compact forms of R82 that act on the thread alone: each has the effect of its expansion, with length 2.
-/

namespace Sys2Proof.Machine

/-- MOV.C: OR x[d], x[s], x[s]. -/
def execMovC (d r : BitVec 5) (s : State) : Host.Outcome State Fault Refusal :=
  regReg 2 d r r (fun x y => x ||| y) s

/-- ADD.C. -/
def execAddC (d r : BitVec 5) (s : State) : Host.Outcome State Fault Refusal :=
  regReg 2 d d r (fun x y => x + y) s

/-- SUB.C. -/
def execSubC (d r : BitVec 5) (s : State) : Host.Outcome State Fault Refusal :=
  regReg 2 d d r (fun x y => x - y) s

/-- AND.C. -/
def execAndC (d r : BitVec 5) (s : State) : Host.Outcome State Fault Refusal :=
  regReg 2 d d r (fun x y => x &&& y) s

/-- OR.C. -/
def execOrC (d r : BitVec 5) (s : State) : Host.Outcome State Fault Refusal :=
  regReg 2 d d r (fun x y => x ||| y) s

/-- XOR.C. -/
def execXorC (d r : BitVec 5) (s : State) : Host.Outcome State Fault Refusal :=
  regReg 2 d d r (fun x y => x ^^^ y) s

/-- ADDI.C. -/
def execAddiC (d : BitVec 5) (i : BitVec 6) (s : State) : Host.Outcome State Fault Refusal :=
  regOne 2 d d (fun x => x + immWord i) s

/-- LI: x[d] := imm6 extended by sign (R82, R146). -/
def execLi (d : BitVec 5) (i : BitVec 6) (s : State) : Host.Outcome State Fault Refusal :=
  runT 2 { xw := some d } s fun t => .ok (setX t d (immWord i)) 0

/-- SLLI.C. -/
def execSlliC (d : BitVec 5) (h : BitVec 6) (s : State) : Host.Outcome State Fault Refusal :=
  regOne 2 d d (fun x => x <<< h.toNat) s

/-- SRLI.C. -/
def execSrliC (d : BitVec 5) (h : BitVec 6) (s : State) : Host.Outcome State Fault Refusal :=
  regOne 2 d d (fun x => x >>> h.toNat) s

/-- SRAI.C. -/
def execSraiC (d : BitVec 5) (h : BitVec 6) (s : State) : Host.Outcome State Fault Refusal :=
  regOne 2 d d (fun x => x.sshiftRight h.toNat) s

/-- BT.C: PC advances by 2 when not taken (R118). -/
def execBtC (t : BitVec 2) (g : BitVec 3) (s : State) : Host.Outcome State Fault Refusal :=
  branchThrough 2 t g true s

/-- BTN.C. -/
def execBtnC (t : BitVec 2) (g : BitVec 3) (s : State) : Host.Outcome State Fault Refusal :=
  branchThrough 2 t g false s

/-- VMOV.C. -/
def execVmovC (d r : BitVec 5) (s : State) : Host.Outcome State Fault Refusal :=
  runT 2 { vs := [vnum d, vnum r], gs := [7] } s (laneOp 32 false d 7 fun t i _ => (laneGet 32 (getV t r) i, 0))

/-- VADD.C: i32 lanes, all enabled. -/
def execVaddC (d r : BitVec 5) (s : State) : Host.Outcome State Fault Refusal :=
  vint2 2 0 d d r 7 laneAdd s

/-- VSUB.C: i32 lanes, all enabled. -/
def execVsubC (d r : BitVec 5) (s : State) : Host.Outcome State Fault Refusal :=
  vint2 2 0 d d r 7 laneSub s

/-- VAND.C: i32 lanes, all enabled. -/
def execVandC (d r : BitVec 5) (s : State) : Host.Outcome State Fault Refusal :=
  vint2 2 0 d d r 7 (fun _ p q => p &&& q) s

/-- VOR.C: i32 lanes, all enabled. -/
def execVorC (d r : BitVec 5) (s : State) : Host.Outcome State Fault Refusal :=
  vint2 2 0 d d r 7 (fun _ p q => p ||| q) s

/-- VXOR.C: i32 lanes, all enabled. -/
def execVxorC (d r : BitVec 5) (s : State) : Host.Outcome State Fault Refusal :=
  vint2 2 0 d d r 7 (fun _ p q => p ^^^ q) s

/-- VADDF.C, f32. -/
def execVaddfF32C (d r : BitVec 5) (s : State) : Host.Outcome State Fault Refusal :=
  vflt2 2 .fp32 true d d r 7 (addBits .fp32) s

/-- VADDF.C, f16. -/
def execVaddfF16C (d r : BitVec 5) (s : State) : Host.Outcome State Fault Refusal :=
  vflt2 2 .fp16 true d d r 7 (addBits .fp16) s

/-- VMULF.C, f32. -/
def execVmulfF32C (d r : BitVec 5) (s : State) : Host.Outcome State Fault Refusal :=
  vflt2 2 .fp32 true d d r 7 (mulBits .fp32) s

/-- VMULF.C, f16. -/
def execVmulfF16C (d r : BitVec 5) (s : State) : Host.Outcome State Fault Refusal :=
  vflt2 2 .fp16 true d d r 7 (mulBits .fp16) s

end Sys2Proof.Machine
end

