-- ==== Sys2Proof/Machine/ContextEvents.lean ====
section
/-!
DEFINITION. The steps of a context's life (R252): creation, pre-emption, saving and restoring, dumping, destruction.
-/

namespace Sys2Proof.Machine

/-- CONTEXT_CREATE: a record that breaks its rules is refused and reported (R252, R325). -/
def execContextCreate (record : BitVec 1024) (s : State) : Host.Outcome State Fault Refusal :=
  let num := recField record 144 16
  if !takesWork s || (getCtx? s num).isSome then .next s
  else
    let reason := recordReason s record
    if reason = 0 then .next (createContext s num record)
    else .next { s with status := { s.status with ctxref := true, refctx := BitVec.ofNat 16 num, refcode := BitVec.ofNat 8 reason } }

/-- PREEMPTION_REQUEST; during a resize it leaves the context HALTED when the resize ends (R255). -/
def execPreemptionRequest (ctx : Nat) (s : State) : Host.Outcome State Fault Refusal := .next (raiseEvent s ctx .preempt)

/-- HALT_SIGNAL. -/
def execHaltSignal (core : Nat) (s : State) : Host.Outcome State Fault Refusal :=
  match getCtx? s (ctxOf core) with
  | some c =>
    .next (if c.phase = .halting && (mapGet? s.cores core).isSome && !(getCore s core).halting then haltEngines s core else s)
  | none => .next s

/-- HALTING_COMPLETE: every core has halted and the network is drained (R253); a resize that halted the context goes on. -/
def execHaltingComplete (ctx : Nat) (s : State) : Host.Outcome State Fault Refusal :=
  match getCtx? s ctx with
  | some c =>
    let halted := s.cores.all fun p => ctxOf p.1 != ctx || coreHalted p.2
    let drained := s.net.all fun p => packetCtx p != ctx || packetHeld s p
    let c' := { c with phase := .halted }
    .next (if c.phase = .halting && halted && drained then (match c.resize with
      | some removed => resizeNow (setCtx s ctx c') ctx c' removed
      | none => setCtx s ctx c') else s)
  | none => .next s

/-- RESUME. -/
def execResume (ctx : Nat) (s : State) : Host.Outcome State Fault Refusal := .next (raiseEvent s ctx .resume)

/-- SAVE. -/
def execSave (ctx : Nat) (s : State) : Host.Outcome State Fault Refusal := .next (raiseEvent s ctx .save)

/-- RESTORE: the places are physical clusters, die * 1024 + py * 32 + px, one for each cluster of the grid by ascending
virtual index. -/
def execRestore (ctx : Nat) (places : List Nat) (s : State) : Host.Outcome State Fault Refusal :=
  match getCtx? s ctx with
  | some c =>
    let n := ctxGridW c * ctxGridH c
    let free := freeClusters s
    if c.phase ≠ .saved || places.length ≠ n || places.eraseDups.length ≠ n || !places.all free.contains then .next s
    else
      let s := places.zipIdx.foldl (fun s p => restoreCluster s ctx p.2 p.1) s
      .next (modCtx s ctx fun c => { c with phase := .halted })
  | none => .next s

/-- RESIZE: the clusters of the given virtual indices are removed. A RUNNING context is halted first, and the resize of a
HALTED one saves, maps anew and restores them, or saves the context where too few clusters are free (R255). -/
def execResize (ctx : Nat) (removed : List Nat) (s : State) : Host.Outcome State Fault Refusal :=
  .next (raiseEvent s ctx (.resize removed))

/-- DUMP: every placed cluster's image is written, every live launch is completed with DUMPED, one that overran with DEADLINE too, and the context is FAULTED (R304). -/
def execDump (ctx : Nat) (s : State) : Host.Outcome State Fault Refusal :=
  match getCtx? s ctx with
  | none => .next s
  | some c =>
    if c.phase ≠ .halted || !c.mustDump then .next s
    else
      let s := writeImages s ctx (placedIndices c)
      let live := c.launches.filter fun p =>
        (p.2.phase == .running || p.2.phase == .placing) && (c.frame.phase == .closed || p.1 != c.frame.launch.toNat)
      let s := live.foldl (fun s p =>
        let word := mapGet p.2.words nodeRoot 0 ||| statusDumped
          ||| (if c.reason = some causeDeadlineOverrun && overran c p then statusDeadline else 0)
        finishLaunch s ctx (BitVec.ofNat 32 p.1) word) s
      .next (modCtx s ctx fun c => { c with phase := .faulted })

/-- DESTROY. -/
def execDestroy (ctx : Nat) (s : State) : Host.Outcome State Fault Refusal :=
  match getCtx? s ctx with
  | some c => .next (destroyContext s ctx c)
  | none => .next s

end Sys2Proof.Machine
end

