-- ==== Sys2Proof/Machine/EngineUnit.lean ====
section
/-!
DEFINITION. What the two engines of a core share: queueing a command (R191, R109), the choice among heads (R15), power
leave (R201, R422), and status (R188, R214).
-/

namespace Sys2Proof.Machine

/-! ## Issue of a command (R191) -/

/-- The gate of a command as sampled at issue (R109). -/
def gateOf (t : Thread) (g : BitVec 3) (gs : BitVec 1) : Gate :=
  if (getG t g).pending then .await g.toNat (gs == 1) else if gateOpen t g gs then .go else .drop

/-- Whether the result guard that a command names is PENDING. -/
def resultPending (t : Thread) (d : Option (BitVec 3)) : Bool :=
  match d with
  | some d => (getG t d).pending
  | none => false

def pendResult (t : Thread) (d : Option (BitVec 3)) : Thread :=
  match d with
  | some d => pendG t d
  | none => t

/-- Steps 2 to 5 of R191 for a matrix command. Its issue is a release at CORE scope, which the start of its reference sequence acquires
(R193, R228): what the thread has posted is performed first (R231). -/
def queueMat (s : State) (op : MatOp) (g : BitVec 3) (gs : BitVec 1) (d : Option (BitVec 3)) (f : Thread → Thread) : Res :=
  let t := curThread s
  if t.matq.length ≥ 2 || resultPending t d then .stop s (.park .retry)
  else releasing s <|
    let cmd : MatCmd := ⟨op, gateOf t g gs, t.csr.specd, .none, false, false, 0, false⟩
    .ok (modCur s fun t => f (pendResult { t with matq := t.matq ++ [cmd] } d)) 0

/-- The same for a copy command (R207). -/
def queueCopy (s : State) (op : CopyOp) (scope len : Nat) (g : BitVec 3) (gs : BitVec 1) (d : Option (BitVec 3)) : Res :=
  let t := curThread s
  if t.copyq.length ≥ 2 || resultPending t d then .stop s (.park .retry)
  else releasing s <|
    let cmd : CopyCmd := ⟨op, gateOf t g gs, t.csr.specd, t.window, scope, len, 0, false, 0, 0, none, none, [], false, none, .none, 0, false⟩
    .ok (modCur s fun t => pendResult { t with copyq := t.copyq ++ [cmd] } d) 0

/-! ## Heads -/

/-- The slots in the order in which an engine looks at them: from the one after the slot served last (R15). -/
def slotOrder (served : Option Nat) : List Nat :=
  let start := match served with
    | some i => i + 1
    | none => 0
  (List.range 16).map fun i => (start + i) % 16

/-- Whether the engines of a core run: the context is RUNNING, or halts and the signal is still to reach the core (R418). -/
def engineRuns (s : State) (core : Nat) : Bool :=
  match getCtx? s (ctxOf core) with
  | some c => c.phase == .running || (c.phase == .halting && !(getCore s core).halting)
  | none => false

def matHead (c : Core) (i : Nat) : Option MatCmd := (coreSlot c (slotOf i)).matq.head?
def copyHead (c : Core) (i : Nat) : Option CopyCmd := (coreSlot c (slotOf i)).copyq.head?

/-- Change the head of a slot's queue. -/
def modMatHead (s : State) (r : Ref) (f : MatCmd → MatCmd) : State :=
  modRef s r fun t => match t.matq with
    | q :: rest => { t with matq := f q :: rest }
    | [] => t

def modCopyHead (s : State) (r : Ref) (f : CopyCmd → CopyCmd) : State :=
  modRef s r fun t => match t.copyq with
    | q :: rest => { t with copyq := f q :: rest }
    | [] => t

def gateWaits (g : Gate) : Bool :=
  match g with
  | .await _ _ => true
  | _ => false

/-! ## Power leave (R201, R422) -/

def leaveMma : Nat := 0
def leaveGang : Nat := 16
def leaveCopy : Nat := 32

/-- Ask for leave, once. -/
def askLeave (s : State) (r : Ref) (kind : Nat) : State :=
  modCluster s (clusterOf r.core) fun c => { c with leaveAsked := c.leaveAsked ++ [⟨r.core, r.slot + kind⟩] }

/-- A request or a grant is over. -/
def dropLeave (s : State) (r : Ref) (kind : Nat) : State :=
  let mine : Ref := ⟨r.core, r.slot + kind⟩
  modCluster s (clusterOf r.core) fun c =>
    { c with leaveAsked := c.leaveAsked.filter (· != mine), leaveHeld := c.leaveHeld.filter (· != mine) }

/-- The grants that a cluster admits at once under its die's level. -/
def leaveBudget (s : State) (cluster : Nat) : Nat := if (getDie s (dieOf s (firstCore cluster))).level.toNat ≤ 8 then 2 else 1

/-- The cb4 grant of an engine ends (R422). -/
def endCb4 (s : State) (core : Nat) : State :=
  let s := modCore s core fun c => { c with cb4Leave := false }
  modCluster s (clusterOf core) fun c => { c with leaveHeld := c.leaveHeld.filter fun r => !(r.core == core && decide (r.slot < 16)) }

/-- The oldest request of a cluster is granted, where its budget admits one more. -/
def grantLeave (s : State) (cluster : Nat) : Option State :=
  let cl := getCluster s cluster
  match cl.leaveAsked with
  | [] => none
  | r :: rest =>
    if cl.leaveHeld.length ≥ leaveBudget s cluster then none
    else
      let s := setCluster s cluster { cl with leaveAsked := rest, leaveHeld := cl.leaveHeld ++ [r] }
      let s := modDie s (dieOf s (firstCore cluster)) fun d => { d with grants := d.grants + 1 }
      let slot : Ref := ⟨r.core, r.slot % 16⟩
      some (if r.slot ≥ leaveCopy then modCopyHead s slot fun q => { q with leave := .granted }
        else
          let s := modMatHead s slot fun q => { q with leave := .granted }
          if r.slot < 16 then modCore s r.core fun c => { c with cb4Leave := true } else s)

/-! ## Status -/

/-- OR flags into `MATST`.FLAGS (R188). -/
def matFlags (t : Thread) (f : FFlags) : Thread :=
  { t with csr := { t.csr with matst := t.csr.matst ||| wordOf (f.toNat * 2 ^ 13) } }

def matCause (t : Thread) (c : BitVec 8) : Thread := { t with csr := { t.csr with matst := setField t.csr.matst 0 8 c.toNat } }

/-- DELIV, and of a failure CAUSE and FAILED (R214). -/
def copyStatus (t : Thread) (deliv : Nat) (fail : Option (BitVec 8)) : Thread :=
  let w := setField t.csr.copyst 0 32 deliv
  let w := match fail with
    | some c => setField (setField w 56 8 c.toNat) 35 1 1
    | none => w
  { t with csr := { t.csr with copyst := w } }

/-- Of two scopes that an acquire at a core is to cover, the one that reaches beyond its cluster. -/
def widerScope (s : State) (core a b : Nat) : Nat := if scopeInvalidates s core a then a else b

/-- An engine's write of a scratchpad at a core: bytes, then full bits, then what waits for them (R149, R121). -/
def engineWrite (s : State) (core : Nat) (bytes : SMap Byte) (fill : List Nat) : State :=
  let s := modCore s core fun c =>
    let whole (g : Nat) : Bool := (List.range 16).all fun i => (mapGet? bytes (16 * g + i)).isSome
    let c := { c with
      pool := bytes.foldl (fun m b => cellSet m b.1 b.2) c.pool
      poison := c.poison.filter fun g => !whole g }
    let c := if bytes.isEmpty then c else signalSlots c 16
    fill.foldl (fun c g => setFull c g true) c
  if fill.isEmpty then s else settleBits s core

end Sys2Proof.Machine
end

