-- ==== Sys2Proof/Machine/MatUnit.lean ====
section
/-!
DEFINITION. The matrix engine's arithmetic: latches (R186, R196), steps in BF16 (R44) and in blocks (R45, R46), and the
rows of a drain (R199).
-/

namespace Sys2Proof.Machine

/-- The element format of an engine format code (R187), as pages code it (R261). -/
def engineElem (code : Nat) : Nat :=
  match code with
  | 0 => 2
  | 1 => 4
  | 2 => 5
  | 3 => 6
  | _ => 7

/-- E of R189: the bytes of a row. -/
def rowBytes (code : Nat) : Nat := if code = 0 ∨ code = 4 then 16 else 32

/-- Add a product to an FP32 accumulator element with one rounding, RNE (R44). An invalid step raises NV, as FMA's does (log 147). -/
def fusedStep (acc : FVal) (a b : FVal) : FVal × FFlags :=
  let (v, f) := fmaNum rne a b acc
  let (n, g) := round .fp32 rne false (numExact v)
  (decodeNum .fp32 n, f ||| g)

/-- The exact sum of products, in RNE. -/
def sumNums (ps : List FVal) : FVal := ps.foldl (fun a p => (addNum rne a p).1) (.zero false)

/-- The contribution t of two blocks with their scales (R45, R46). -/
def blockContrib (as bs : List FVal) (sa sb : FVal) : FVal × FFlags :=
  let signalling := as.any numIsSNaN || bs.any numIsSNaN
  if as.any numIsNaN || bs.any numIsNaN || numIsNaN sa || numIsNaN sb then (.nan false, raiseIf signalling flagNV)
  else
    let ps := List.zipWith mulNum as bs
    let vals := ps.map (·.1)
    let infs := vals.filter numIsInf
    if ps.any (fun p => p.2 != 0) || (infs.any numNeg && infs.any fun v => !numNeg v) then (.nan false, flagNV)
    else match infs with
      | v :: _ => (v, 0)
      | [] =>
        let (x, _) := mulNum (mulNum (sumNums vals) sa).1 sb
        let (n, f) := round .fp32 rne false (numExact x)
        (decodeNum .fp32 n, f)

/-- acc := Round(acc + t, FP32, RNE, 0); an invalid step raises NV (log 147). -/
def addStep (acc t : FVal) : FVal × FFlags :=
  let (v, f) := addNum rne acc t
  let (n, g) := round .fp32 rne false (numExact v)
  (decodeNum .fp32 n, f ||| g)

/-- The elements of a latch row as values. -/
def latchRow (l : Latch) (i : Nat) : List FVal :=
  let F := engineElem l.fmt.toNat
  let data := (l.rows.get (Fin.ofNat 8 i)).toNat
  (List.range (if l.fmt = 0 then 8 else 32)).map fun k => elemNum F l.table (elemAt F data k)

def latchScale (l : Latch) (i : Nat) : FVal := scaleNum (l.scales.get (Fin.ofNat 8 i)).toNat

/-- One element of the tile after an MMA. -/
def mmaElem (a b : Latch) (i j : Nat) (acc : BitVec 32) : BitVec 32 × FFlags :=
  let (v, f) :=
    if a.fmt = 0 then
      (List.zip (latchRow a i) (latchRow b j)).foldl (fun x p =>
        let (v, f) := fusedStep x.1 p.1 p.2
        (v, x.2 ||| f)) (decodeNum .fp32 acc.toNat, 0)
    else
      let (t, f) := blockContrib (latchRow a i) (latchRow b j) (latchScale a i) (latchScale b j)
      let (v, g) := addStep (decodeNum .fp32 acc.toNat) t
      (v, f ||| g)
  (BitVec.ofNat 32 (round .fp32 rne false (numExact v)).1, f)

/-- Whether the latches' formats pair (R187). -/
def formatsPair (a b : Latch) : Bool := (a.fmt == 0) == (b.fmt == 0)

/-- R197 on latches and an accumulator: the accumulator and the flags. -/
def mmaStep (a b : Latch) (acc : Acc) : Acc × FFlags :=
  if acc.tag ≠ 0 then (acc, 0)
  else if !a.valid || !b.valid || !formatsPair a b then ({ acc with tag := causeMatState }, 0)
  else if a.poison || b.poison then ({ acc with tag := causePoisoned }, 0)
  else
    let cells := (List.range 64).map fun n => mmaElem a b (n / 8) (n % 8) (acc.tile.get (Fin.ofNat 64 n))
    ({ acc with tile := Vector.ofFn fun i : Fin 64 => (cells.getD i.val (0, 0)).1 }, cells.foldl (fun f c => f ||| c.2) 0)

/-- Load a latch from a scratchpad image (R196). -/
def loadLatch (s : State) (core off rows pitch : Nat) (idx : List Nat) (fmt cb : Nat) : Latch :=
  let c := getCore s core
  let e := rowBytes fmt
  let scaleOff (n : Nat) := off + rows * pitch + 2 * n
  let n (i : Nat) : Nat := idx.getD i 0
  let bad := (List.range 8).any fun i =>
    poolPoisoned c (off + n i * pitch) e || (fmt != 0 && poolPoisoned c (scaleOff (n i)) 2)
  let book := fmt == 4 && codebookPoisoned s (ctxOf core) cb
  { rows := Vector.ofFn fun i : Fin 8 => bytesVal 256 (poolBytes c (off + n i.val * pitch) e)
    table := if fmt = 4 then codebook s (ctxOf core) cb else 0
    scales := Vector.ofFn fun i : Fin 8 => if fmt = 0 then 0 else bytesVal 16 (poolBytes c (scaleOff (n i.val)) 2)
    fmt := BitVec.ofNat 8 fmt, valid := true, poison := bad || book }

/-! ## Gangs (R198) -/

/-- The four cores of a core's cluster row, the leader first (R198). -/
def gangRow (core : Nat) : List Nat := (List.range 4).map (· + core / 4 * 4)

/-- The gang offer of an engine: the slot whose head it offers. -/
def gangOffer (c : Core) : Option (Nat × MatCmd) :=
  (List.range 16).findSome? fun i => match matHead c i with
    | some q => if q.offered then some (i, q) else none
    | none => none

/-! ## Drains (R199) -/

def drainOff (w : Word) : Nat := fieldOf w 0 16
def drainPitch (w : Word) : Nat := fieldOf w 16 12
def drainFmt (w : Word) : Nat := fieldOf w 28 2
def drainClr (w : Word) : Bool := fieldOf w 30 1 = 1
/-- W of R199. -/
def drainWidth (w : Word) : Nat := if drainFmt w = 0 then 32 else 16
def drainEnd (w : Word) : Nat := drainOff w + 7 * drainPitch w + drainWidth w

def drainTo (df : Nat) : Fmt :=
  match df with
  | 0 => .fp32
  | 1 => .bf16
  | _ => .fp16

/-- Whether the drain word keeps R199. -/
def drainOk (w : Word) : Bool :=
  fieldOf w 31 33 == 0 && drainFmt w != 3 && drainPitch w % 16 == 0 && decide (drainPitch w ≥ drainWidth w) && drainOff w % 16 == 0

/-- The 64 elements of a drain, row-major, with their flags. -/
def drainElems (acc : Acc) (w : Word) (rnd : BitVec 3) (seed draw : Word) : List (Nat × FFlags) :=
  (List.range 64).map fun n =>
    convertFloat .fp32 (drainTo (drainFmt w)) (roundingOf ⟨rnd, seed, draw⟩ n) false (acc.tile.get (Fin.ofNat 64 n)).toNat

/-- The bytes of row i. -/
def drainRow (es : List (Nat × FFlags)) (w : Word) (i : Nat) : List Byte :=
  (List.range 8).flatMap fun j => leBytes (drainWidth w / 8) (es.getD (8 * i + j) (0, 0)).1

def drainFlags (es : List (Nat × FFlags)) : FFlags := es.foldl (fun f e => f ||| e.2) 0

/-- The drain as granules in row-major order: offset and bytes. -/
def drainGranules (es : List (Nat × FFlags)) (w : Word) : List (Nat × List Byte) :=
  (List.range 8).flatMap fun i =>
    let row := drainRow es w i
    (List.range (drainWidth w / 16)).map fun k => (drainOff w + i * drainPitch w + 16 * k, (row.drop (16 * k)).take 16)

def bytesAt (off : Nat) (bs : List Byte) : SMap Byte := bs.zipIdx.map fun p => (off + p.2, p.1)

end Sys2Proof.Machine
end

