-- ==== Sys2Proof/Machine/CopyUnit.lean ====
section
/-!
DEFINITION. The copy engine: what a command moves, piece by piece (R207 to R210), its reads and writes, full bits and bound
deliveries (R211, R215), and how a command fails, is held, and ends (R213, R214).
-/

namespace Sys2Proof.Machine

/-! ## Places and plans -/

/-- A place that bytes are read from or written to: a scratchpad offset of a core, a VA, or the scale container of the
block at a VA. -/
inductive Loc where
  | pool (core off : Nat)
  | va (addr : Nat)
  | scale (addr : Nat)
deriving DecidableEq, Repr

def Loc.move (l : Loc) (k : Int) : Loc :=
  match l with
  | .pool c off => .pool c (off + k).toNat
  | .va a => .va (a + k).toNat
  | .scale a => .scale (a + k).toNat

/-- How far a place lies from the start of its 64-byte line. -/
def Loc.low : Loc → Nat
  | .pool _ off => off % 64
  | .va a => a % 64
  | .scale _ => 0

/-- The place of an address with its captured descriptor, for a thread of a core. -/
def endLoc (core : Nat) (e : CopyEnd) : Loc :=
  let a := segBase e.seg + e.off
  if segKind e.seg = kindGlobal then .va a
  else if segKind e.seg = kindCore then .pool (coreKey (ctxOf core) (segTarget e.seg)) a
  else .pool core a

/-- One dimension of a tensor: COUNT, SSTRIDE, DSTRIDE. -/
abbrev Dim := Nat × Int × Int

/-- What a command moves. -/
inductive Plan where
  | flat (len : Nat) (src dst : Loc)
  | raw (esize : Nat) (dims : List Dim) (src dst : Loc)
  /-- DECODE (`out`) and ENCODE: engine format, rows, stride of the page's rows, pitch of the image. -/
  | tile (out : Bool) (fmt rows : Nat) (stride : Int) (pitch page : Nat) (image : Loc)

def Plan.total : Plan → Nat
  | .flat len _ _ => len
  | .raw e dims _ _ => dims.foldl (fun n d => n * d.1) e
  | .tile _ fmt rows _ _ _ _ => rows * rowBytes fmt + (if fmt = 0 then 0 else 2 * rows)

/-- A run of bytes that move together. -/
structure Piece where
  src : Loc
  dst : Loc
  len : Nat

/-- The offsets of an element by its number, innermost dimension fastest (R209). -/
def elemOffsets : List Dim → Nat → Int × Int
  | [], _ => (0, 0)
  | (n, s, d) :: rest, i =>
    let (a, b) := elemOffsets rest (i / n)
    (a + s * (i % n : Nat), b + d * (i % n : Nat))

/-- The piece that starts at byte i of a command's order, within lines of both sides. -/
def Plan.piece (p : Plan) (i : Nat) : Piece :=
  let cut (src dst : Loc) (n : Nat) : Piece := ⟨src, dst, Nat.min n (Nat.min (64 - src.low) (64 - dst.low))⟩
  match p with
  | .flat len src dst => cut (src.move i) (dst.move i) (len - i)
  | .raw e dims src dst =>
    let (a, b) := elemOffsets dims (i / e)
    cut (src.move (a + (i % e : Nat))) (dst.move (b + (i % e : Nat))) (e - i % e)
  | .tile out fmt rows stride pitch page image =>
    let e := rowBytes fmt
    let body := rows * e
    let (n, k) := if i < body then (i / e, i % e) else ((i - body) / 2, (i - body) % 2)
    let row : Int := page + stride * n
    let mem : Loc := if i < body then .va (row + k).toNat else .scale row.toNat
    let img : Loc := image.move (if i < body then n * pitch + k else rows * pitch + 2 * n)
    let len := if i < body then e - k else 2
    if out then cut mem img len else cut img mem len

/-- The pieces of the bytes from i on, `n` of them. -/
def Plan.pieces (p : Plan) (i n : Nat) : Nat → List Piece
  | 0 => []
  | fuel + 1 =>
    if n = 0 then []
    else
      let x := p.piece i
      let k := Nat.min x.len n
      { x with len := k } :: p.pieces (i + k) (n - k) fuel

/-- The scratchpad offsets that the bytes below i write. -/
def Plan.written (p : Plan) (i : Nat) (a : Nat) : Bool :=
  match p with
  | .flat _ _ (.pool _ off) => decide (off ≤ a) && decide (a < off + i)
  | _ => (p.pieces 0 i i).any fun x => match x.dst with
    | .pool _ off => decide (off ≤ a) && decide (a < off + x.len)
    | _ => false

/-- Granules whose sixteen bytes are in the footprint and have now all been written, and were not before (R215 step 3). -/
def Plan.filled (p : Plan) (i n : Nat) (touched : List Nat) : List Nat :=
  touched.eraseDups.filter fun g =>
    let whole (k : Nat) : Bool := (List.range 16).all fun j => p.written k (16 * g + j)
    whole (i + n) && !whole i

/-! ## Stops of a command -/

/-- Why a chunk goes no further: a failure (R213), or a page fault that holds the command. -/
inductive CopyStop where
  | fail (c : BitVec 8)
  | hold (va kind : Nat) (cause found : BitVec 8)
deriving DecidableEq, Repr

def copyStop : Stop → CopyStop
  | .trap c _ => .fail c
  | .fault va k c f => .hold va k c f
  | .park _ => .fail causeCopyOperand

/-- The engine's view: its thread's, with the tag and the window captured at issue (R191, R383). -/
def copyView (s : State) (r : Ref) (q : CopyCmd) : View := { threadView r.core (refThread s r) with tag := q.specd, window := q.window }

/-- Translate for a tile: the page must have the tile's format (R209). -/
def tilePage (s : State) (v : View) (va kind fmt : Nat) : Except CopyStop (State × Leaf × Nat) :=
  match translate s v.core va kind v.sys with
  | .error (_, e) => .error (copyStop e)
  | .ok (s, l, pa) => if pteFmt l.fmt = engineElem fmt then .ok (s, l, pa) else .error (.fail causeCopyFormat)

/-- The core that answers for the source bytes of a command by its message slot: that of a CORE source, or another core with the
buffer of a CPYH (R149). -/
def CopyCmd.asks (core : Nat) (q : CopyCmd) : Option Nat :=
  let far (e : CopyEnd) : Option Nat := if segKind e.seg = kindCore then some (coreKey (ctxOf core) (segTarget e.seg)) else none
  match q.op with
  | .plain src _ _ => far src
  | .tensor _ _ src _ => far src
  | .multi _ src _ => far src
  | .handle _ true addr _ => far addr
  | .handle ref false _ _ => let home := refHome (ctxOf core) ref; if home = core then none else some home
  | .wait _ => none

/-- Whether the engine is at a chunk of a command, whose bytes it has asked for or sent, or at the faults of a bound one that has
failed: the engine's turn is over once they have been performed (R207, R215). -/
def CopyCmd.inTurn (q : CopyCmd) : Bool := q.fetch.isSome || q.flight != 0

/-- Read a piece's source bytes; `fmt` is a tile's format. -/
def copyRead (s : State) (v : View) (l : Loc) (n : Nat) (fmt : Option Nat) : Except CopyStop (State × List Byte) :=
  match l with
  | .pool core off =>
    if poolPoisoned (getCore s core) off n then .error (.fail causePoisoned) else .ok (s, poolBytes (getCore s core) off n)
  | .va a =>
    match (match fmt with
      | some f => tilePage s v a accCopyRead f
      | none => .ok (s, ⟨0, 0, 0, false⟩, 0)) with
    | .error e => .error e
    | .ok _ => match viewRead s v a n accCopyRead with
      | .error (_, e) => .error (copyStop e)
      | .ok (s, _, bs) => .ok (s, bs)
  | .scale a =>
    match tilePage s v a accCopyRead (fmt.getD 0) with
    | .error e => .error e
    | .ok (s, l, pa) =>
      match scaleRead s v l a pa with
      | .error e => .error (copyStop e)
      | .ok (s, bs) => .ok (s, bs.take n)

/-- Write a piece's bytes to main memory. -/
def copyWrite (s : State) (v : View) (l : Loc) (bs : List Byte) (fmt : Option Nat) : Except CopyStop State :=
  match l with
  | .pool _ _ => .ok s
  | .va a =>
    match (match fmt with
      | some f => tilePage s v a accCopyWrite f
      | none => .ok (s, ⟨0, 0, 0, false⟩, 0)) with
    | .error e => .error e
    | .ok _ => match viewWrite s v a accCopyWrite fmt.isSome bs with
      | .error (_, e) => .error (copyStop e)
      | .ok s => .ok s
  | .scale a =>
    match tilePage s v a accCopyWrite (fmt.getD 0) with
    | .error e => .error e
    | .ok (s, l, _) =>
      match scaleWrite s v l a bs with
      | .error e => .error (copyStop e)
      | .ok s => .ok s

/-- Read every source byte of a chunk. -/
def readPieces (s : State) (v : View) (fmt : Option Nat) : List Piece → Except CopyStop (State × List (List Byte))
  | [] => .ok (s, [])
  | p :: ps =>
    match copyRead s v p.src p.len fmt with
    | .error e => .error e
    | .ok (s, bs) => match readPieces s v fmt ps with
      | .error e => .error e
      | .ok (s, rest) => .ok (s, bs :: rest)

/-- The same from bytes that the source's owner has sent. -/
def cutPieces : List Piece → List Byte → List (List Byte)
  | [], _ => []
  | p :: ps, bs => bs.take p.len :: cutPieces ps (bs.drop p.len)

/-- The runs of a chunk's source in a scratchpad. -/
def sourceRuns (ps : List Piece) : List (Nat × Nat) :=
  ps.filterMap fun p => match p.src with
    | .pool _ off => some (off, p.len)
    | _ => none

/-- Write the chunk's bytes to main memory. -/
def writePieces (s : State) (v : View) (fmt : Option Nat) : List (Piece × List Byte) → Except CopyStop State
  | [] => .ok s
  | (p, bs) :: ps =>
    match copyWrite s v p.dst bs fmt with
    | .error e => .error e
    | .ok s => writePieces s v fmt ps

/-- The scratchpad bytes of a chunk: a later piece wins (R209). -/
def poolPieces (ps : List (Piece × List Byte)) : SMap Byte :=
  ps.foldl (fun m p => match p.1.dst with
    | .pool _ off => p.2.zipIdx.foldl (fun m b => mapSet m (off + b.2) b.1) m
    | _ => m) []

/-! ## Chunks at a scratchpad -/

/-- A chunk's writes, full bits and debt at a core (R215 steps 3 and 4); 0 bytes of debt are the fault of a bound command. -/
def applyChunk (s : State) (core : Nat) (bytes : SMap Byte) (fill : List Nat) (debt : Option (Nat × Nat)) : State :=
  let s := engineWrite s core bytes fill
  match debt with
  | some (moff, 0) => musterFail s core moff
  | some (moff, n) => musterDebt s core moff n
  | none => s

/-! ## The words of commands -/

def copySeg (w : Word) : BitVec 3 := BitVec.ofNat 3 (fieldOf w 61 3)
def copyOff (w : Word) : Nat := fieldOf w 0 56
def copyDir (w : Word) : Bool := fieldOf w 60 1 = 1

/-- Fields of the multicast word (R210). -/
def castMoff (w : Word) : Nat := fieldOf w 34 16
def castBind (w : Word) : Bool := fieldOf w 33 1 = 1
def castParty (w : Word) : Bool := fieldOf w 32 1 = 1
def castSet (w : Word) : Nat := fieldOf w 16 16
def castOff (w : Word) : Nat := fieldOf w 0 16

/-- The targets of a CPYM, as the command starts, in ascending packed coordinate. -/
def castTargets (s : State) (core : Nat) (w : Word) : List Nat :=
  if castParty w then
    let p := castSet w % 4096
    let keys := (partyClusters s (ctxOf core) p).flatMap fun num =>
      let base := coreKey (ctxOf core) (num % 256 * 4096 + num / 256 * 16)
      (List.range 16).filterMap fun k => if (partyCounts s base p).getD k 0 > 0 then some (base + k) else none
    keys.mergeSort fun a b => decide (a ≤ b)
  else (List.range 16).filterMap fun k => if castSet w / 2 ^ k % 2 = 1 then some (firstCore (clusterOf core) + k) else none

/-! ## The tensor descriptor (R208) -/

def descField (d : List Byte) (off n : Nat) : Nat := leNat ((d.drop off).take n)
def descSigned (d : List Byte) (off : Nat) : Int := toSigned 48 (descField d off 6)
def descNdim (d : List Byte) : Nat := descField d 16 1
def descMode (d : List Byte) : Nat := descField d 17 1
def descBind (d : List Byte) : Bool := descField d 19 1 % 2 = 1
def descMoff (d : List Byte) : Nat := descField d 20 2
def descDims (d : List Byte) : List Dim :=
  (List.range (descNdim d)).map fun e =>
    (descField d (32 + 16 * e) 4, descSigned d (36 + 16 * e), descSigned d (42 + 16 * e))

/-- The fields within their limits, and the bytes that must be zero; what MOFF holds without BIND, and the entries past NDIM, are
reserved and carry nothing (R3). -/
def descOk (s : State) (ctx : Nat) (d : List Byte) : Bool :=
  let mode := descMode d
  let addr (off : Nat) : Bool := fieldOf (wordOf (descField d off 8)) 56 5 == 0
  addr 0 && addr 8 && decide (1 ≤ descNdim d) && decide (descNdim d ≤ 14) && decide (mode < 3) && (mode == 0 || descNdim d == 2)
    && (if mode == 0 then [1, 2, 4, 8, 16].contains (descField d 18 1) else descField d 18 1 == 0)
    && decide (descField d 19 1 < 2) && (!descBind d || descMoff d % 16 == 0)
    && decide (descField d 22 1 < 32) && scopeDefined s ctx (descField d 22 1)
    && descField d 23 9 == 0 && (descDims d).all (fun x => decide (1 ≤ x.1))

/-- Least and greatest element offsets of one side. -/
def sideBounds (dims : List (Nat × Int)) : Int × Int :=
  dims.foldl (fun b d =>
    let k := d.2 * ((d.1 : Int) - 1)
    if k < 0 then (b.1 + k, b.2) else (b.1, b.2 + k)) (0, 0)

/-- R205 on a footprint of `z` bytes at the extremes of an end: the cause where it fails. -/
def footprint (sp : Nat) (e : CopyEnd) (sg : BitVec 3) (lo hi : Int) (z need : Nat) : Option (BitVec 8) :=
  let from_ : Int := e.off + lo
  if from_ < 0 then some (causeSegLimit sg.toNat)
  else match segCheckWith sp e.seg sg.toNat (wordOf from_.toNat) ((hi - lo).toNat + z) need false false with
    | .error (.trap c _) => some c
    | .error _ => some causeCopyOperand
    | .ok _ => none

/-- The plan of a tensor command, with a tile's engine format. -/
def tensorPlan (core fmt : Nat) (d : List Byte) (src dst : CopyEnd) : Plan :=
  let dims := descDims d
  if descMode d = 0 then .raw (descField d 18 1) dims (endLoc core src) (endLoc core dst)
  else
    let out := descMode d = 1
    let page := if out then src else dst
    let image := if out then dst else src
    let (rows, s1, d1) := dims.getD 1 (0, 0, 0)
    .tile out fmt rows (if out then s1 else d1) (if out then d1 else s1).toNat (segBase page.seg + page.off) (endLoc core image)

/-- The engine format of a tile, that of its first page, once its geometry is right (R209). -/
def tileFormat (s : State) (v : View) (d : List Byte) (src dst : CopyEnd) : Except CopyStop Nat :=
  let out := descMode d = 1
  let dims := descDims d
  let page := if out then src else dst
  let image := if out then dst else src
  let (k, s0, d0) := dims.getD 0 (0, 0, 0)
  let (rows, s1, d1) := dims.getD 1 (0, 0, 0)
  let stride := if out then s1 else d1
  let pitch := if out then d1 else s1
  if segKind page.seg ≠ kindGlobal ∨ segKind image.seg = kindGlobal then .error (.fail causeCopyOperand)
  else
    let va := segBase page.seg + page.off
    match translate s v.core va (if out then accCopyRead else accCopyWrite) v.sys with
    | .error (_, e) => .error (copyStop e)
    | .ok (_, l, _) =>
      match (List.range 5).find? fun c => engineElem c == pteFmt l.fmt with
      | none => .error (.fail causeCopyFormat)
      | some fmt =>
        let e := rowBytes fmt
        let aligned := (List.range rows).all fun n =>
          let a := (va + stride * n).toNat
          if fmt = 0 then a % 16 == 0 else a % e == 0
        if k ≠ (if fmt = 0 then 8 else 32) ∨ s0 ≠ 0 ∨ d0 ≠ 0 ∨ !aligned ∨ image.off % 16 ≠ 0 ∨ pitch % 16 ≠ 0 ∨ pitch < e then
          .error (.fail causeCopyOperand)
        else .ok fmt

/-- The plan of a started command. -/
def copyPlan (s : State) (r : Ref) (q : CopyCmd) : Plan :=
  match q.op with
  | .plain src dst _ => .flat q.len (endLoc r.core src) (endLoc r.core dst)
  | .tensor _ bytes src dst => tensorPlan r.core q.format bytes src dst
  | .multi w src _ => .flat q.len (endLoc r.core src) (.pool r.core (castOff w))
  | .handle ref toBuffer addr boff =>
    let home := refHome (ctxOf r.core) ref
    let buf : Loc := .pool home ((getHandle s home (refIndex ref)).base + boff)
    let mem := endLoc r.core addr
    if toBuffer then .flat q.len mem buf else .flat q.len buf mem
  | .wait _ => .flat 0 (.va 0) (.va 0)

/-- The format of a tile. -/
def Plan.format : Plan → Option Nat
  | .tile _ fmt _ _ _ _ _ => some fmt
  | _ => none

/-- The muster of a bound command. -/
def boundTo (q : CopyCmd) : Option Nat :=
  match q.op with
  | .plain _ _ m => m
  | .tensor _ bytes _ _ => if descBind bytes then some (descMoff bytes) else none
  | .multi w _ _ => if castBind w then some (castMoff w) else none
  | _ => none

/-- The cores whose scratchpads a command writes. -/
def Plan.dstCore : Plan → Option Nat
  | .flat _ _ (.pool c _) => some c
  | .raw _ _ _ (.pool c _) => some c
  | .tile true _ _ _ _ _ (.pool c _) => some c
  | _ => none

def Plan.srcPool : Plan → Option (Nat × Nat)
  | .flat len (.pool c off) _ => some (c, off + len)
  | .raw e dims (.pool c off) _ => some (c, (off + (sideBounds (dims.map fun d => (d.1, d.2.1))).2).toNat + e)
  | .tile false fmt rows _ pitch _ (.pool c off) => some (c, off + rows * pitch + (if fmt = 0 then 0 else 2 * rows))
  | _ => none

/-- The end of the destination range in a scratchpad. -/
def Plan.dstEnd : Plan → Nat
  | .flat len _ (.pool _ off) => off + len
  | .raw e dims _ (.pool _ off) => (off + (sideBounds (dims.map fun d => (d.1, d.2.2))).2).toNat + e
  | .tile true fmt rows _ pitch _ (.pool _ off) => off + rows * pitch + (if fmt = 0 then 0 else 2 * rows)
  | _ => 0

/-! ## The end of a command -/

/-- The cores at which a command's deliveries are bound: those of its destination, though it has failed before it moved a byte. -/
def boundCores (r : Ref) (q : CopyCmd) : List Nat :=
  let at_ (e : CopyEnd) : List Nat := match endLoc r.core e with
    | .pool k _ => [k]
    | _ => []
  match q.op with
  | .multi _ _ ts => ts
  | .plain _ dst _ => at_ dst
  | .tensor _ _ _ dst => at_ dst
  | _ => []

/-- A chunk goes to another core, and is in flight until the word of its arrival. -/
def sendChunk (s : State) (r : Ref) (k : Nat) (bytes : SMap Byte) (fill : List Nat) (debt : Option (Nat × Nat)) (check : Nat) : State :=
  modCopyHead (send s (.chunk r k 0 bytes fill debt check)) r fun q => { q with flight := q.flight + 1 }

/-- The muster fault that a bound command's failure sets at its destinations, once (R211); a MOFF off its alignment, itself the
failure, names no muster (log 119). -/
def failBound (s : State) (r : Ref) (q : CopyCmd) : State :=
  let s := modCopyHead s r fun q => { q with faulted := true }
  match boundTo q with
  | none => s
  | some moff =>
    if moff % 16 ≠ 0 then s
    else (boundCores r q).foldl (fun s k =>
      if k = r.core then applyChunk s k [] [] (some (moff, 0)) else sendChunk s r k [] [] (some (moff, 0)) 0) s

/-- What a command has failed by, if it has (R213). -/
def CopyCmd.fails (q : CopyCmd) : Option (BitVec 8) :=
  if q.failed.isSome then q.failed else if q.refused.isEmpty then none else some causeCopyRemote

/-- A command completes or fails (R214): status, pins, leave; the queue goes on. -/
def endCopy (s : State) (r : Ref) (q : CopyCmd) : State :=
  let deliv := match q.op with
    | .multi _ _ ts => if ts.isEmpty || !q.refused.isEmpty then 0 else q.pos
    | _ => if q.refused.isEmpty then q.pos else 0
  let s := match q.op with
    | .handle ref _ _ _ => if q.pinned then unpinHandle s (refHome (ctxOf r.core) ref) (refIndex ref) else s
    | _ => s
  let s := if q.leave == .none then s else dropLeave s r leaveCopy
  modRef s r fun t => copyStatus { t with copyq := t.copyq.tail, copyScope := widerScope s r.core t.copyScope q.scope } deliv q.fails

/-- End the head of a slot once nothing of it is in flight: it has failed, or its bytes are all moved. A failure reaches the muster of
a bound command before `COPYST` (R215 steps 4 and 6). -/
def settleCopy (s : State) (r : Ref) : State :=
  match copyHead (getCore s r.core) r.slot with
  | none => s
  | some q =>
    if !q.started || q.flight ≠ 0 then s
    else
      let remote := match q.op with
        | .multi _ _ ts => decide (q.refused.length == ts.length) && !q.refused.isEmpty
        | _ => !q.refused.isEmpty
      let all := decide (q.pos ≥ (copyPlan s r q).total)
      let none_ := match q.op with
        | .multi _ _ [] => true
        | _ => false
      if !(q.failed.isSome || remote || all || none_) then s
      else if q.fails.isSome && !q.faulted then
        let s := failBound s r q
        match copyHead (getCore s r.core) r.slot with
        | some q => if q.flight ≠ 0 then s else endCopy s r q
        | none => s
      else endCopy s r q

/-- A chunk arrives at its target core: the check of the range, its writes, and the word back to its engine (R213, R215). -/
def performChunk (s : State) (src : Ref) (dst : Nat) (bytes : SMap Byte) (fill : List Nat) (debt : Option (Nat × Nat)) (check : Nat) : State :=
  let fits := decide (check ≤ scratchSize (getCore s dst).part)
  let s := if fits then applyChunk s dst bytes fill debt else s
  let s := modCopyHead s src fun q =>
    { q with flight := q.flight - 1, refused := if fits then q.refused else if q.refused.contains dst then q.refused else q.refused ++ [dst] }
  settleCopy s src

/-- A command stops: it fails, or a page fault is recorded and holds it, and the chunk's source is read again (R213). -/
def stopCopy (s : State) (r : Ref) (e : CopyStop) : State :=
  match e with
  | .fail c => settleCopy (modCopyHead s r fun q => { q with started := true, failed := some c }) r
  | .hold va kind c found =>
    modCopyHead (recordFault s r.core r.slot va kind c found) r fun q => { q with held := some va, fetch := none }

/-- The bytes that an engine has asked for arrive; those of a command that has stopped at its checkpoint since it asked are discarded
(R216). -/
def performSource (s : State) (r : Ref) (tag : Nat) (data : Except (BitVec 8) (List Byte)) : State :=
  match copyHead (getCore s r.core) r.slot with
  | none => s
  | some q =>
    if q.fetch ≠ some none ∨ q.asked ≠ tag then s
    else match data with
      | .ok bs => modCopyHead s r fun q => { q with fetch := some (some bs) }
      | .error c => stopCopy (modCopyHead s r fun q => { q with fetch := none }) r (.fail c)

end Sys2Proof.Machine
end

