-- ==== Sys2Proof/Machine/CopyEvents.lean ====
section
/-!
DEFINITION. The steps of the copy engine: one chunk of the next head (R207), and the end of a CWAIT (R212).
-/

namespace Sys2Proof.Machine

def isMulti (q : CopyCmd) : Bool :=
  match q.op with
  | .multi _ _ _ => true
  | _ => false

def isCwait (q : CopyCmd) : Bool :=
  match q.op with
  | .wait _ => true
  | _ => false

/-- Whether a head can be served: a CWAIT, or a copy with a chunk to move, that is not behind its gate, held, waiting for leave or for
its source's bytes, or with bytes in flight. -/
def copyReady (q : CopyCmd) : Bool :=
  !gateWaits q.gate && q.held.isNone && q.leave != .asked && q.fetch != some none && q.flight == 0
    && (isCwait q || q.gate == .drop || !q.started || (q.failed.isNone && decide (q.pos < q.len) && match q.op with
      | .multi _ _ ts => decide (q.refused.length < ts.length)
      | _ => q.refused.isEmpty))

/-- The slot whose head the copy engine serves next (R15): the one whose turn it is until that turn's chunk has been performed, so that
each turn moves one chunk and the chunks follow one another where source and destination overlap (R207). -/
def copyNext (s : State) (core : Nat) : Option Nat :=
  let c := getCore s core
  let ready (i : Nat) : Bool := match copyHead c i with
    | some q => copyReady q
    | none => false
  let turn (i : Nat) : Bool := match copyHead c i with
    | some q => q.inTurn
    | none => false
  if !engineRuns s core then none
  else match (List.range 16).find? turn with
    | some i => if ready i then some i else none
    | none => (slotOrder c.copyServed).find? ready

/-! ## Starting a command -/

/-- CPYT's start: the descriptor is read and the ends captured, once, and then they and both footprints are checked (R208, R209),
in the order of log 159. -/
def startTensor (s : State) (r : Ref) (q : CopyCmd) (desc : Nat) (bytes : List Byte) : CopyCmd × Option CopyStop :=
  let c := getCore s r.core
  let t := refThread s r
  let sp := scratchSize c.part
  if bytes.isEmpty && poolPoisoned c desc 256 then (q, some (.fail causePoisoned))
  else
    let d := if bytes.isEmpty then poolBytes c desc 256 else bytes
    let ws := wordOf (descField d 0 8)
    let wd := wordOf (descField d 8 8)
    let (src, dst) : CopyEnd × CopyEnd := match q.op with
      | .tensor _ (_ :: _) src dst => (src, dst)
      | _ => (⟨getSeg t (copySeg ws), copyOff ws⟩, ⟨getSeg t (copySeg wd), copyOff wd⟩)
    let q := { q with op := .tensor desc d src dst, scope := descField d 22 1 % 32 }
    let bad (c : BitVec 8) : CopyCmd × Option CopyStop := (q, some (.fail c))
    let check (lo hi : Int) (zs : Nat) (lo' hi' : Int) (zd : Nat) : Option (BitVec 8) :=
      (footprint sp src (copySeg ws) lo hi zs needR).orElse fun _ => footprint sp dst (copySeg wd) lo' hi' zd needW
    if !descOk s (ctxOf r.core) d then bad causeCopyOperand
    else match check 0 0 1 0 0 1 with
      | some c => bad c
      | none =>
        if descBind d && segKind dst.seg == kindGlobal then bad causeCopyOperand
        else match (if descMode d = 0 then .ok 0 else tileFormat s (copyView s r q) d src dst) with
          | .error (.hold va k c f) => ({ q with started := false }, some (.hold va k c f))
          | .error e => (q, some e)
          | .ok fmt =>
            let q := { q with format := fmt }
            let p := copyPlan s r q
            let bounds := match p with
              | .tile out fmt rows stride pitch _ _ =>
                let k : Int := stride * ((rows : Int) - 1)
                let image : Nat := rows * pitch + (if fmt = 0 then 0 else 2 * rows)
                let page := (min 0 k, max 0 k, rowBytes fmt)
                if out then check page.1 page.2.1 page.2.2 0 0 image else check 0 0 image page.1 page.2.1 page.2.2
              | .raw e dims _ _ =>
                let a := sideBounds (dims.map fun (x : Dim) => (x.1, x.2.1))
                let b := sideBounds (dims.map fun (x : Dim) => (x.1, x.2.2))
                check a.1 a.2 e b.1 b.2 e
              | _ => none
            match bounds with
            | some c => bad c
            | none => if p.total > 2 ^ 31 then bad causeCopyOperand else ({ q with len := p.total }, none)

/-- A command starts (R207): the descriptor, the pin of a handle, the targets. The command comes with what stops it, if anything. -/
def startCopy (s : State) (r : Ref) (q : CopyCmd) : State × CopyCmd × Option CopyStop :=
  let q := { q with started := true }
  match q.op with
  | .tensor desc bytes _ _ => (s, startTensor s r q desc bytes)
  | .multi w src _ => (s, { q with op := .multi w src (castTargets s r.core w) }, none)
  | .handle ref _ _ boff =>
    match liveHandle s (ctxOf r.core) ref with
    | none => (s, q, some (.fail causeHandleStale))
    | some (core, i, h) =>
      (setHandle s core i { h with pins := h.pins + 1 }, { q with pinned := true },
        if boff + q.len > h.size then some (.fail causeCopyOperand) else none)
  | _ => (s, q, none)

/-! ## Chunks -/

/-- Whether a source on the engine's own core lies within its SP; the owner of another looks for itself (R213). -/
def sourceFits (s : State) (r : Ref) (p : Plan) : Bool :=
  match p.srcPool with
  | some (core, e) => core != r.core || decide (e ≤ scratchSize (getCore s core).part)
  | none => true

/-- The same of a destination on the engine's own core; another core looks for itself (`performChunk`). -/
def destFits (s : State) (r : Ref) (p : Plan) : Bool :=
  p.dstCore != some r.core || decide (p.dstEnd ≤ scratchSize (getCore s r.core).part)

/-- The source bytes of a chunk: read, or those that the source's owner has sent. -/
def chunkData (s : State) (v : View) (q : CopyCmd) (p : Plan) (ps : List Piece) : Except CopyStop (State × List (List Byte)) :=
  match q.fetch with
  | some (some bs) => .ok (s, cutPieces ps bs)
  | _ => readPieces s v p.format ps

/-- The state after one chunk of a started command (R215 steps 3 and 4). -/
def chunkOf (s : State) (r : Ref) (q : CopyCmd) (p : Plan) : Except CopyStop State :=
  let n := Nat.min 256 (p.total - q.pos)
  let v := copyView s r q
  let ps := p.pieces q.pos n n
  if !sourceFits s r p || !(isMulti q || destFits s r p) then .error (.fail causeCopyRemote)
  else match chunkData s v q p ps with
    | .error e => .error e
    | .ok (s, data) =>
      let moved := List.zip ps data
      match writePieces s v p.format moved with
      | .error e => .error e
      | .ok s =>
        let bytes := poolPieces moved
        let fill := p.filled q.pos n (bytes.map fun b => b.1 / 16)
        let debt := (boundTo q).map fun m => (m, n)
        let sendTo (s : State) (k : Nat) : State := sendChunk s r k bytes fill debt p.dstEnd
        let moveOn (s : State) : State := modCopyHead s r fun q => { q with pos := q.pos + n, fetch := none }
        match q.op with
        | .multi _ _ ts => .ok (moveOn ((ts.filter fun k => !q.refused.contains k).foldl sendTo s))
        | _ => match p.dstCore with
          | none => .ok (moveOn s)
          | some k => if k = r.core then .ok (moveOn (applyChunk s k bytes fill debt)) else .ok (moveOn (sendTo s k))

/-- The next chunk's source bytes are asked of their owner, whose message slot reads them in its order (R149). -/
def askSource (s : State) (r : Ref) (q : CopyCmd) (p : Plan) (owner : Nat) : State :=
  let n := Nat.min 256 (p.total - q.pos)
  let check := match p.srcPool with
    | some (_, e) => e
    | none => 0
  let tag := (getCore s r.core).sourceAsks + 1
  let s := modCore s r.core fun c => { c with sourceAsks := tag }
  modCopyHead (send s (.request owner ⟨r, .source (sourceRuns (p.pieces q.pos n n)) check tag⟩)) r fun q =>
    { q with fetch := some none, asked := tag }

/-- The next chunk of a started command, or first the request for its bytes. -/
def nextChunk (s : State) (r : Ref) (q : CopyCmd) : State :=
  let p := copyPlan s r q
  if q.failed.isSome || (match q.op with
    | .multi _ _ ts => ts.isEmpty
    | _ => false) then settleCopy s r
  else match q.asks r.core, q.fetch with
    | some owner, none => askSource s r q p owner
    | _, _ => match chunkOf s r q p with
      | .error e => stopCopy s r e
      | .ok s => settleCopy s r

/-- The guard of a CWAIT. -/
def discardCopy (s : State) (r : Ref) (q : CopyCmd) : State :=
  modRef s r fun t =>
    let t := { t with copyq := t.copyq.tail }
    match q.op with
    | .wait g => resolveG t (guardNo g) false
    | _ => t

/-- COPY_CHUNK: one chunk of the head that the engine serves next; a CPYM of more than 4,096 bytes first asks for leave and
waits (R210). -/
def execCopyChunk (core : Nat) (s : State) : Host.Outcome State Fault Refusal :=
  .next (match copyNext s core with
  | none => s
  | some i =>
    let r : Ref := ⟨core, i⟩
    match copyHead (getCore s core) i with
    | none => s
    | some q =>
      if isCwait q then s
      else if q.gate == .drop then discardCopy s r q
      else
        if isMulti q && decide (q.len > 4096) && q.leave == .none then askLeave (modCopyHead s r fun q => { q with leave := .asked }) r leaveCopy
        else
          let s := modCore s core fun c => { c with copyServed := some i }
          if q.started then nextChunk s r q
          else
            let (s, q, e) := startCopy s r q
            let s := modCopyHead s r fun _ => q
            match e with
            | some e => stopCopy s r e
            | none => nextChunk s r q)

/-- CWAIT_RESOLVE: a CWAIT at a head resolves its guard by `COPYST`.FAILED, and clears it; what reads the guard acquires
what the copies that have ended released (R212, R228). -/
def execCwaitResolve (core : Nat) (s : State) : Host.Outcome State Fault Refusal :=
  .next (match copyNext s core with
  | none => s
  | some i =>
    let r : Ref := ⟨core, i⟩
    match copyHead (getCore s core) i with
    | none => s
    | some q =>
      match q.op with
      | .wait g =>
        if q.gate == .drop then discardCopy s r q
        else
          let t := refThread s r
          let ok := fieldOf t.csr.copyst 35 1 = 0
          let s := acquireAt (modCore s core fun c => { c with copyServed := some i }) core t.copyScope
          modRef s r fun t => resolveG { t with
            copyq := t.copyq.tail, copyScope := 0, csr := { t.csr with copyst := setField t.csr.copyst 35 1 0 } } (guardNo g) ok
      | _ => s)

end Sys2Proof.Machine
end

