-- ==== Sys2Proof/Machine/CopyFamily.lean ====
section
/-!
DEFINITION. The COPY family at issue (R204 to R206, R210 to R212).
-/

namespace Sys2Proof.Machine

/-! ## Operand words (R204, R205) -/

def copyLen (w : Word) : Nat := fieldOf w 0 32
def copyScope (w : Word) : Nat := fieldOf w 32 5

/-- Whether a length word keeps R204; BOFF is for CPYH alone. -/
def lenOk (s : State) (w : Word) (boff : Bool) : Bool :=
  fieldOf w 37 11 == 0 && (boff || fieldOf w 48 16 == 0) && decide (1 ≤ copyLen w) && decide (copyLen w ≤ 2 ^ 31)
    && scopeDefined s (curCtx s) (copyScope w)

/-- The checks of a copy address (R204, R205): the captured end. -/
def copyEnd (s : State) (w : Word) (len need : Nat) (dir : Bool) : Except Stop CopyEnd :=
  if fieldOf w 56 4 ≠ 0 ∨ (!dir && copyDir w) then .error (.trap causeCopyOperand w)
  else
    let sg := copySeg w
    let d := getSeg (curThread s) sg
    match segCheckWith (curSP s) d sg.toNat (wordOf (copyOff w)) len need false false with
    | .error e => .error e
    | .ok _ => .ok ⟨d, copyOff w⟩

/-- Check the length word, the source and the destination of CPY and CPYB. -/
def copyEnds (s : State) (d a : BitVec 5) (len : Word) (k : CopyEnd → CopyEnd → Res) : Res :=
  let t := curThread s
  if !lenOk s len false then .trap s causeCopyOperand len
  else match copyEnd s (getX t a) (copyLen len) needR false with
    | .error e => .stop s e
    | .ok src => match copyEnd s (getX t d) (copyLen len) needW false with
      | .error e => .stop s e
      | .ok dst => k src dst

/-- CPY. -/
def execCpy (d a b : BitVec 5) (g : BitVec 3) (n : BitVec 1) (s : State) : Host.Outcome State Fault Refusal :=
  run 4 { xr := [d, a, b], noMsg := true } s fun s =>
    let len := getX (curThread s) b
    copyEnds s d a len fun src dst => queueCopy s (.plain src dst none) (copyScope len) (copyLen len) g n none

/-- CPYT (R208). -/
def execCpyt (a : BitVec 5) (g : BitVec 3) (n : BitVec 1) (s : State) : Host.Outcome State Fault Refusal :=
  run 4 { xr := [a], noMsg := true } s fun s =>
    let off := getX (curThread s) a
    if off.toNat % 16 ≠ 0 ∨ off.toNat + 256 > curSP s ∨ off.toNat ≥ 2 ^ 16 then .trap s causeCopyOperand off
    else queueCopy s (.tensor off.toNat [] ⟨0, 0⟩ ⟨0, 0⟩) 0 0 g n none

/-- CPYM (R210). -/
def execCpym (d a b : BitVec 5) (g : BitVec 3) (n : BitVec 1) (s : State) : Host.Outcome State Fault Refusal :=
  run 4 { xr := [d, a, b], noMsg := true } s fun s =>
    let t := curThread s
    let w := getX t d
    let len := getX t b
    if !lenOk s len false then .trap s causeCopyOperand len
    else match copyEnd s (getX t a) (copyLen len) needR false with
      | .error e => .stop s e
      | .ok src =>
        if fieldOf w 50 14 ≠ 0 ∨ castOff w % 16 ≠ 0 ∨ (castBind w ∧ castMoff w % 16 ≠ 0) then .trap s causeCopyOperand w
        else queueCopy s (.multi w src []) (copyScope len) (copyLen len) g n none

/-- CPYB (R211). -/
def execCpyb (d a : BitVec 5) (b : BitVec 4) (g : BitVec 3) (n : BitVec 1) (s : State) : Host.Outcome State Fault Refusal :=
  run 4 { xr := [d, a, regNo (2 * b.toNat)], xs := [2 * b.toNat + 1], noMsg := true } s fun s =>
    let t := curThread s
    let len := getX t (regNo (2 * b.toNat))
    let moff := getX t (regNo (2 * b.toNat + 1))
    copyEnds s d a len fun src dst =>
      if segKind dst.seg = kindGlobal then .trap s causeCopyOperand (getX t d)
      else if moff.toNat % 16 ≠ 0 ∨ moff.toNat ≥ 2 ^ 16 then .trap s causeCopyOperand moff
      else queueCopy s (.plain src dst (some moff.toNat)) (copyScope len) (copyLen len) g n none

/-- CWAIT (R212). -/
def execCwait (d : BitVec 3) (g : BitVec 3) (n : BitVec 1) (s : State) : Host.Outcome State Fault Refusal :=
  run 4 { noMsg := true } s fun s => queueCopy s (.wait d.toNat) 0 0 g n (some d)

/-- CPYH (R217). -/
def execCpyh (d a b : BitVec 5) (g : BitVec 3) (n : BitVec 1) (s : State) : Host.Outcome State Fault Refusal :=
  run 4 { xr := [d, a, b], noMsg := true } s fun s =>
    let t := curThread s
    let ref := getX t d
    let addr := getX t a
    let len := getX t b
    let toBuffer := copyDir addr
    let inside := match getCtx? s (curCtx s) with
      | some c => inGrid c (fieldOf ref 16 20)
      | none => false
    if !lenOk s len true then .trap s causeCopyOperand len
    else if fieldOf ref 36 28 ≠ 0 then .trap s causeCopyOperand ref
    else if !inside then .trap s causeBadCore ref
    else match copyEnd s addr (copyLen len) (if toBuffer then needR else needW) true with
      | .error e => .stop s e
      | .ok e => queueCopy s (.handle ref toBuffer e (fieldOf len 48 16)) (copyScope len) (copyLen len) g n none

end Sys2Proof.Machine
end

