-- ==== Sys2Proof/Machine/CsrFamily.lean ====
section
/-!
DEFINITION. The CSRs (R125 to R128): what each reads, which bits each writes, and which numbers trap.
-/

namespace Sys2Proof.Machine

/-- STATUS as a word (R127). -/
def statusWord (c : Csrs) : Word :=
  wordOf ((if c.tm then 1 else 0) + (if c.chain then 2 else 0) + (if c.sys then 4 else 0) + (if c.spec then 8 else 0))

/-- TRAILCTL: MODE and FULL of the context's Trail, and ATOMS of the thread (R357). -/
def trailWord (s : State) (c : Csrs) : Word :=
  match getCtx? s (curCtx s) with
  | some x => wordOf (x.trail.mode % 4 + (if c.trailAtoms then 4 else 0) + (if x.trail.full then 8 else 0))
  | none => if c.trailAtoms then 4 else 0

/-- The value of a CSR of the current slot. The message slot has no FTRAPEN, which reads zero (R95); the other CSRs that
R95 does not give it read zero too (log 15). -/
def csrRead (s : State) (n : Nat) : Word :=
  let c := (curThread s).csr
  match n with
  | 0x001 => c.rnd.setWidth 64
  | 0x002 => c.fflags.setWidth 64
  | 0x004 => c.seed
  | 0x005 => c.draw
  | 0x00C => c.amsrc.setWidth 64
  | 0x010 => c.trappc
  | 0x011 => c.trapcause.setWidth 64
  | 0x012 => c.trapval
  | 0x013 => c.tvec
  | 0x014 => c.tscratch
  | 0x020 => nowWord s
  | 0x021 => wordOf s.cur.2.val
  | 0x022 => wordOf (packedOf s.cur.1)
  | 0x023 => if coreIndex s.cur.1 = 0 then 1 else 0
  | 0x024 => (curCore s).part.setWidth 64
  | 0x025 => wordOf (curCtx s)
  | _ =>
    if inMsgSlot s then 0
    else match n with
      | 0x000 => statusWord c
      | 0x003 => c.ftrapen.setWidth 64
      | 0x006 => c.stamp
      | 0x007 => c.specd.setWidth 64
      | 0x008 => c.task.setWidth 64
      | 0x009 => c.timer
      | 0x00A => c.copyst
      | 0x00B => c.matst
      | 0x030 => c.deadline
      | 0x031 => trailWord s c
      | 0x032 => c.apxctl.setWidth 64
      | _ => 0

/-- Whether a number is in the CSR table. -/
def csrAssigned (n : Nat) : Bool :=
  n ≤ 0x00C || (0x010 ≤ n && n ≤ 0x014) || (0x020 ≤ n && n ≤ 0x025) || (0x030 ≤ n && n ≤ 0x032)

/-- The bits that COPYST and MATST let a write change (R188, R214). -/
def copystMask : Word := 0xFF000008FFFFFFFF
def matstMask : Word := 0x000000FFFFFFE0FF

def maskedWrite (mask old v : Word) : Word := (old &&& ~~~mask) ||| (v &&& mask)

/-- TRAPCAUSE never holds a value above this one (R416). -/
def causeCodeTop : BitVec 8 := 0xBF

/-- Write a CSR: only its writable fields change (R125); a value that TRAPCAUSE never holds leaves it as it was (log 145). -/
def csrWrite (msg : Bool) (n : Nat) (v : Word) (c : Csrs) : Csrs :=
  match n with
  | 0x001 => { c with rnd := v.setWidth 3 }
  | 0x002 => { c with fflags := v.setWidth 5 }
  | 0x004 => { c with seed := v }
  | 0x005 => { c with draw := v }
  | 0x010 => { c with trappc := v }
  | 0x011 => if v.setWidth 8 > causeCodeTop then c else { c with trapcause := v.setWidth 8 }
  | 0x012 => { c with trapval := v }
  | 0x013 => { c with tvec := evenPc v }
  | 0x014 => { c with tscratch := v }
  | _ =>
    if msg then c
    else match n with
      | 0x000 => { c with chain := v.getLsbD 1, sys := if c.sys then v.getLsbD 2 else c.sys }
      | 0x003 => { c with ftrapen := v.setWidth 5 }
      | 0x006 => { c with stamp := v }
      | 0x008 => { c with task := v.setWidth 32 }
      | 0x009 => { c with timer := v }
      | 0x00A => { c with copyst := maskedWrite copystMask c.copyst v }
      | 0x00B => { c with matst := maskedWrite matstMask c.matst v }
      | 0x030 => { c with deadline := v }
      | 0x031 => { c with trailAtoms := v.getLsbD 2 }
      | 0x032 => { c with apxctl := v.setWidth 17 }
      | _ => c

/-- The trap of a CSR number (R89, R90), if there is one. -/
def csrCause (s : State) (n : Nat) (write : Bool) : Option (BitVec 8) :=
  if (n == 0x013 || n == 0x030) && !(curThread s).csr.sys then some causePrivileged
  else if !csrAssigned n || (write && 0x020 ≤ n && n ≤ 0x025) then some causeBadCsr
  else none

/-- Exchange a CSR with what `f` makes of its old value; `x[d]` receives the old value (R125). -/
def csrExchange (d : BitVec 5) (a : Option (BitVec 5)) (c : BitVec 12) (f : Word → Word → Word) (s : State) :
    Host.Outcome State Fault Refusal :=
  let n := c.toNat
  run 4 { xr := a.toList, xw := some d, csr := csrCause s n a.isSome } s fun s =>
    let old := csrRead s n
    match a with
    | none => .ok (modCur s fun t => setX t d old) 0
    | some a => .ok (modCur s fun t => setX { t with csr := csrWrite (inMsgSlot s) n (f old (getX t a)) t.csr } d old) 0

/-- CSRR. -/
def execCsrr (d : BitVec 5) (c : BitVec 12) (s : State) : Host.Outcome State Fault Refusal :=
  csrExchange d none c (fun old _ => old) s

/-- CSRW. -/
def execCsrw (d a : BitVec 5) (c : BitVec 12) (s : State) : Host.Outcome State Fault Refusal :=
  csrExchange d (some a) c (fun _ v => v) s

/-- CSRS. -/
def execCsrs (d a : BitVec 5) (c : BitVec 12) (s : State) : Host.Outcome State Fault Refusal :=
  csrExchange d (some a) c (fun old v => old ||| v) s

/-- CSRC. -/
def execCsrc (d a : BitVec 5) (c : BitVec 12) (s : State) : Host.Outcome State Fault Refusal :=
  csrExchange d (some a) c (fun old v => old &&& ~~~v) s

end Sys2Proof.Machine
end

