-- ==== Sys2Proof/Machine/LinkEvents.lean ====
section
/-!
DEFINITION. The steps of the peer links and die links (R326, R327, R331, R332, R336).
-/

namespace Sys2Proof.Machine

/-! ## Packets (R332) -/

/-- PACKET_RECEIVED: a packet for window `window` of context `ctx`; where it has no place, it is returned, and nothing changes here. -/
def execPacketReceived (ctx window offset : Nat) (payload : List (BitVec 8)) (s : State) : Host.Outcome State Fault Refusal :=
  match getPost? s ctx window with
  | none => .next s
  | some w =>
    if payload.isEmpty || decide (payload.length > 4096) || decide (offset + payload.length > w.len) then .next s
    else .next (counterAdd (windowWrite s offset payload w.pieces) ctx w.counter (wordOf payload.length))

/-- The states of a peer link (R327). -/
def linkDown : Nat := 0
def linkTrain : Nat := 1
def linkUp8 : Nat := 2
def linkUp4 : Nat := 3
def linkFailed : Nat := 4

def getPeer (s : State) (l : Nat) : PeerLink := mapGet s.peers l PeerLink.initial
def modPeer (s : State) (l : Nat) (f : PeerLink → PeerLink) : State := { s with peers := mapSet s.peers l (f (getPeer s l)) }

def linkUp (l : PeerLink) : Bool := l.state == linkUp8 || l.state == linkUp4

/-- The link over which packets to a device leave and their answers come, where it is up. -/
def openLink (s : State) (dev : Nat) : Option Nat :=
  match linkTo s dev with
  | some l => if linkUp (getPeer s l) then some l else none
  | none => none

/-- A packet has come back: it is sent again after its back-off, which doubles (R332). -/
def backOff (now : Nat) (p : Nat × List Byte × Nat × Option Nat) : Nat × List Byte × Nat × Option Nat :=
  match p with
  | (off, bs, wait, none) => (off, bs, Nat.min 65536 (2 * wait), some (now + wait))
  | p => p

/-- PACKET_RETURNED: reasons 0 for a window that does not take it, 1 NOCTX, which come back over the link; 2 NOROUTE, of a packet for
which a device on its way has no route. -/
def execPacketReturned (ctx arm packet reason : Nat) (s : State) : Host.Outcome State Fault Refusal :=
  match getArm? s ctx arm with
  | none => .next s
  | some a =>
    match mapGet? a.packets packet with
    | some (off, bs, wait, none) =>
      if a.state ≠ armSending then .next s
      else if reason ≥ 2 then .next (setArm s ctx arm (some { a with state := armFailed, reason := 2, packets := [] }))
      else match openLink s a.dev with
        | none => .next s
        | some l =>
          let s := modPeer s l fun l => { l with returns := if l.returns = 0xFFFFFFFF then l.returns else l.returns + 1 }
          .next (setArm s ctx arm (some (
            if reason = 0 then { a with packets := mapSet a.packets packet (backOff s.cycle (off, bs, wait, none)) }
            else { a with state := armFailed, reason := 1, packets := [] })))
    | _ => .next s

/-- BACKOFF_RESEND. -/
def execBackoffResend (ctx arm packet : Nat) (s : State) : Host.Outcome State Fault Refusal :=
  match getArm? s ctx arm with
  | none => .next s
  | some a =>
    match mapGet? a.packets packet with
    | some (off, bs, wait, some due) =>
      .next (if due ≤ s.cycle then setArm s ctx arm (some { a with packets := mapSet a.packets packet (off, bs, wait, none) }) else s)
    | _ => .next s

/-- SEND_COMPLETE: a packet has been accepted, over a link that is up; with the last one the send is complete (R331). -/
def execSendComplete (ctx arm packet : Nat) (s : State) : Host.Outcome State Fault Refusal :=
  match getArm? s ctx arm with
  | none => .next s
  | some a =>
    match mapGet? a.packets packet with
    | some (_, bs, _, none) =>
      if a.state ≠ armSending ∨ (openLink s a.dev).isNone then .next s
      else
        let rest := mapErase a.packets packet
        if rest.isEmpty then .next (counterAdd (setArm s ctx arm none) ctx a.sctr (wordOf a.len))
        else .next (setArm s ctx arm (some { a with packets := rest, accepted := a.accepted + bs.length }))
    | _ => .next s

/-! ## Peer links (R327) -/

/-- Unacknowledged packets over a link are treated as returned. -/
def returnUnacked (s : State) (link : Nat) : State :=
  { s with contexts := s.contexts.map fun c => (c.1, { c.2 with
      arms := c.2.arms.map fun a => (a.1,
        if a.2.state = armSending && linkTo s a.2.dev == some link then
          { a.2 with packets := a.2.packets.map fun p => (p.1, backOff s.cycle p.2) } else a.2) }) }

/-- A link goes back to training. -/
def loseLink (s : State) (link : Nat) : State :=
  returnUnacked (modPeer s link fun l => { l with state := linkTrain, lanes := 0, attempts := 0, recent := [] }) link

/-- PEERDN. -/
def peerDown (s : State) : State := { s with status := { s.status with peerdn := true } }

/-- LINK_TRAINED: an attempt ends with a number of lanes; the third failed one in a row ends in FAILED. -/
def execLinkTrained (link lanes : Nat) (s : State) : Host.Outcome State Fault Refusal :=
  let l := getPeer s link
  if l.state ≠ linkTrain || decide (link ≥ 12) || decide (lanes > 8) then .next s
  else if lanes = 8 then .next (modPeer s link fun l => { l with state := linkUp8, lanes := 8, attempts := 0 })
  else if lanes ≥ 4 then .next (modPeer s link fun l => { l with state := linkUp4, lanes := 4, attempts := 0 })
  else if l.attempts ≥ 2 then .next (peerDown (modPeer s link fun l => { l with state := linkFailed, lanes := 0, attempts := 0 }))
  else .next (modPeer s link fun l => { l with attempts := l.attempts + 1 })

/-- LINK_LOSS. -/
def execLinkLoss (link : Nat) (s : State) : Host.Outcome State Fault Refusal :=
  .next (if linkUp (getPeer s link) then loseLink s link else s)

/-- LINK_DISABLE. -/
def execLinkDisable (link : Nat) (s : State) : Host.Outcome State Fault Refusal :=
  .next (if s.status.ready && decide (link < 12) then peerDown (modPeer (loseLink s link) link fun l => { l with state := linkDown }) else s)

/-- FLIT_REPLAY: the count of replays; more than 16 within 2^20 cycles send the link to TRAIN. -/
def execFlitReplay (link : Nat) (s : State) : Host.Outcome State Fault Refusal :=
  let l := getPeer s link
  if !linkUp l then .next s
  else
    let recent := s.cycle :: l.recent.filter fun c => decide (s.cycle < c + 2 ^ 20)
    let s := modPeer s link fun l => { l with replays := if l.replays = 0xFFFF then l.replays else l.replays + 1, recent := recent }
    .next (if recent.length > 16 then loseLink s link else s)

/-! ## Die links (R336) -/

/-- DIE_LINK_FAILURE: every RUNNING context halts with LINK_FATAL, which reports the link's number, and is to be dumped. -/
def execDieLinkFailure (link : Nat) (s : State) : Host.Outcome State Fault Refusal :=
  if !s.status.ready || decide (link ≥ 14) then .next s
  else
    let s := { s with status := { s.status with diefail := true, linkFatal := true } }
    .next (s.contexts.foldl (fun s c => if c.2.phase = .running then haltWith s c.1 causeLinkFatal (wordOf link) else s) s)

end Sys2Proof.Machine
end

