-- ==== Sys2Proof/Machine/DeviceUnit.lean ====
section
/-!
DEFINITION. Bring-up and the loss of power (R420, R421, R423), and the registers of BAR 0 (R24, R281, R323, R325, R327,
R417, R425).
-/

namespace Sys2Proof.Machine

/-! ## Bring-up -/

/-- The device without what reset or a loss of power takes away; host memory lies outside the device, and what is held in
fuses, flash and modules as hardware stays. -/
def clearedDevice (s : State) (power : Bool) : State :=
  { agenda := s.agenda, cur := (0, 0), iword := 0, focus := 0, free := s.free, cycle := 0, cores := [], clusters := [], dies := []
    contexts := [], mem := s.mem.filter fun p => decide (2 ^ 48 ≤ p.1), futures := [], poisoned := [], modules := s.modules
    absent := s.absent, power := power, images := s.images, runningImage := none, rollback := s.rollback
    status := State.reset.status, hostq := [], peers := [], routes := [], dieLinks := s.dieLinks, waits := [], waitovf := [], corrected := []
    telemetry := [], attest := { s.attest with report := none }, net := [], deviceNumber := s.deviceNumber, hostRead := 0, oldGens := [], rotors := [] }

/-- Whether the modules of the groups keep R10, and group 0 is populated. -/
def modulesOk (s : State) : Bool :=
  groupSize s 0 != 0 && s.modules.toList.all fun g => g.toList.all fun n => n == g.get 0 && decide (n ≤ 2 ^ 37)

/-- The clusters present on a die (R24). -/
def presentOn (s : State) (d : Nat) : Nat :=
  ((List.range 1024).filter fun k => !(mapGet s.absent d []).contains k).length

/-- Whether an image slot verifies (R421). -/
def imageOk (s : State) (i : Fin 2) : Bool := (s.images.get i).verifies && decide (s.rollback ≤ (s.images.get i).version)

/-- The image that bring-up runs. -/
def chosenImage (s : State) : Option Nat := if imageOk s 0 then some 0 else if imageOk s 1 then some 1 else none

/-- The steps of bring-up after the device has been cleared. -/
def bringUp (s : State) : State :=
  let fits := s.dieLinks.isEmpty && modulesOk s && (List.range 8).all fun d => decide (1008 ≤ presentOn s d)
  match fits, chosenImage s with
  | true, some i =>
    { s with
      runningImage := some i, status := { s.status with ready := true }
      peers := (List.range 12).map fun l => (l, { PeerLink.initial with state := linkTrain })
      routes := (List.range 64).filterMap fun dev => (Config.routeLink dev).map fun l => (dev, l % 12) }
  | _, _ => { s with status := { s.status with bootfail := true } }

/-! ## Reads of BAR 0 -/

def boolBit (b : Bool) (n : Nat) : Nat := if b then 2 ^ n else 0

/-- The device status word (R325). -/
def deviceStatusWord (s : State) : Word :=
  let t := s.status
  wordOf (boolBit t.ready 0 + boolBit t.bootfail 1 + boolBit t.ue 2 + boolBit t.peerdn 3 + boolBit t.diefail 4 + boolBit t.ctxref 5
    + t.refctx.toNat * 2 ^ 16 + t.refcode.toNat * 2 ^ 32)

/-- The word of a peer link (R327). -/
def peerWord (l : PeerLink) : Word :=
  wordOf (l.state + l.lanes % 16 * 2 ^ 4 + l.replays.toNat * 2 ^ 16 + l.returns.toNat * 2 ^ 32)

/-- A host-queue block (R281). -/
def queueBlock (h : HostQueue) : Nat :=
  h.base.toNat + h.log2n.toNat * 2 ^ 64 + h.ctxnum.toNat * 2 ^ 80 + boolBit h.enable 96 + boolBit h.overrun 97 + boolBit h.badrec 98
    + h.head.toNat * 2 ^ 128 + h.tail.toNat * 2 ^ 160

/-- Byte `n` of the core map (R24). -/
def coreMapByte (s : State) (n : Nat) : Nat :=
  if n < 1024 then
    let absent := mapGet s.absent (n / 128) []
    (List.range 8).foldl (fun v b => v + boolBit (!absent.contains (n % 128 * 8 + b)) b) 0
  else presentOn s ((n - 1024) / 2) / 2 ^ (8 * (n % 2)) % 256

/-- A byte of BAR 0; none where the spec names no register. Before READY every byte but those of the status word reads as zero
(R325). -/
def barByte (s : State) (off : Nat) : Option Nat :=
  let pick (v : Nat) (n : Nat) : Option Nat := some (v / 2 ^ (8 * n) % 256)
  if off < 8 then some ((deviceStatusWord s).toNat / 2 ^ (8 * off) % 256)
  else if !s.status.ready then some 0
  else if 0x40 ≤ off ∧ off < 0xA0 then pick (peerWord (getPeer s ((off - 0x40) / 8))).toNat (off % 8)
  else if 0x10000 ≤ off ∧ off < 0x10410 then pick (coreMapByte s (off - 0x10000)) 0
  else if 0x20000 ≤ off ∧ off < 0x21000 then pick (queueBlock (getHostq s ((off - 0x20000) / 64))) (off % 64)
  else if 0x30000 ≤ off ∧ off < 0x30080 then pick (mapGet s.waitovf ((off - 0x30000) / 4) 0).toNat (off % 4)
  else if 0x31000 ≤ off ∧ off < 0x31060 then pick (mapGet s.corrected ((off - 0x31000) / 8) 0).toNat (off % 8)
  else if 0x32000 ≤ off ∧ off < 0x32060 then pick (mapGet s.telemetry ((off - 0x32000) / 8) 0).toNat (off % 8)
  else none

/-- Bytes of BAR 0; those that lie in no register are those of a free value. -/
def barRead (s : State) (free : Word) (off n : Nat) : List Byte :=
  (List.range n).map fun i => match barByte s (off + i) with
    | some b => BitVec.ofNat 8 b
    | none => BitVec.ofNat 8 (fieldOf free (8 * (i % 8)) 8)

/-! ## Writes of BAR 0 -/

/-- The write of TAIL (R281). -/
def writeTail (s : State) (q : Nat) (v : BitVec 32) : State :=
  modHostq s q fun h =>
    let h := { h with tail := v }
    if (v - h.head).toNat > 2 ^ h.log2n.toNat then { h with overrun := true, enable := false } else h

/-- The write of ENABLE (R281). -/
def writeEnable (s : State) (q : Nat) (on : Bool) : State :=
  modHostq s q fun h =>
    let n := h.log2n.toNat
    { h with enable := on && decide (4 ≤ n) && decide (n ≤ 16) && decide (h.base.toNat % (64 * 2 ^ n) = 0) }

/-- A 32-bit write into a host-queue block, at the word `w` of it. BASE, LOG2N and CTXNUM change only while ENABLE is 0. -/
def writeQueue (s : State) (q w : Nat) (v : BitVec 32) : State :=
  let h := getHostq s q
  let log2n := fieldOf v 0 8
  match w with
  | 0 => if h.enable then s else modHostq s q fun h => { h with base := h.base - h.base % 2 ^ 32 + v.setWidth 64 }
  | 1 => if h.enable then s else modHostq s q fun h => { h with base := h.base % 2 ^ 32 + v.setWidth 64 * 2 ^ 32 }
  | 2 => if h.enable then s else modHostq s q fun h =>
      { h with ctxnum := BitVec.ofNat 16 (fieldOf v 16 16), log2n := if 4 ≤ log2n ∧ log2n ≤ 16 then BitVec.ofNat 8 log2n else h.log2n }
  | 3 => writeEnable (modHostq s q fun h =>
      { h with overrun := h.overrun && !v.getLsbD 1, badrec := h.badrec && !v.getLsbD 2 }) q (v.getLsbD 0)
  | 5 => writeTail s q v
  | _ => s

/-- RETRAIN (R327). -/
def retrainLink (s : State) (link : Nat) : State :=
  let l := getPeer s link
  if link < 12 ∧ (l.state = linkDown ∨ l.state = linkFailed) then modPeer s link fun l => { l with state := linkTrain, attempts := 0 } else s

/-- A count of corrected errors is cleared (R417). -/
def clearCorrected (s : State) (u : Nat) : State := { s with corrected := mapErase s.corrected u }

/-- A WAITOVF counter is cleared (R323). -/
def clearWaitovf (s : State) (slice : Nat) : State := { s with waitovf := mapErase s.waitovf slice }

/-- A 32-bit write to BAR 0. Before READY only the status word takes one (R325). -/
def barWrite (s : State) (off : Nat) (v : BitVec 32) : State :=
  if off = 0 then
    { s with status := { s.status with
        ue := s.status.ue && !v.getLsbD 2, peerdn := s.status.peerdn && !v.getLsbD 3
        diefail := s.status.diefail && !v.getLsbD 4, ctxref := s.status.ctxref && !v.getLsbD 5 } }
  else if !s.status.ready then s
  else if 0x40 ≤ off ∧ off < 0xA0 then (if off % 8 = 0 ∧ v.getLsbD 3 then retrainLink s ((off - 0x40) / 8) else s)
  else if 0x20000 ≤ off ∧ off < 0x21000 then writeQueue s ((off - 0x20000) / 64) (off % 64 / 4) v
  else if 0x30000 ≤ off ∧ off < 0x30080 then clearWaitovf s ((off - 0x30000) / 4)
  else if 0x31000 ≤ off ∧ off < 0x31060 then clearCorrected s ((off - 0x31000) / 8)
  else s

/-- Whether bytes of BAR 0 all lie in registers. -/
def barHas (s : State) (off n : Nat) : Bool := (List.range n).all fun i => (barByte s (off + i)).isSome

end Sys2Proof.Machine
end

