-- ==== Sys2Proof/Machine/Shake.lean ====
section
/-!
DEFINITION. SHAKE256 as FIPS 202 defines it: the Keccak-f[1600] permutation over 25 lanes of 64 bits, and the sponge of rate 136 bytes.
R427 names the function and leaves its definition to that standard (log 106).
-/

namespace Sys2Proof.Machine

/-- The state of the permutation: lane (x, y) stands at 5y + x. -/
abbrev Lanes := Vector (BitVec 64) 25

def laneAt (a : Lanes) (x y : Nat) : BitVec 64 := a.get (Fin.ofNat 25 (5 * (y % 5) + x % 5))

def byLane (f : Nat → Nat → BitVec 64) : Lanes := Vector.ofFn fun i => f (i.val % 5) (i.val / 5)

/-- θ: each lane takes the parities of two columns beside it. -/
def keccakTheta (a : Lanes) : Lanes :=
  let c : Vector (BitVec 64) 5 := Vector.ofFn fun x => laneAt a x.val 0 ^^^ laneAt a x.val 1 ^^^ laneAt a x.val 2 ^^^ laneAt a x.val 3 ^^^ laneAt a x.val 4
  byLane fun x y => laneAt a x y ^^^ c.get (Fin.ofNat 5 (x + 4)) ^^^ (c.get (Fin.ofNat 5 (x + 1))).rotateLeft 1

/-- The walk of ρ over the lanes but (0, 0), from (1, 0) on, with each lane's rotation: the triangular numbers. -/
def rhoWalk (x y t : Nat) : Nat → List (Nat × Nat)
  | 0 => []
  | n + 1 => (5 * y + x, (t + 1) * (t + 2) / 2 % 64) :: rhoWalk y ((2 * x + 3 * y) % 5) (t + 1) n

def rhoTable : List (Nat × Nat) := rhoWalk 1 0 0 24

def rhoAt (x y : Nat) : Nat := ((rhoTable.find? fun p => p.1 == 5 * y + x).map (·.2)).getD 0

/-- ρ and π: each lane is rotated and moves to its new place. -/
def keccakRhoPi (a : Lanes) : Lanes :=
  byLane fun x y =>
    let x' := (x + 3 * y) % 5
    (laneAt a x' x).rotateLeft (rhoAt x' x)

/-- χ: the non-linear step along the rows. -/
def keccakChi (a : Lanes) : Lanes := byLane fun x y => laneAt a x y ^^^ (~~~laneAt a (x + 1) y &&& laneAt a (x + 2) y)

/-- The shift register of ι, of eight bits, one step on. -/
def iotaNext (r : Nat) : Nat := if 128 ≤ r then (2 * r) ^^^ 0x171 else 2 * r

/-- The constant of one round: the register's bit 0, step after step, at the bits 2 ^ j - 1; and the register after its seven steps. -/
def iotaBits (r : Nat) (j : Nat) : Nat → Nat × Nat
  | 0 => (0, r)
  | n + 1 =>
    let (c, r') := iotaBits (iotaNext r) (j + 1) n
    (c + r % 2 * 2 ^ (2 ^ j - 1), r')

/-- The constants of ι, one per round. -/
def iotaRounds (r : Nat) : Nat → List (BitVec 64)
  | 0 => []
  | n + 1 =>
    let (c, r') := iotaBits r 0 7
    BitVec.ofNat 64 c :: iotaRounds r' n

/-- One round. -/
def keccakRound (a : Lanes) (rc : BitVec 64) : Lanes :=
  let b := keccakChi (keccakRhoPi (keccakTheta a))
  b.set 0 (b.get 0 ^^^ rc)

def keccakF (a : Lanes) : Lanes := (iotaRounds 1 24).foldl keccakRound a

/-- The rate of SHAKE256 in bytes. -/
def shakeRate : Nat := 136

/-- Absorb one block of the rate. -/
def shakeAbsorb (a : Lanes) (block : List Byte) : Lanes :=
  keccakF (Vector.ofFn fun i => a.get i ^^^ BitVec.ofNat 64 (((List.range 8).map fun j => (block.getD (8 * i.val + j) 0).toNat * 2 ^ (8 * j)).sum))

/-- A message with its suffix 1111 and the padding 10*1, in blocks. -/
def shakeBlocks (m : List Byte) : List (List Byte) :=
  let n := m.length / shakeRate + 1
  let gap := n * shakeRate - m.length
  let tail : List Byte := if gap = 1 then [0x9F] else 0x1F :: (List.replicate (gap - 2) 0 ++ [0x80])
  (List.range n).map fun i => ((m ++ tail).drop (shakeRate * i)).take shakeRate

/-- The first 256 bits of SHAKE256, with the first byte of the output in the low bits. -/
def shake256 (m : List Byte) : BitVec 256 :=
  let a := (shakeBlocks m).foldl shakeAbsorb (Vector.replicate 25 0)
  laneAt a 3 0 ++ laneAt a 2 0 ++ laneAt a 1 0 ++ laneAt a 0 0

end Sys2Proof.Machine
end

