-- ==== Sys2Proof/Machine/DeviceEvents.lean ====
section
/-!
DEFINITION. The steps of the host and of the package: reset and loss of power (R420, R423), BAR 0 (R281, R323, R325, R417),
accesses of the host to memory (R23), governor, errors and background work (R417, R422, R424, R425), firmware and
attestation (R421, R426, R427).
-/

namespace Sys2Proof.Machine

/-! ## Power -/

/-- RESET. -/
def execReset (s : State) : Host.Outcome State Fault Refusal := .next (bringUp (clearedDevice s true))

/-- THERMAL_SHUTDOWN: no state is saved. -/
def execThermalShutdown (s : State) : Host.Outcome State Fault Refusal := .next (clearedDevice s false)

/-- GOVERNOR_LEVEL. -/
def execGovernorLevel (die : Nat) (level : BitVec 4) (s : State) : Host.Outcome State Fault Refusal :=
  .next (if s.power && decide (die < 8) then modDie s die fun d => { d with level := level } else s)

/-- TELEMETRY_UPDATE: grants and level are zero on port dies. -/
def execTelemetryUpdate (unit : Nat) (power : BitVec 16) (temp : BitVec 8) (s : State) : Host.Outcome State Fault Refusal :=
  let d := getDie s unit
  let z := if unit < 8 then d.grants.toNat * 2 ^ 8 + d.level.toNat else 0
  .next (if s.power && decide (unit < 12) then
    { s with telemetry := mapSet s.telemetry unit (wordOf (power.toNat * 2 ^ 48 + temp.toNat * 2 ^ 32 + z)) } else s)

/-! ## Errors (R417) and scrubbing (R424) -/

/-- CORRECTED_ERROR: the count saturates. -/
def execCorrectedError (unit : Nat) (s : State) : Host.Outcome State Fault Refusal :=
  let n := mapGet s.corrected unit 0
  .next (if s.power && decide (unit < 12) && n != allOnes then { s with corrected := mapSet s.corrected unit (n + 1) } else s)

/-- SCRUB changes no byte, no full bit and no event flag. -/
def execScrub (_core : Nat) (s : State) : Host.Outcome State Fault Refusal := .next s

/-- Whether a slot holds a thread that has not ended. -/
def threadLives (t : Thread) : Bool :=
  match t.phase with
  | .run => true
  | .parked => true
  | .trapped => true
  | .halted => t.haltedFrom.isSome
  | _ => false

/-- A thread leaves every queue in which it waits. -/
def unqueue (s : State) (r : Ref) : State :=
  let s := modCluster s (clusterOf r.core) fun c =>
    { c with forkers := c.forkers.filter (· != r), takers := c.takers.filter (·.who != r) }
  { s with
    waits := s.waits.map fun p => (p.1, p.2.filter (·.who != r))
    net := s.net.filter fun p => match p with
      | .migrant k _ => k != r
      | _ => true }

/-- A slot whose registers or control state fail: its thread halts as by a double fault; a handler is abandoned (R167). -/
def slotError (s : State) (r : Ref) (offset : Nat) : State :=
  let t := refThread s r
  if r.slot = 15 then (if t.phase = .handling then handlerFault s r.core t.pc causePoisoned (wordOf offset) else s)
  else if threadLives t then
    faultAgain (modRef (unqueue s r) r fun t =>
      { unpark t with csr := { t.csr with trapcause := causePoisoned, trapval := wordOf offset } }) r
  else s

/-- What an uncorrectable error does where it is found. -/
def errorAt (s : State) (site : ErrorSite) : State :=
  match site with
  | .cacheLine cl n => modCluster s cl fun c => { c with cache := mapErase c.cache n }
  | .tlbEntry cl k => modCluster s cl fun c => { c with tlb := mapErase c.tlb k }
  | .dieTlb d k => modDie s d fun x => { x with tlb := mapErase x.tlb k }
  | .granule core g => if g < 4096 then modCore s core fun c => { c with poison := setAdd c.poison g } else s
  | .line n => if isDevice s (64 * n) then { s with poisoned := setAdd s.poisoned n } else s
  | .accumulator core slot a => modRef s ⟨core, slot % 16⟩ fun t =>
      { t with acc := Vector.ofFn fun i : Fin 4 => if i.val = a % 4 then { t.acc.get i with tag := causePoisoned } else t.acc.get i }
  | .latch core slot which => modRef s ⟨core, slot % 16⟩ fun t =>
      if which = 0 then { t with latchA := { t.latchA with poison := true } } else { t with latchB := { t.latchB with poison := true } }
  | .slotState core slot off => slotError s ⟨core, slot % 16⟩ off
  | .contextState ctx => haltContext s ctx causePoisoned

/-- UNCORRECTABLE_ERROR. -/
def execUncorrectableError (site : ErrorSite) (s : State) : Host.Outcome State Fault Refusal :=
  .next (if s.power then errorAt { s with status := { s.status with ue := true } } site else s)

/-! ## BAR 0 -/

/-- TAIL. -/
def execTail (queue : Nat) (value : BitVec 32) (s : State) : Host.Outcome State Fault Refusal :=
  .next (if s.status.ready && decide (queue < 64) then writeTail s queue value else s)

/-- ENABLE. -/
def execEnable (queue : Nat) (on : Bool) (s : State) : Host.Outcome State Fault Refusal :=
  .next (if s.status.ready && decide (queue < 64) then writeEnable s queue on else s)

/-- REGISTER_WRITE: a 32-bit write to BAR 0. -/
def execRegisterWrite (offset : Nat) (value : BitVec 32) (s : State) : Host.Outcome State Fault Refusal :=
  .next (if s.power then barWrite s offset value else s)

/-- RETRAIN. -/
def execRetrain (link : Nat) (s : State) : Host.Outcome State Fault Refusal :=
  .next (if s.status.ready then retrainLink s link else s)

/-- WAITOVF. -/
def execWaitovf (slice : Nat) (s : State) : Host.Outcome State Fault Refusal :=
  .next (if s.status.ready then clearWaitovf s slice else s)

/-- CORRECTED_ERROR_COUNT. -/
def execCorrectedErrorCount (unit : Nat) (s : State) : Host.Outcome State Fault Refusal :=
  .next (if s.status.ready then clearCorrected s unit else s)

/-! ## Memory accesses of the host (R23) -/

/-- Where BAR 0 lies among the addresses of HOST_ACCESS: beyond the physical addresses (log 17). -/
def barBase : Nat := 2 ^ 52

/-- The low 64 bits of what a host read returned. -/
def hostResult (s : State) (bs : List Byte) : State := { s with hostRead := bytesVal 64 (bs.take 8) }

/-- The 32-bit words of a write at an offset, each with its own. -/
def barWords (off value n : Nat) : List (Nat × BitVec 32) := (List.range n).map fun i => (off + 4 * i, BitVec.ofNat 32 (value / 2 ^ (32 * i)))

/-- Whether an offset is that of the word of a host-queue block that holds ENABLE. -/
def enableWord (off : Nat) : Bool := decide (0x20000 ≤ off) && decide (off < 0x21000) && off % 64 == 12

/-- Write a host's bytes to BAR 0, 32 bits at a time; within one write, ENABLE takes effect after the other fields (R281). -/
def barStore (s : State) (off value n : Nat) : State :=
  let ws := barWords off value n
  (ws.filter (fun w => !enableWord w.1) ++ ws.filter fun w => enableWord w.1).foldl (fun s w => barWrite s w.1 w.2) s

/-- Whether a range of memory lies in the part of a context's save area that holds images, whose bytes are Hjelec's to arrange (R254,
log 114). -/
def inSaveArea (s : State) (pa n : Nat) : Bool :=
  s.contexts.any fun p => p.2.saved.any fun i =>
    let a := ctxSavebase p.2 + 1572864 * i
    decide (a < pa + n) && decide (pa < a + 1572864)

/-- HOST_ACCESS: bytes of memory, or of BAR 0. A read of what the spec gives no value returns a free one: poison, addresses that are
not backed, BAR bytes of no register, and images of saved clusters; a write of such addresses goes nowhere (log 17). -/
def execHostAccess (write : Bool) (pa size value : Nat) (s : State) : Host.Outcome State Fault Refusal :=
  let (s', free) := takeFree s
  if !s.power || size = 0 then .next s
  else if barBase ≤ pa then
    let off := pa - barBase
    if write then .next (if off % 4 = 0 ∧ size % 4 = 0 then barStore s off value (size / 4) else s)
    else .next (hostResult (if barHas s off (Nat.min size 8) then s else s') (barRead s free off (Nat.min size 8)))
  else if isDevice s pa && !s.status.ready then .next s
  else
    let backed := isBacked s pa && isBacked s (pa + size - 1)
    if write then .next (if backed then softWrite s pa (leBytes size value) else s)
    else if !backed || memPoisoned s pa size || inSaveArea s pa size then .next { s' with hostRead := free }
    else .next (hostResult s (memBytes s pa (Nat.min size 8)))

/-! ## Firmware and identity -/

/-- ANTI_ROLLBACK_RAISE: never while the older slot holds the only other verified image (R421). -/
def execAntiRollbackRaise (value : Nat) (s : State) : Host.Outcome State Fault Refusal :=
  let a := s.images.get 0
  let b := s.images.get 1
  let olderOnly := match s.runningImage with
    | some 0 => imageOk s 1 && decide (b.version < a.version)
    | some _ => imageOk s 0 && decide (a.version < b.version)
    | none => false
  .next (if s.status.ready && decide (s.rollback < value) && !olderOnly then { s with rollback := value } else s)

/-- What a report signs (R427); `n` is the state counter. -/
def attestReport (s : State) (nonce : BitVec 256) (n : Nat) : Report :=
  { nonce := nonce, counter := n, slot := s.runningImage, image := Config.imageHash (s.runningImage.getD 0), rollback := s.rollback
    coreMap := shake256 ((List.range 1040).map fun i => BitVec.ofNat 8 (coreMapByte s i)), key := Config.keyHash }

/-- ATTESTATION_REQUEST: an error before READY, and once the leaves have run out; else the counter advances before the
signature leaves, and its fuse copy every 1,024 signatures. -/
def execAttestationRequest (nonce : BitVec 256) (s : State) : Host.Outcome State Fault Refusal :=
  let a := s.attest
  let n := Nat.max a.counter a.fuse
  .next (if !s.power then s
    else if !s.status.ready || decide (a.leaves ≤ n) then { s with attest := { a with report := some none } }
    else { s with attest :=
      { a with counter := n + 1, fuse := if (n + 1) % 1024 = 0 then n + 1 else a.fuse, report := some (some (attestReport s nonce (n + 1))) } })

end Sys2Proof.Machine
end

