-- ==== Sys2Proof/Machine/FloatFamily.lean ====
section
/-!
DEFINITION. Scalar floating point: FPS (R140 to R143), FMA (R144) and FCVT (R145).
-/

namespace Sys2Proof.Machine

/-! ## Conversions (R145) -/

def intW : IntFmt := ⟨32, true⟩
def intWu : IntFmt := ⟨32, false⟩
def intL : IntFmt := ⟨64, true⟩
def intLu : IntFmt := ⟨64, false⟩

/-- Floating to floating (R40). -/
def cvtFloat (S D : Fmt) (f64 : Bool) (d a : BitVec 5) (s : State) : Host.Outcome State Fault Refusal :=
  floatOne f64 (fun r v => asWord (convertFloat S D r false (floatIn S v))) d a s

/-- An integer result in a register: 32-bit results are extended (R145). -/
def intOut (T : IntFmt) (n : Nat) : Word := if T.signed then sextW (wordOf n) T.width else wordOf n

/-- Floating to integer (R41). -/
def cvtToInt (S : Fmt) (T : IntFmt) (sat : Bool) (d a : BitVec 5) (s : State) : Host.Outcome State Fault Refusal :=
  floatOne (S == .fp64) (fun r v => (intOut T (toIntFmt T r sat (decodeNum S (floatIn S v))).1, (toIntFmt T r sat (decodeNum S (floatIn S v))).2)) d a s

/-- Integer to floating (R42). -/
def cvtFromInt (T : IntFmt) (D : Fmt) (d a : BitVec 5) (s : State) : Host.Outcome State Fault Refusal :=
  floatOne (D == .fp64) (fun r v => asWord (ofIntFmt D r (decodeIntFmt T (v.toNat % 2 ^ T.width)))) d a s

/-! ## FPS (R140 to R143) -/

/-- FADD.S. -/
def execFaddS (d a b : BitVec 5) (s : State) : Host.Outcome State Fault Refusal :=
  floatBin .fp32 (addBits .fp32) d a b s

/-- FSUB.S. -/
def execFsubS (d a b : BitVec 5) (s : State) : Host.Outcome State Fault Refusal :=
  floatBin .fp32 (subBits .fp32) d a b s

/-- FMUL.S. -/
def execFmulS (d a b : BitVec 5) (s : State) : Host.Outcome State Fault Refusal :=
  floatBin .fp32 (mulBits .fp32) d a b s

/-- FDIV.S. -/
def execFdivS (d a b : BitVec 5) (s : State) : Host.Outcome State Fault Refusal :=
  floatBin .fp32 (divBits .fp32) d a b s

/-- FSQRT.S. -/
def execFsqrtS (d a : BitVec 5) (s : State) : Host.Outcome State Fault Refusal :=
  floatOne (false) (fun r v => asWord (sqrtBits .fp32 r (floatIn .fp32 v))) d a s

/-- FMIN.S (R141). -/
def execFminS (d a b : BitVec 5) (s : State) : Host.Outcome State Fault Refusal :=
  floatPick .fp32 (minMaxNum .fp32 false) d a b s

/-- FMAX.S (R141). -/
def execFmaxS (d a b : BitVec 5) (s : State) : Host.Outcome State Fault Refusal :=
  floatPick .fp32 (minMaxNum .fp32 true) d a b s

/-- FSGNJ.S (R142). -/
def execFsgnjS (d a b : BitVec 5) (s : State) : Host.Outcome State Fault Refusal :=
  floatPick .fp32 (fun x y => (signBits .fp32 0 x y, 0)) d a b s

/-- FSGNJN.S (R142). -/
def execFsgnjnS (d a b : BitVec 5) (s : State) : Host.Outcome State Fault Refusal :=
  floatPick .fp32 (fun x y => (signBits .fp32 1 x y, 0)) d a b s

/-- FSGNJX.S (R142). -/
def execFsgnjxS (d a b : BitVec 5) (s : State) : Host.Outcome State Fault Refusal :=
  floatPick .fp32 (fun x y => (signBits .fp32 2 x y, 0)) d a b s

/-- FCLASS.S (R143). -/
def execFclassS (d a : BitVec 5) (s : State) : Host.Outcome State Fault Refusal :=
  floatPick .fp32 (fun x _ => (classMask .fp32 x, 0)) d a a s

/-- FADD.D. -/
def execFaddD (d a b : BitVec 5) (s : State) : Host.Outcome State Fault Refusal :=
  floatBin .fp64 (addBits .fp64) d a b s

/-- FSUB.D. -/
def execFsubD (d a b : BitVec 5) (s : State) : Host.Outcome State Fault Refusal :=
  floatBin .fp64 (subBits .fp64) d a b s

/-- FMUL.D. -/
def execFmulD (d a b : BitVec 5) (s : State) : Host.Outcome State Fault Refusal :=
  floatBin .fp64 (mulBits .fp64) d a b s

/-- FDIV.D. -/
def execFdivD (d a b : BitVec 5) (s : State) : Host.Outcome State Fault Refusal :=
  floatBin .fp64 (divBits .fp64) d a b s

/-- FSQRT.D. -/
def execFsqrtD (d a : BitVec 5) (s : State) : Host.Outcome State Fault Refusal :=
  floatOne (true) (fun r v => asWord (sqrtBits .fp64 r (floatIn .fp64 v))) d a s

/-- FMIN.D (R141). -/
def execFminD (d a b : BitVec 5) (s : State) : Host.Outcome State Fault Refusal :=
  floatPick .fp64 (minMaxNum .fp64 false) d a b s

/-- FMAX.D (R141). -/
def execFmaxD (d a b : BitVec 5) (s : State) : Host.Outcome State Fault Refusal :=
  floatPick .fp64 (minMaxNum .fp64 true) d a b s

/-- FSGNJ.D (R142). -/
def execFsgnjD (d a b : BitVec 5) (s : State) : Host.Outcome State Fault Refusal :=
  floatPick .fp64 (fun x y => (signBits .fp64 0 x y, 0)) d a b s

/-- FSGNJN.D (R142). -/
def execFsgnjnD (d a b : BitVec 5) (s : State) : Host.Outcome State Fault Refusal :=
  floatPick .fp64 (fun x y => (signBits .fp64 1 x y, 0)) d a b s

/-- FSGNJX.D (R142). -/
def execFsgnjxD (d a b : BitVec 5) (s : State) : Host.Outcome State Fault Refusal :=
  floatPick .fp64 (fun x y => (signBits .fp64 2 x y, 0)) d a b s

/-- FCLASS.D (R143). -/
def execFclassD (d a : BitVec 5) (s : State) : Host.Outcome State Fault Refusal :=
  floatPick .fp64 (fun x _ => (classMask .fp64 x, 0)) d a a s

/-! ## FMA (R144) -/

/-- FMADD.S. -/
def execFmaddS (d a b c : BitVec 5) (s : State) : Host.Outcome State Fault Refusal :=
  floatFma .fp32 false false d a b c s

/-- FMSUB.S. -/
def execFmsubS (d a b c : BitVec 5) (s : State) : Host.Outcome State Fault Refusal :=
  floatFma .fp32 false true d a b c s

/-- FNMADD.S. -/
def execFnmaddS (d a b c : BitVec 5) (s : State) : Host.Outcome State Fault Refusal :=
  floatFma .fp32 true true d a b c s

/-- FNMSUB.S. -/
def execFnmsubS (d a b c : BitVec 5) (s : State) : Host.Outcome State Fault Refusal :=
  floatFma .fp32 true false d a b c s

/-- FMADD.D. -/
def execFmaddD (d a b c : BitVec 5) (s : State) : Host.Outcome State Fault Refusal :=
  floatFma .fp64 false false d a b c s

/-- FMSUB.D. -/
def execFmsubD (d a b c : BitVec 5) (s : State) : Host.Outcome State Fault Refusal :=
  floatFma .fp64 false true d a b c s

/-- FNMADD.D. -/
def execFnmaddD (d a b c : BitVec 5) (s : State) : Host.Outcome State Fault Refusal :=
  floatFma .fp64 true true d a b c s

/-- FNMSUB.D. -/
def execFnmsubD (d a b c : BitVec 5) (s : State) : Host.Outcome State Fault Refusal :=
  floatFma .fp64 true false d a b c s

/-! ## FCVT (R145) -/

/-- FCVT.D.S. -/
def execFcvtDS (d a : BitVec 5) (s : State) : Host.Outcome State Fault Refusal :=
  cvtFloat .fp32 .fp64 true d a s

/-- FCVT.S.D. -/
def execFcvtSD (d a : BitVec 5) (s : State) : Host.Outcome State Fault Refusal :=
  cvtFloat .fp64 .fp32 true d a s

/-- FCVT.S.H. -/
def execFcvtSH (d a : BitVec 5) (s : State) : Host.Outcome State Fault Refusal :=
  cvtFloat .fp16 .fp32 false d a s

/-- FCVT.H.S. -/
def execFcvtHS (d a : BitVec 5) (s : State) : Host.Outcome State Fault Refusal :=
  cvtFloat .fp32 .fp16 false d a s

/-- FCVT.S.B. -/
def execFcvtSB (d a : BitVec 5) (s : State) : Host.Outcome State Fault Refusal :=
  cvtFloat .bf16 .fp32 false d a s

/-- FCVT.B.S. -/
def execFcvtBS (d a : BitVec 5) (s : State) : Host.Outcome State Fault Refusal :=
  cvtFloat .fp32 .bf16 false d a s

/-- FCVT.D.H. -/
def execFcvtDH (d a : BitVec 5) (s : State) : Host.Outcome State Fault Refusal :=
  cvtFloat .fp16 .fp64 true d a s

/-- FCVT.H.D. -/
def execFcvtHD (d a : BitVec 5) (s : State) : Host.Outcome State Fault Refusal :=
  cvtFloat .fp64 .fp16 true d a s

/-- FCVT.W.S. -/
def execFcvtWS (d a : BitVec 5) (s : State) : Host.Outcome State Fault Refusal :=
  cvtToInt .fp32 intW false d a s

/-- FCVT.W.S.SAT. -/
def execFcvtWSSat (d a : BitVec 5) (s : State) : Host.Outcome State Fault Refusal :=
  cvtToInt .fp32 intW true d a s

/-- FCVT.S.W. -/
def execFcvtSW (d a : BitVec 5) (s : State) : Host.Outcome State Fault Refusal :=
  cvtFromInt intW .fp32 d a s

/-- FCVT.WU.S. -/
def execFcvtWuS (d a : BitVec 5) (s : State) : Host.Outcome State Fault Refusal :=
  cvtToInt .fp32 intWu false d a s

/-- FCVT.WU.S.SAT. -/
def execFcvtWuSSat (d a : BitVec 5) (s : State) : Host.Outcome State Fault Refusal :=
  cvtToInt .fp32 intWu true d a s

/-- FCVT.S.WU. -/
def execFcvtSWu (d a : BitVec 5) (s : State) : Host.Outcome State Fault Refusal :=
  cvtFromInt intWu .fp32 d a s

/-- FCVT.L.S. -/
def execFcvtLS (d a : BitVec 5) (s : State) : Host.Outcome State Fault Refusal :=
  cvtToInt .fp32 intL false d a s

/-- FCVT.L.S.SAT. -/
def execFcvtLSSat (d a : BitVec 5) (s : State) : Host.Outcome State Fault Refusal :=
  cvtToInt .fp32 intL true d a s

/-- FCVT.S.L. -/
def execFcvtSL (d a : BitVec 5) (s : State) : Host.Outcome State Fault Refusal :=
  cvtFromInt intL .fp32 d a s

/-- FCVT.LU.S. -/
def execFcvtLuS (d a : BitVec 5) (s : State) : Host.Outcome State Fault Refusal :=
  cvtToInt .fp32 intLu false d a s

/-- FCVT.LU.S.SAT. -/
def execFcvtLuSSat (d a : BitVec 5) (s : State) : Host.Outcome State Fault Refusal :=
  cvtToInt .fp32 intLu true d a s

/-- FCVT.S.LU. -/
def execFcvtSLu (d a : BitVec 5) (s : State) : Host.Outcome State Fault Refusal :=
  cvtFromInt intLu .fp32 d a s

/-- FCVT.W.D. -/
def execFcvtWD (d a : BitVec 5) (s : State) : Host.Outcome State Fault Refusal :=
  cvtToInt .fp64 intW false d a s

/-- FCVT.W.D.SAT. -/
def execFcvtWDSat (d a : BitVec 5) (s : State) : Host.Outcome State Fault Refusal :=
  cvtToInt .fp64 intW true d a s

/-- FCVT.D.W. -/
def execFcvtDW (d a : BitVec 5) (s : State) : Host.Outcome State Fault Refusal :=
  cvtFromInt intW .fp64 d a s

/-- FCVT.WU.D. -/
def execFcvtWuD (d a : BitVec 5) (s : State) : Host.Outcome State Fault Refusal :=
  cvtToInt .fp64 intWu false d a s

/-- FCVT.WU.D.SAT. -/
def execFcvtWuDSat (d a : BitVec 5) (s : State) : Host.Outcome State Fault Refusal :=
  cvtToInt .fp64 intWu true d a s

/-- FCVT.D.WU. -/
def execFcvtDWu (d a : BitVec 5) (s : State) : Host.Outcome State Fault Refusal :=
  cvtFromInt intWu .fp64 d a s

/-- FCVT.L.D. -/
def execFcvtLD (d a : BitVec 5) (s : State) : Host.Outcome State Fault Refusal :=
  cvtToInt .fp64 intL false d a s

/-- FCVT.L.D.SAT. -/
def execFcvtLDSat (d a : BitVec 5) (s : State) : Host.Outcome State Fault Refusal :=
  cvtToInt .fp64 intL true d a s

/-- FCVT.D.L. -/
def execFcvtDL (d a : BitVec 5) (s : State) : Host.Outcome State Fault Refusal :=
  cvtFromInt intL .fp64 d a s

/-- FCVT.LU.D. -/
def execFcvtLuD (d a : BitVec 5) (s : State) : Host.Outcome State Fault Refusal :=
  cvtToInt .fp64 intLu false d a s

/-- FCVT.LU.D.SAT. -/
def execFcvtLuDSat (d a : BitVec 5) (s : State) : Host.Outcome State Fault Refusal :=
  cvtToInt .fp64 intLu true d a s

/-- FCVT.D.LU. -/
def execFcvtDLu (d a : BitVec 5) (s : State) : Host.Outcome State Fault Refusal :=
  cvtFromInt intLu .fp64 d a s

end Sys2Proof.Machine
end

