-- ==== Sys2Proof/Machine/HamperEvents.lean ====
section
/-!
DEFINITION. The steps of the Hampers (R344 to R347): rounds of steals, stolen pairs, counts and the end of a traversal.
-/

namespace Sys2Proof.Machine

/-- STEAL_ROUND: a waiting taker asks the pool again, every 1,024 cycles. -/
def execStealRound (core slot : Nat) (s : State) : Host.Outcome State Fault Refusal :=
  let k := clusterOf core
  let r : Ref := ⟨core, slot % 16⟩
  let ctx := ctxOf core
  match (getCluster s k).takers.find? (·.who == r) with
  | none => .next s
  | some taker =>
    match travLive s ctx taker.handle with
    | none => .next s
    | some t =>
      if s.cycle < taker.next || !t.steal || !engineRuns s core then .next s
      else match stealRound s ctx k taker t with
        | some s => .next (modCluster s k fun c => { c with takers := c.takers.erase taker })
        | none => .next (modCluster s k fun c =>
            { c with takers := c.takers.map fun x => if x == taker then { x with next := s.cycle + 1024 } else x })

/-- STEAL_ARRIVAL: the pair is HELD by the taker (R346). -/
def execStealArrival (msg : Nat) (s : State) : Host.Outcome State Fault Refusal :=
  onMsg msg s fun p s => match p with
    | .stolen v k p =>
      let s := match travEntry s (ctxOf k.who.core) p.handle with
        | some t => recordUnitDone s (clusterOf k.who.core) t
        | none => s
      some (acquireAt (givePair s k p) k.who.core (coverScope s (firstCore v) k.who.core))
    | _ => none

/-- TRAVERSAL_COUNT_MESSAGE: a member cluster's count has left zero or come back to it (R347). A `done` counts only once
every `up` of the traversal that was sent before it has come in (R301). -/
def execTraversalCountMessage (msg : Nat) (s : State) : Host.Outcome State Fault Refusal :=
  onMsg msg s fun p s => match p with
    | .count h src home up =>
      let ctx := ctxOf (firstCore home)
      if !up && countUps (s.net.take msg) h ctx then none
      else match travEntry s ctx h with
        | none => some s
        | some t =>
          let t := { t with members := setPut t.members src up }
          let s := modCluster s home fun c => { c with traversals := mapSet c.traversals (handleIndex h) t }
          some (if up then s else travCheck s ctx h)
    | _ => none

/-- END reaches a cluster: the TAKEPs parked there are answered false, and its entry is free (R347, R342). -/
def endMember (s : State) (cluster : Nat) (h : Word) : State :=
  let mine := (getCluster s cluster).takers.filter (·.handle == h)
  let s := mine.foldl (fun s k => dropCache (refuseTaker s k) k.who.core) s
  modCluster s cluster fun c =>
    { c with takers := c.takers.filter (·.handle != h), members := c.members.filter (·.handle != h) }

/-- TRAVERSAL_END: the END of a traversal reaches the cluster whose member entry is the index-th of its list; the home
cluster's comes last, and frees the home entry. -/
def execTraversalEnd (cluster index : Nat) (s : State) : Host.Outcome State Fault Refusal :=
  let ctx := ctxOf (firstCore cluster)
  match (getCluster s cluster).members[index]? with
  | none => .next s
  | some m =>
    match travEntry s ctx m.handle with
    | none => .next s
    | some t =>
      if !t.ended then .next s
      else
        let home := handleHome ctx m.handle
        let others := s.clusters.any fun p =>
          p.1 != cluster && ctxOf (firstCore p.1) == ctx && p.2.members.any (·.handle == m.handle)
        if cluster ≠ home then .next (endMember s cluster m.handle)
        else if others then .next s
        else .next (modCluster (endMember s cluster m.handle) home fun c =>
          { c with traversals := mapErase c.traversals (handleIndex m.handle) })

end Sys2Proof.Machine
end

