-- ==== Sys2Proof/Machine/LinkFamily.lean ====
section
/-!
DEFINITION. The LINK family (R329 to R335): the link unit acts in the instruction's step, and the thread parks for its reply.
-/

namespace Sys2Proof.Machine

/-- A counter or window id of R329. -/
def linkId (s : State) (v : Word) (k : Nat → Res) : Res := if v.toNat < 256 then k v.toNat else .trap s causeLinkOperand v

/-- RCVPOST (R330). -/
def execRcvpost (a : BitVec 5) (b : BitVec 4) (g : BitVec 3) (n : BitVec 1) (s : State) : Host.Outcome State Fault Refusal :=
  runGated 4 { xr := [a, regNo (2 * b.toNat)], xs := [2 * b.toNat + 1], noMsg := true } g n none s fun s =>
    let t := curThread s
    let word := getX t a
    let addr := getX t (regNo (2 * b.toNat))
    let len := getX t (regNo (2 * b.toNat + 1))
    let w := fieldOf word 0 8
    let ctx := curCtx s
    let old := match getPost? s ctx w with
      | some x => x.pages
      | none => []
    if fieldOf word 16 48 ≠ 0 then .trap s causeLinkOperand word
    else if fieldOf len 32 32 ≠ 0 then .trap s causeLinkOperand len
    else releasing s (
      if len = 0 then askUnit (unpinAll (setPost s ctx w none) ctx old) none 0 0
      else if fieldOf addr 56 5 ≠ 0 then .trap s causeAtomOperand addr
      else
        let sg : BitVec 3 := BitVec.ofNat 3 (fieldOf addr 61 3)
        match segCheckWith (curSP s) (getSeg t sg) sg.toNat (wordOf (fieldOf addr 0 56)) len.toNat needW false false with
        | .error e => .stop s e
        | .ok p =>
          if p.kind ≠ kindGlobal ∨ p.addr % 64 ≠ 0 then .trap s causeLinkOperand addr
          else match pinRange s ctx p.addr len.toNat [] [] (len.toNat / 65536 + 2) with
            | .error (s, e) => .stop s e
            | .ok (s, pages, pieces) =>
              askUnit (unpinAll (setPost s ctx w (some ⟨pieces, len.toNat, fieldOf word 8 8, pages⟩)) ctx old) none 0 0)

/-- The fields of a send descriptor with their limits (R331); the source is checked apart. -/
def sendOk (d : List Byte) : Bool :=
  let f (off n : Nat) : Nat := leNat ((d.drop off).take n)
  decide (1 ≤ f 8 4) && decide (f 8 4 ≤ 2 ^ 31) && decide (f 18 1 < 64) && f 22 2 == 0

/-- TSARM (R331). -/
def execTsarm (d a : BitVec 5) (g : BitVec 3) (n : BitVec 1) (s : State) : Host.Outcome State Fault Refusal :=
  runGated 4 { xr := [a], xw := some d, noMsg := true } g n (some fun t => setX t d 0xFFFFFFFFFFFFFFFF) s fun s =>
    let off := getX (curThread s) a
    if off.toNat % 16 ≠ 0 ∨ off.toNat + 32 > curSP s then .trap s causeLinkOperand off
    else releasing s (localAccess s (
      if poolPoisoned (curCore s) off.toNat 32 then .trap s causePoisoned off
      else
        let bs := poolBytes (curCore s) off.toNat 32
        let f (o n : Nat) : Nat := leNat ((bs.drop o).take n)
        let src : Word := wordOf (f 0 8)
        let sg : BitVec 3 := BitVec.ofNat 3 (fieldOf src 61 3)
        let seg := getSeg (curThread s) sg
        if !sendOk bs then .trap s causeLinkOperand off
        else if fieldOf src 56 5 ≠ 0 then .trap s causeCopyOperand src
        else match segCheckWith (curSP s) seg sg.toNat (wordOf (fieldOf src 0 56)) (f 8 4) needR false false with
          | .error e => .stop s e
          | .ok p =>
            if p.kind = kindCore then .trap s causeLinkOperand off
            else
              let ctx := curCtx s
              match (List.range 256).find? fun i => (getArm? s ctx i).isNone with
              | none => .stop s (.park .retry)
              | some i =>
                let gen : BitVec 8 := (match getCtx? s ctx with
                  | some c => mapGet c.armGens i 0
                  | none => 0) + 1
                let s := modCtx s ctx fun c => { c with armGens := mapSet c.armGens i gen }
                let arm : Arm :=
                  { gen := gen, state := armArmed, reason := 0, src := ⟨seg, fieldOf src 0 56⟩, ctxCore := s.cur.1, slot := s.cur.2.val, held := false
                    sys := (curThread s).csr.sys, len := f 8 4, doff := f 12 4, rctx := BitVec.ofNat 16 (f 16 2), dev := f 18 1
                    win := f 19 1, tctr := f 20 1, sctr := f 21 1, thresh := wordOf (f 24 8), accepted := 0, packets := [] }
                let s := fireArms (setArm s ctx i (some arm)) ctx
                askUnit s (some d) 0 (wordOf (i + gen.toNat * 256))))

/-- TSCAN (R333). -/
def execTscan (d a : BitVec 5) (g : BitVec 3) (n : BitVec 1) (s : State) : Host.Outcome State Fault Refusal :=
  runGated 4 { xr := [a], xw := some d, noMsg := true } g n none s fun s =>
    let id := getX (curThread s) a
    let i := fieldOf id 0 8
    match getArm? s (curCtx s) i with
      | none => askUnit s (some d) 0 0
      | some arm =>
        if id.toNat / 256 ≠ arm.gen.toNat then askUnit s (some d) 0 0
        else
          let s := if arm.state = armFailed then setArm s (curCtx s) i none else s
          askUnit s (some d) 0 (armWord arm)

/-- CTRRD (R334). -/
def execCtrrd (d a : BitVec 5) (g : BitVec 3) (n : BitVec 1) (s : State) : Host.Outcome State Fault Refusal :=
  runGated 4 { xr := [a], xw := some d, noMsg := true } g n none s fun s =>
    linkId s (getX (curThread s) a) fun c => askUnit s (some d) 3 (counterOf s (curCtx s) c)

/-- CTRADD (R334). -/
def execCtradd (a b : BitVec 5) (g : BitVec 3) (n : BitVec 1) (s : State) : Host.Outcome State Fault Refusal :=
  runGated 4 { xr := [a, b], noMsg := true } g n none s fun s =>
    linkId s (getX (curThread s) a) fun c =>
      releasing s (askUnit (counterAdd s (curCtx s) c (getX (curThread s) b)) none 0 0)

end Sys2Proof.Machine
end

