-- ==== Sys2Proof/Machine/MatEvents.lean ====
section
/-!
DEFINITION. The steps of the matrix engine (R192 to R202): each takes the next head that the engine serves, where it is
of the step's kind; else nothing happens.
-/

namespace Sys2Proof.Machine

/-! ## The next head -/

def isGang (q : MatCmd) : Bool :=
  match q.op with
  | .gang _ _ _ => true
  | _ => false

/-- An MDRAINR that has begun, which the engine ends before it serves another head. -/
def drainBegun (q : MatCmd) : Bool := decide (q.pos > 0) || q.sent

/-- The slot whose drain the engine is performing. -/
def matBusy (c : Core) : Option Nat := (List.range 16).find? fun i => match matHead c i with
  | some q => drainBegun q
  | none => false

/-- Whether a head stands to be served: not behind its gate, nor waiting for leave, nor at a barrier (R15, R192). -/
def matReady (q : MatCmd) : Bool := !gateWaits q.gate && q.leave != .asked && (q.gate == .drop || !isGang q)

/-- The slot that the engine serves next. -/
def matNext (s : State) (core : Nat) : Option Nat :=
  let c := getCore s core
  if !engineRuns s core then none
  else match matBusy c with
    | some i => some i
    | none => (slotOrder c.matServed).find? fun i => match matHead c i with
      | some q => matReady q
      | none => false

/-! ## Ending a command -/

/-- A command leaves its queue. -/
def popMat (s : State) (r : Ref) : State := modRef s r fun t => { t with matq := t.matq.tail }

/-- The result guard of a command. -/
def matGuard (op : MatOp) : Option Nat :=
  match op with
  | .drain g _ _ _ _ _ _ => some g
  | _ => none

def resolveOpt (s : State) (r : Ref) (g : Option Nat) (ok : Bool) : State :=
  match g with
  | some g => modRef s r fun t => resolveG t (guardNo g) ok
  | none => s

/-- A command whose gate resolved against it is discarded (R109, R192). -/
def discardMat (s : State) (r : Ref) (q : MatCmd) : State := resolveOpt (popMat s r) r (matGuard q.op) false

/-- Run a step of the engine: `serve` gives the state after a head of the step's kind, or none where it is another. -/
def matStep (s : State) (core : Nat) (kind : MatOp → Bool) (serve : Ref → MatCmd → State) : Host.Outcome State Fault Refusal :=
  .next (match matNext s core with
  | none => s
  | some i =>
    match matHead (getCore s core) i with
    | none => s
    | some q =>
      let r : Ref := ⟨core, i⟩
      if !kind q.op then s
      else if q.gate == .drop then discardMat s r q
      else serve r q)

/-- The head of a slot has been served. -/
def servedMat (s : State) (r : Ref) (f : Thread → Thread) : State :=
  let s := modRef (popMat s r) r f
  modCore s r.core fun c => { c with matServed := some r.slot }

def setAcc (t : Thread) (i : Nat) (a : Acc) : Thread := { t with acc := t.acc.set (Fin.ofNat 4 i) a }
def getAcc (t : Thread) (i : Nat) : Acc := t.acc.get (Fin.ofNat 4 i)

/-! ## The steps -/

/-- MZERO_EXEC. -/
def execMzeroExec (core : Nat) (s : State) : Host.Outcome State Fault Refusal :=
  matStep s core (fun op => match op with
    | .zero _ => true
    | _ => false) fun r q => match q.op with
    | .zero a => servedMat s r fun t => setAcc t a Acc.zero
    | _ => s

def isLoad (b : Bool) (op : MatOp) : Bool :=
  match op with
  | .load b' _ _ _ _ _ _ => b' == b
  | _ => false

def serveLoad (s : State) (r : Ref) (q : MatCmd) : State :=
  match q.op with
  | .load b off rows pitch idx fmt cb =>
    let l := loadLatch s r.core off rows pitch idx fmt cb
    servedMat s r fun t => if b then { t with latchB := l } else { t with latchA := l }
  | _ => s

/-- MLDA_EXEC. -/
def execMldaExec (core : Nat) (s : State) : Host.Outcome State Fault Refusal := matStep s core (isLoad false) (serveLoad s)

/-- MLDB_EXEC. -/
def execMldbExec (core : Nat) (s : State) : Host.Outcome State Fault Refusal := matStep s core (isLoad true) (serveLoad s)

/-- Whether a thread's latches make its MMA a cb4 MMA: one cb4 latch does, though the other is of another narrow format (R201, log
155). -/
def isCb4 (t : Thread) : Bool := t.latchA.fmt == 4 || t.latchB.fmt == 4

/-- Whether a cb4 MMA starts within 16 cycles of the engine's last, under its grant. -/
def cb4Covered (s : State) (c : Core) : Bool :=
  c.cb4Leave && match c.lastCb4 with
    | some k => decide (s.cycle ≤ k + 16)
    | none => false

/-- MMA on a slot's latches and accumulator. -/
def mmaOn (t : Thread) (a : Nat) : Thread :=
  let (acc, f) := mmaStep t.latchA t.latchB (getAcc t a)
  matFlags (setAcc t a acc) f

/-- MMA_EXEC: a cb4 MMA outside its engine's grant first asks for leave and waits (R201). -/
def execMmaExec (core : Nat) (s : State) : Host.Outcome State Fault Refusal :=
  matStep s core (fun op => match op with
    | .mma _ => true
    | _ => false) fun r q => match q.op with
    | .mma a =>
      let cb4 := isCb4 (refThread s r)
      if cb4 && q.leave != .granted && !cb4Covered s (getCore s core) then
        askLeave (modMatHead s r fun q => { q with leave := .asked }) r leaveMma
      else
        let s := servedMat s r fun t => mmaOn t a
        if cb4 then modCore s core fun c => { c with lastCb4 := some s.cycle } else s
    | _ => s

def gangTag (q : MatCmd) : Option Nat :=
  match q.op with
  | .gang _ tag _ => some tag
  | _ => none

/-- The first MGANG head that an engine reaches. -/
def gangHead (c : Core) : Option Nat := (slotOrder c.matServed).find? fun i => match matHead c i with
  | some q => isGang q && q.gate == .go
  | none => false

/-- Whether the four engines of a row offer equal tags. -/
def barrierMet (s : State) (core : Nat) : Bool :=
  match (gangRow core).map fun k => (gangOffer (getCore s k)).bind fun p => gangTag p.2 with
  | some a :: rest => rest.all (· == some a)
  | _ => false

/-- MGANG_BARRIER: the engine offers its first MGANG head; when all four of the row offer equal TAGs, the barrier is met
and the leader asks for leave. -/
def execMgangBarrier (core : Nat) (s : State) : Host.Outcome State Fault Refusal :=
  .next (if !engineRuns s core || (matBusy (getCore s core)).isSome || (gangOffer (getCore s core)).isSome then s
  else match gangHead (getCore s core) with
    | none => s
    | some i =>
      let s := modMatHead s ⟨core, i⟩ fun q => { q with offered := true }
      if !barrierMet s core then s
      else
        let s := (gangRow core).foldl (fun s k => match gangOffer (getCore s k) with
          | some (j, _) => modMatHead s ⟨k, j⟩ fun q => { q with ready := true }
          | none => s) s
        let leader := core / 4 * 4
        match gangOffer (getCore s leader) with
        | some (j, _) => askLeave (modMatHead s ⟨leader, j⟩ fun q => { q with leave := .asked }) ⟨leader, j⟩ leaveGang
        | none => s)

/-- One participant's part of a gang. -/
def gangOn (lead : Latch) (isLead : Bool) (q : MatCmd) (t : Thread) : Thread :=
  match q.op with
  | .gang a _ share => mmaOn (if share && !isLead then { t with latchA := lead } else t) a
  | _ => t

/-- Whether every member of a gang may perform it: met at the barrier, with leave, and no drain in progress. -/
def gangReady (s : State) (core : Nat) : Bool :=
  (gangRow core).all fun k => engineRuns s k && (matBusy (getCore s k)).isNone && match gangOffer (getCore s k) with
    | some (_, q) => q.ready && (k % 4 != 0 || q.leave == .granted)
    | none => false

/-- MGANG_EXEC: the gang of the core's row, once its barrier is met and leave is granted; or the discard of an MGANG. -/
def execMgangExec (core : Nat) (s : State) : Host.Outcome State Fault Refusal :=
  if gangReady s core then
    let leader := core / 4 * 4
    match gangOffer (getCore s leader) with
    | none => .next s
    | some (j, _) =>
      let lead := (refThread s ⟨leader, j⟩).latchA
      let s := (gangRow core).foldl (fun s k => match gangOffer (getCore s k) with
        | some (i, q) => servedMat s ⟨k, i⟩ (gangOn lead (k == leader) q)
        | none => s) s
      .next (dropLeave s ⟨leader, j⟩ leaveGang)
  else matStep s core (fun op => match op with
    | .gang _ _ _ => true
    | _ => false) fun _ _ => s

/-- A drain ends: `MATST`, CLR and the guard (R199); what reads it acquires at the scope that covers both cores (R110, R228). The flags
of its elements reach FLAGS though its target has refused them (R188); a tagged accumulator has not been rounded. -/
def endDrain (s : State) (r : Ref) (q : MatCmd) (fail : Option (BitVec 8)) : State :=
  match q.op with
  | .drain g a w target rnd seed draw =>
    let t := refThread s r
    let acc := getAcc t a
    let scope := match target with
      | some k => coverScope s r.core k
      | none => 0
    let s := acquireAt (modRef s r fun t => { t with drainScope := widerScope s r.core t.drainScope scope }) r.core scope
    servedMat s r fun t =>
      let t := if acc.tag = 0 then matFlags t (drainFlags (drainElems acc w rnd seed draw)) else t
      match fail with
      | some c => resolveG (matCause t c) (guardNo g) false
      | none => resolveG (if drainClr w then setAcc t a Acc.zero else t) (guardNo g) true
  | _ => s

/-- MDRAIN_EXEC. -/
def execMdrainExec (core : Nat) (s : State) : Host.Outcome State Fault Refusal :=
  matStep s core (fun op => match op with
    | .drain _ _ _ none _ _ _ => true
    | _ => false) fun r q => match q.op with
    | .drain _ a w _ rnd seed draw =>
      let acc := getAcc (refThread s r) a
      if acc.tag ≠ 0 then endDrain s r q (some acc.tag)
      else
        let s := (drainGranules (drainElems acc w rnd seed draw) w).foldl (fun s g =>
          engineWrite s core (bytesAt g.1 g.2) [g.1 / 16]) s
        endDrain s r q none
    | _ => s

/-- MDRAINR_EXEC: one granule of the drain goes on its way (R202). -/
def execMdrainrExec (core : Nat) (s : State) : Host.Outcome State Fault Refusal :=
  matStep s core (fun op => match op with
    | .drain _ _ _ (some _) _ _ _ => true
    | _ => false) fun r q => match q.op with
    | .drain _ a w (some target) rnd seed draw =>
      let acc := getAcc (refThread s r) a
      if acc.tag ≠ 0 then endDrain s r q (some acc.tag)
      else
        let gs := drainGranules (drainElems acc w rnd seed draw) w
        match gs[q.pos]? with
        | none => s
        | some g =>
          let last := q.pos + 1 = gs.length
          let s := send s (.drain r target g.1 g.2 (drainEnd w) (q.pos == 0) last)
          modMatHead s r fun q => { q with pos := q.pos + 1, sent := last }
    | _ => s

/-- LEAVE_GRANT: the oldest request of a cluster (R201, R422). -/
def execLeaveGrant (cluster : Nat) (s : State) : Host.Outcome State Fault Refusal :=
  .next ((grantLeave s cluster).getD s)

/-- CB4_LEAVE_END: sixteen cycles have passed without a cb4 MMA on the engine (R422). -/
def execCb4LeaveEnd (core : Nat) (s : State) : Host.Outcome State Fault Refusal :=
  let c := getCore s core
  let waiting := (List.range 16).any fun i => match matHead c i with
    | some q => q.leave == .granted && !isGang q
    | none => false
  let past := match c.lastCb4 with
    | some k => decide (s.cycle > k + 16)
    | none => true
  .next (if c.cb4Leave && past && !waiting then endCb4 s core else s)

/-- A drain's granule is performed at its target as an engine write; the last one ends the command at its engine (R199). -/
def performDrain (s : State) (src : Ref) (dst addr : Nat) (bs : List Byte) (endOff : Nat) (last : Bool) : State :=
  let fits := decide (endOff ≤ scratchSize (getCore s dst).part)
  let s := if fits then engineWrite s dst (bytesAt addr bs) [addr / 16] else s
  if !last then s
  else match (refThread s src).matq with
    | q :: _ => endDrain s src q (if fits then none else some causeMatRemote)
    | [] => s

end Sys2Proof.Machine
end

