-- ==== Sys2Proof/Machine/MatFamily.lean ====
section
/-!
DEFINITION. The MAT family at issue (R190, R191, R194 to R200).
-/

namespace Sys2Proof.Machine

/-- MZERO. -/
def execMzero (d : BitVec 2) (g : BitVec 3) (n : BitVec 1) (s : State) : Host.Outcome State Fault Refusal :=
  run 4 { acc := some d.toNat, noMsg := true, mat := true } s fun s => queueMat s (.zero d.toNat) g n none id

/-- The issue of MLDA and MLDB (R196). With ACC = 0 they trap as if they named an accumulator; in the message slot, where they
name none, they are SLOT_FORBIDDEN (R191). -/
def latchLoad (b_ : Bool) (d a b : BitVec 5) (g : BitVec 3) (n : BitVec 1) (s : State) : Host.Outcome State Fault Refusal :=
  run 4 { xr := [a, b], vs := [d.toNat], acc := some 0, noMsg := true, mat := true } s fun s =>
    let t := curThread s
    let off := getX t a
    let geo := getX t b
    let fmt := fieldOf t.csr.matst (if b_ then 21 else 18) 3
    let cb := fieldOf t.csr.matst (if b_ then 32 else 24) 8
    let rows := fieldOf geo 0 16
    let pitch := fieldOf geo 16 16
    let idx := (List.range 8).map fun i => fieldOf (getV t d) (32 * i) 32
    if fmt > 4 then .trap s causeMatFormat t.csr.matst
    else if off.toNat % 16 ≠ 0 ∨ off.toNat ≥ 2 ^ 16 then .trap s causeMatOperand off
    else if rows = 0 ∨ pitch % 16 ≠ 0 ∨ pitch < rowBytes fmt ∨ fieldOf geo 32 32 ≠ 0 then .trap s causeMatOperand geo
    else match idx.find? (fun i => decide (i ≥ rows)) with
      | some i => .trap s causeMatOperand (wordOf i)
      | none =>
        if off.toNat + rows * pitch + (if fmt = 0 then 0 else 2 * rows) > curSP s then .trap s causeMatOperand off
        else queueMat s (.load b_ off.toNat rows pitch idx fmt cb) g n none id

/-- MLDA. -/
def execMlda (d a b : BitVec 5) (g : BitVec 3) (n : BitVec 1) (s : State) : Host.Outcome State Fault Refusal :=
  latchLoad false d a b g n s

/-- MLDB. -/
def execMldb (d a b : BitVec 5) (g : BitVec 3) (n : BitVec 1) (s : State) : Host.Outcome State Fault Refusal :=
  latchLoad true d a b g n s

/-- MMA. -/
def execMma (d : BitVec 2) (g : BitVec 3) (n : BitVec 1) (s : State) : Host.Outcome State Fault Refusal :=
  run 4 { acc := some d.toNat, noMsg := true, mat := true } s fun s => queueMat s (.mma d.toNat) g n none id

/-- MGANG (R198). -/
def execMgang (d : BitVec 2) (a : BitVec 5) (g : BitVec 3) (n : BitVec 1) (s : State) : Host.Outcome State Fault Refusal :=
  run 4 { xr := [a], acc := some d.toNat, noMsg := true, mat := true } s fun s =>
    let w := getX (curThread s) a
    if w.toNat ≥ 2 ^ 9 then .trap s causeMatOperand w
    else queueMat s (.gang d.toNat (fieldOf w 0 8) (fieldOf w 8 1 = 1)) g n none id

/-- A drain is queued: `RND` and `SEED` are captured, and under RSH its 64 draws are taken (R199). -/
def queueDrain (s : State) (d : BitVec 3) (a : BitVec 2) (w : Word) (target : Option Nat) (g : BitVec 3) (n : BitVec 1) : Res :=
  let c := (curThread s).csr
  queueMat s (.drain d.toNat a.toNat w target c.rnd c.seed c.draw) g n (some d) fun t => takeDraws t 64

/-- MDRAIN. -/
def execMdrain (d : BitVec 3) (a : BitVec 2) (b : BitVec 5) (g : BitVec 3) (n : BitVec 1) (s : State) : Host.Outcome State Fault Refusal :=
  run 4 { xr := [b], acc := some a.toNat, rounds := true, noMsg := true, mat := true } s fun s =>
    let w := getX (curThread s) b
    if !drainOk w || decide (drainEnd w > curSP s) then .trap s causeMatOperand w else queueDrain s d a w none g n

/-- MDRAINR. -/
def execMdrainr (d : BitVec 3) (a : BitVec 2) (b : BitVec 4) (g : BitVec 3) (n : BitVec 1) (s : State) : Host.Outcome State Fault Refusal :=
  run 4 { xr := [regNo (2 * b.toNat)], xs := [2 * b.toNat + 1], acc := some a.toNat, rounds := true, noMsg := true, mat := true } s fun s =>
    let t := curThread s
    let w := getX t (regNo (2 * b.toNat))
    let k := getX t (regNo (2 * b.toNat + 1))
    let inside := match getCtx? s (curCtx s) with
      | some c => decide (k.toNat < 2 ^ 20) && inGrid c k.toNat
      | none => false
    if !drainOk w then .trap s causeMatOperand w
    else if !inside then .trap s causeBadCore k
    else queueDrain s d a w (some (coreKey (curCtx s) k.toNat)) g n

/-- MLDCB (R200). -/
def execMldcb (a b : BitVec 5) (g : BitVec 3) (n : BitVec 1) (s : State) : Host.Outcome State Fault Refusal :=
  runGated 4 { xr := [a, b], noMsg := true, mat := true } g n none s fun s =>
    let t := curThread s
    let slot := getX t a
    let off := getX t b
    if slot.toNat ≥ 256 then .trap s causeMatOperand slot
    else if off.toNat % 16 ≠ 0 ∨ off.toNat + 32 > curSP s then .trap s causeMatOperand off
    else localAccess s (releasing s (
      let c := curCore s
      if poolPoisoned c off.toNat 32 then .trap s causePoisoned off
      else
        let bs := poolBytes c off.toNat 32
        if !codebookOk (bytesVal 256 bs) then .trap s causeCodebookRange slot
        else match getCtx? s (curCtx s) with
          | none => .ok s 0
          | some x =>
            let pa := ctxCbtab x + 32 * slot.toNat
            .ok (softWrite s pa bs) 0))

/-- MFMT (R194). -/
def execMfmt (a : BitVec 5) (s : State) : Host.Outcome State Fault Refusal :=
  runT 4 { xr := [a], noMsg := true, mat := true } s fun t =>
    let v := getX t a
    if fieldOf v 0 3 > 4 ∨ fieldOf v 3 3 > 4 ∨ fieldOf v 6 2 ≠ 0 ∨ fieldOf v 24 40 ≠ 0 then .trap causeMatFormat v
    else
      let m := setField t.csr.matst 18 6 (fieldOf v 0 6)
      .ok { t with csr := { t.csr with matst := setField m 24 16 (fieldOf v 8 16) } } 0

/-- Whether a command is an MGANG that waits at its barrier. -/
def atBarrier (q : MatCmd) : Bool :=
  match q.op, q.gate with
  | .gang _ _ _, .go => !q.ready
  | _, _ => false

/-- Whether a head waits for power leave, its own or, past its barrier, the one that its row's leader has asked for (R198, R201). -/
def awaitsLeave (s : State) (q : MatCmd) : Bool :=
  q.leave == .asked || q.ready && match gangOffer (getCore s (s.cur.1 / 4 * 4)) with
    | some (_, l) => l.leave == .asked
    | none => false

/-- MSTAT (R195): a count of 0 acquires what the thread's completed commands released. -/
def execMstat (d : BitVec 5) (s : State) : Host.Outcome State Fault Refusal :=
  run 4 { xw := some d, noMsg := true, mat := true } s fun s =>
    let t := curThread s
    let waits := match t.matq with
      | q :: _ => atBarrier q
      | [] => false
    let v := t.matq.length + (if waits then 4 else 0) + (if t.matq.any (awaitsLeave s) then 8 else 0)
    let s := if t.matq.isEmpty then acquireAt (modCur s fun t => { t with drainScope := 0 }) s.cur.1 t.drainScope else s
    .ok (modCur s fun t => setX t d (wordOf v)) 0

end Sys2Proof.Machine
end

