-- ==== Sys2Proof/Machine/MessageEvents.lean ====
section
/-!
DEFINITION. The steps in which messages arrive: replies and acknowledgements (R104, R163), messages and handlers (R165),
built-in messages (R169), chain words (R170), migrating threads (R122), engine writes (R199, R215).
-/

namespace Sys2Proof.Machine

/-- REPLY; that of a thread which pre-emption has halted is held until it resumes (R253, R418). -/
def execReply (msg : Nat) (s : State) : Host.Outcome State Fault Refusal :=
  onMsg msg s fun p s => match p with
    | .reply r src data => if replyHeld s r then none else some (performReply s r src data)
    | .source r _ tag data => some (performSource s r tag data)
    | _ => none

/-- ACKNOWLEDGEMENT. -/
def execAcknowledgement (msg : Nat) (s : State) : Host.Outcome State Fault Refusal :=
  onMsg msg s fun p s => match p with
    | .ack r _ => some (modRef s r fun t => { t with unacked := t.unacked - 1 })
    | _ => none

/-- MESSAGE_ARRIVAL: the inbound queue holds 32 messages; one for a core that is saved waits until it is restored (R253). -/
def execMessageArrival (msg : Nat) (s : State) : Host.Outcome State Fault Refusal :=
  onMsg msg s fun p s => match p with
    | .request d m =>
      if corePlaced s d && decide ((getCore s d).inq.length < 32) then some (modCore s d fun c => { c with inq := c.inq ++ [m], arrived := c.arrived + 1 }) else none
    | _ => none

/-- DEFERRED_RESEND: once its time has come, and no request that its agent sent to the core before it is still to be performed
(R152, log 151). -/
def execDeferredResend (msg : Nat) (s : State) : Host.Outcome State Fault Refusal :=
  let earlier := s.net.take msg
  onMsg msg s fun p s => match p with
    | .resend d m due =>
      let behind := heldAt s d m.src || s.net.any (mayWaitTo d m.src) || earlier.any (resendTo d m.src)
      if due ≤ s.cycle && !behind then some (send s (.request d m)) else none
    | _ => none

/-- A step of the message slot on the oldest message of its queue. -/
def onInq (core : Nat) (s : State) (f : Message → State → Option State) : Host.Outcome State Fault Refusal :=
  match takeInq s core with
  | some (m, s') => .next ((f m s').getD s)
  | none => .next s

/-- HANDLER_START. -/
def execHandlerStart (core : Nat) (s : State) : Host.Outcome State Fault Refusal :=
  onInq core s fun m s => match m.req with
    | .user _ _ _ _ => some (startHandler s core m)
    | _ => none

/-- LOAD. -/
def execLoad (core : Nat) (s : State) : Host.Outcome State Fault Refusal :=
  onInq core s fun m s => match m.req with
    | .load a n => some (inBounds s core m fun s =>
        if poolPoisoned (getCore s core) a n then failRequest s core m causePoisoned
        else answerRequest s core m (.ok (poolBytes (getCore s core) a n)))
    | .source _ _ _ => some (sourceRequest s core m)
    | _ => none

/-- STORE. -/
def execStore (core : Nat) (s : State) : Host.Outcome State Fault Refusal :=
  onInq core s fun m s => match m.req with
    | .store a bs => some (inBounds s core m fun s =>
        answerRequest (modCore s core fun c => poolStore c 16 a bs) core m (.ok []))
    | _ => none

/-- SYNC_LOAD. -/
def execSyncLoad (core : Nat) (s : State) : Host.Outcome State Fault Refusal :=
  onInq core s fun m s => match m.req with
    | .syncLoad _ _ _ => some (syncRequest s core m)
    | _ => none

/-- FILL. -/
def execFill (core : Nat) (s : State) : Host.Outcome State Fault Refusal :=
  onInq core s fun m s => match m.req with
    | .fill _ _ _ => some (syncRequest s core m)
    | _ => none

/-- FE. -/
def execFe (core : Nat) (s : State) : Host.Outcome State Fault Refusal :=
  onInq core s fun m s => match m.req with
    | .fe _ _ => some (syncRequest s core m)
    | _ => none

/-- ATOMIC: the read-modify-write atomics and the exact cells. -/
def execAtomic (core : Nat) (s : State) : Host.Outcome State Fault Refusal :=
  onInq core s fun m s => match m.req with
    | .atomic _ _ _ _ _ => some (atomicRequest s core m)
    | .cell _ _ _ _ => some (atomicRequest s core m)
    | _ => none

/-- A built-in message for a handle of the core (R218). -/
def serveHandle (core : Nat) (s : State) : Host.Outcome State Fault Refusal :=
  onInq core s fun m s => match m.req with
    | .handle _ _ => some (handleRequest s core m)
    | _ => none

/-- MUSTER_STEP. -/
def execMusterStep (core : Nat) (s : State) : Host.Outcome State Fault Refusal :=
  onInq core s fun m s => match m.req with
    | .muster _ _ _ _ => some (musterRequest s core m)
    | _ => none

/-- MUSTER_ANSWER. -/
def execMusterAnswer (msg : Nat) (s : State) : Host.Outcome State Fault Refusal :=
  onMsg msg s fun p s => match p with
    | .answer d _ g ok scope => if g = 7 && replyHeld s d then none else some (deliverAnswer s d g ok scope)
    | _ => none

/-- CHAIN_WORD: the word enters the queue of the thread whose upstream neighbour sent it; that of a thread that has gone is
lost with it. -/
def execChainWord (msg : Nat) (s : State) : Host.Outcome State Fault Refusal :=
  onMsg msg s fun p s => match p with
    | .chainWord src dst w =>
      some (modRef s dst fun t => if t.up = some src then { t with chainIn := t.chainIn ++ [w] } else t)
    | _ => none

/-- MIGRATION_ARRIVAL: the thread takes the lowest EMPTY slot below U (R122 step 4). -/
def execMigrationArrival (msg : Nat) (s : State) : Host.Outcome State Fault Refusal :=
  onMsg msg s fun p s => match p with
    | .migrant src dst =>
      let t := refThread s src
      match t.wait, migrateReady s src dst, lowestEmpty (getCore s dst) (getCore s src.core).part with
      | .migrate _ again, true, some slot =>
        if t.phase ≠ .parked then none
        else (readyCore s dst (liveLaunch s src)).map fun s => migrateThread s src ⟨dst, slot⟩ again
      | _, _, _ => none
    | _ => none

/-- MDRAINR_WRITE. -/
def execMdrainrWrite (msg : Nat) (s : State) : Host.Outcome State Fault Refusal :=
  onMsg msg s fun p s => match p with
    | .drain src dst addr bs endOff _ last => some (performDrain s src dst addr bs endOff last)
    | _ => none

/-- COPY_CHUNK_ARRIVAL. -/
def execCopyChunkArrival (msg : Nat) (s : State) : Host.Outcome State Fault Refusal :=
  onMsg msg s fun p s => match p with
    | .chunk src dst _ bytes fill debt check => some (performChunk s src dst bytes fill debt check)
    | _ => none

end Sys2Proof.Machine
end

