-- ==== Sys2Proof/Machine/MusterFamily.lean ====
section
/-!
DEFINITION. The MUSTER family (R319).
-/

namespace Sys2Proof.Machine

/-- Operand checks of R319 after the address word: MINIT's init word, MWAIT's parity. -/
def musterOperand (s : State) (op : Nat) (v : Word) : Option Stop :=
  if op = 0 then
    if fieldOf v 0 16 = 0 ∨ fieldOf v 21 11 ≠ 0 then some (.trap causeMusterOperand v)
    else if !scopeDefined s (curCtx s) (fieldOf v 16 5) then some (.trap causeBadScope (wordOf (fieldOf v 16 5)))
    else none
  else if op = 2 && decide (v.toNat > 1) then some (.trap causeMusterOperand v)
  else none

/-- The end of a wait through a LOCAL segment (R319). -/
def musterEnd (s : State) (guard : Nat) (word : Word) : MusterEnd → Res
  | .busy => .trap s causeMusterBusy word
  | .answered ok scope =>
    let s := acquireAt s s.cur.1 scope
    if guard < 7 then .ok (modCur s fun t => resolveG t (guardNo guard) ok) 0
    else if ok then .ok s 0 else .trap s causeMusterFault word
  | .held =>
    if guard < 7 then .ok (modCur s fun t => { t with asyncWaits := t.asyncWaits + 1 }) 0
    else .stop s (.park (.reply (.muster word) 0 0))
  | _ => .ok s 0

/-- An instruction of the family: `waits` for MWAIT and MSYNC, whose guard is `d`. -/
def musterRun (op : Nat) (need : Nat) (d : BitVec 3) (a : BitVec 5) (v : State → Word) (xr : List (BitVec 5)) (g : BitVec 3) (gs : BitVec 1)
    (s : State) : Host.Outcome State Fault Refusal :=
  let waits := op = 2 ∨ op = 3
  runGated 4 { xr := xr, gs := if waits then [d] else [], noMsg := waits } g gs (if waits then some fun t => setG t d 0 else none) s fun s =>
      let word := getX (curThread s) a
      let v := v s
      let sg : BitVec 3 := BitVec.ofNat 3 (fieldOf word 61 3)
      if fieldOf word 56 5 ≠ 0 || segKind (getSeg (curThread s) sg) == kindGlobal then .trap s causeMusterOperand word
      else match segCheck s sg (wordOf (fieldOf word 0 56)) 0 16 need true with
        | .error e => .stop s e
        | .ok p =>
          match musterOperand s op v with
          | some e => .stop s e
          | none =>
            let start (k : State → Res) : Res :=
              if waits && d != 7 then
                if (curThread s).asyncWaits ≥ 4 ∨ (p.kind = kindCore ∧ portShut s (targetCore s p)) then .stop s (.park .retry) else k (modCur s fun t => pendG t d)
              else k s
            let go (k : State → Res) : Res := if op = 2 then start k else releasing s (start k)
            if p.kind = kindCore then
              go fun s =>
                let req : Request := .muster op p.addr v d.toNat
                if op = 0 then askCore s p req (.minit word)
                else if !waits then postCore s p req
                else if d = 7 && portShut s (targetCore s p) then .stop s (.park .retry)
                else
                  let s := send s (.request (targetCore s p) ⟨curRef s, req⟩)
                  if d = 7 then .stop s (.park (.reply (.muster word) p.sg p.off))
                  else .ok (modCur s fun t => { t with asyncWaits := t.asyncWaits + 1 }) 0
            else localAccess s (go fun s' =>
              if op ≠ 0 && poolPoisoned (curCore s) p.addr 16 then .trap s causePoisoned (wordOf p.addr)
              else
                let (s', e) := musterStep s' s.cur.1 s.cur.2.val (curRef s) op p.addr v d.toNat true
                musterEnd s' d.toNat word e)

/-- MINIT. -/
def execMinit (a b : BitVec 5) (g : BitVec 3) (n : BitVec 1) (s : State) : Host.Outcome State Fault Refusal :=
  musterRun 0 (needW + needA) 7 a (fun s => getX (curThread s) b) [a, b] g n s

/-- MARRIVE. -/
def execMarrive (a b : BitVec 5) (g : BitVec 3) (n : BitVec 1) (s : State) : Host.Outcome State Fault Refusal :=
  musterRun 1 needA 7 a (fun s => getX (curThread s) b) [a, b] g n s

/-- MWAIT. -/
def execMwait (d : BitVec 3) (a b : BitVec 5) (g : BitVec 3) (n : BitVec 1) (s : State) : Host.Outcome State Fault Refusal :=
  musterRun 2 (needA + needS) d a (fun s => getX (curThread s) b) [a, b] g n s

/-- MSYNC. -/
def execMsync (d : BitVec 3) (a : BitVec 5) (g : BitVec 3) (n : BitVec 1) (s : State) : Host.Outcome State Fault Refusal :=
  musterRun 3 (needA + needS) d a (fun _ => 0) [a] g n s

/-- MDEBT. -/
def execMdebt (a b : BitVec 5) (g : BitVec 3) (n : BitVec 1) (s : State) : Host.Outcome State Fault Refusal :=
  musterRun 4 needA 7 a (fun s => getX (curThread s) b) [a, b] g n s

end Sys2Proof.Machine
end

