-- ==== Sys2Proof/Machine/PageEvents.lean ====
section
/-!
DEFINITION. The steps of fault service, eviction, recall and duplication (R271 to R274), and the growth of the Trail (R360).
-/

namespace Sys2Proof.Machine

/-! ## Pages as Hjelec moves them -/

/-- The start of a page, and the key under which it is kept away. -/
def pageStart (l : Leaf) (va : Nat) : Nat := va / leafSize l * leafSize l
def awayKey (l : Leaf) (va : Nat) : Nat := pageStart l va / 65536

/-- The bytes of a range of memory that are not zero, by offset from `to_`. -/
def rangeCells (m : List Host.Cell) (pa n to_ : Nat) : List Host.Cell :=
  (m.filter fun p => decide (pa ≤ p.1) && decide (p.1 < pa + n)).map fun p => (p.1 - pa + to_, p.2)

/-- Numbers of a list within a range, as cells that hold 1. -/
def rangeMarks (l : List Nat) (first n to_ : Nat) : List Host.Cell :=
  (l.filter fun k => decide (first ≤ k) && decide (k < first + n)).map fun k => (k - first + to_, 1)

/-- The future bits and poison of a frame, and the poison of its scale frame (R321, R417). -/
def frameMarks (s : State) (pa n sc m : Nat) : List Host.Cell :=
  rangeMarks s.futures (pa / 8) (n / 8) (2 ^ 33) ++ rangeMarks s.poisoned (pa / 64) (n / 64) (2 ^ 34)
    ++ rangeMarks s.poisoned (sc / 64) (m / 64) (2 ^ 35)

/-- Everything that a page holds. -/
def frameCells (s : State) (l : Leaf) : List Host.Cell :=
  let pa := pteFrame l.base
  rangeCells s.mem pa (leafSize l) 0 ++ rangeCells s.mem (pteScale l.fmt) (scaleSize l) (2 ^ 32) 
    ++ frameMarks s pa (leafSize l) (pteScale l.fmt) (scaleSize l)

/-- Cells of a page from an offset on, for `n`. -/
def cellsFrom (m : List Host.Cell) (first n : Nat) : List Host.Cell :=
  (m.filter fun p => decide (first ≤ p.1) && decide (p.1 < first + n)).map fun p => (p.1 - first, p.2)

/-- A range of memory takes the given bytes, and zero elsewhere. -/
def fillRange (m : List Host.Cell) (pa n : Nat) (bytes : List Host.Cell) : List Host.Cell :=
  bytes.foldl (fun m b => cellSet m (pa + b.1) b.2) (m.filter fun p => !(decide (pa ≤ p.1) && decide (p.1 < pa + n)))

/-- A list of numbers takes the given ones within a range, and no other there. -/
def fillMarks (l : List Nat) (first n : Nat) (marks : List Host.Cell) : List Nat :=
  marks.foldl (fun l b => setAdd l (first + b.1)) (l.filter fun k => !(decide (first ≤ k) && decide (k < first + n)))

/-- What a page held comes back into a frame. -/
def restoreFrame (s : State) (l : Leaf) (frame : Nat) (cells : List Host.Cell) : State :=
  let n := leafSize l
  let mem := fillRange s.mem frame n (cellsFrom cells 0 (2 ^ 32))
  let mem := if scaleSize l = 0 then mem else fillRange mem (pteScale l.fmt) (scaleSize l) (cellsFrom cells (2 ^ 32) (2 ^ 32))
  let poisoned := fillMarks s.poisoned (frame / 64) (n / 64) (cellsFrom cells (2 ^ 34) (2 ^ 34))
  let s := { s with
    mem := mem
    futures := fillMarks s.futures (frame / 8) (n / 8) (cellsFrom cells (2 ^ 33) (2 ^ 33))
    poisoned := fillMarks poisoned (pteScale l.fmt / 64) (scaleSize l / 64) (cellsFrom cells (2 ^ 35) (2 ^ 35)) }
  dropLines (dropLines s frame n) (pteScale l.fmt) (scaleSize l)

/-- Whether a frame lies in populated device memory, aligned to its size (R260). -/
def frameFits (s : State) (pa n : Nat) : Bool := pa % n == 0 && isDevice s pa && isDevice s (pa + n - 1)

/-! ## Fault service (R271) -/

/-- What Hjelec finds of a record: not its own, to be left for now, to be answered by the wake, or unserviceable. -/
inductive FaultState where
  | other | waits | wake | unserviceable
deriving DecidableEq, Repr

def faultState (s : State) (r : FaultRec) : FaultState :=
  match getCtx? s r.ctx with
  | none => .wake
  | some c =>
    let found := walk s r.ctx r.va
    if r.cause = causePfAway then
      match found with
      | .error (k, _) => if k = causePfAway then .waits else .wake
      | .ok _ => .wake
    else if ctxPager c then .other
    else match found with
      | .error (k, _) => if k ≠ causePfUnmapped then .wake else if c.phase = .running then .unserviceable else .waits
      | .ok _ => .wake

/-- FAULT_SERVICE: the oldest record of the die that Hjelec can serve; with none, a context whose faults were dropped. -/
def execFaultService (die : Nat) (s : State) : Host.Outcome State Fault Refusal :=
  let d := getDie s die
  match d.faults.find? fun r => faultState s r == .wake || faultState s r == .unserviceable with
  | some r =>
    let s' := settleCapacity (modDie s die fun d => { d with faults := d.faults.erase r }) die
    .next (if faultState s r = .wake then replayFaults s' r.ctx die else haltContext s' r.ctx causePfUnmapped)
  | none =>
    match d.dropped.find? fun k => !(d.faults.any (·.ctx == k)) && match getCtx? s k with
      | some c => !ctxPager c
      | none => true with
    | some k => .next (replayFaults s k die)
    | none => .next s

/-- FAULT_BUFFER_CAPACITY. -/
def execFaultBufferCapacity (die capacity : Nat) (s : State) : Host.Outcome State Fault Refusal :=
  .next (if die < 8 ∧ 8 ≤ capacity ∧ capacity ≤ 1024 then
    settleCapacity (modDie s die fun d => { d with newCapacity := some capacity }) die else s)

/-! ## Eviction (R272) -/

/-- Whether a frame holds a future with waiters (R267). -/
def frameWaits (s : State) (pa n : Nat) : Bool :=
  s.waits.any fun p => p.2.any fun w => decide (pa ≤ 8 * w.word) && decide (8 * w.word < pa + n)

/-- Whether a page belongs to the context's revision pool or Trail, which Hjelec never evicts (R267). -/
def deviceOwn (c : Context) (start size : Nat) : Bool :=
  let meets (base n : Nat) : Bool := decide (base < start + size) && decide (start < base + n)
  meets (ctxRevpool c) (ctxRevsize c) || (ctxTrailpages c != 0 && meets (ctxTrailbase c) (65536 * c.trail.pages))

/-- An eviction's step writes an entry; the commit point takes hold of what the page holds then (R272). -/
def evictWrite (s : State) (ctx : Nat) (l : Leaf) (base : Word) (cells : Option (List Host.Cell)) : State :=
  modCtx (setLeaf s l base) ctx fun c => { c with evicting := mapSet c.evicting l.entry cells }

/-- An eviction ends. -/
def evictEnd (s : State) (ctx : Nat) (l : Leaf) : State := modCtx s ctx fun c => { c with evicting := mapErase c.evicting l.entry }

/-- Whether an entry is still as its eviction wrote it, but for A: no software write has taken it out (R265, R266). -/
def evictStands (c : Context) (l : Leaf) : Bool := (mapGet? c.evicting l.entry).isSome

/-- EVICTION_SELECT. -/
def execEvictionSelect (ctx va : Nat) (s : State) : Host.Outcome State Fault Refusal :=
  match rawLeaf s ctx va, getCtx? s ctx with
  | some l, some c => .next (if pteState l.base = stResident && !frameWaits s (pteFrame l.base) (leafSize l)
      && !deviceOwn c (pageStart l va) (leafSize l) then evictWrite s ctx l (setPteState l.base stEvicting false) none else s)
  | _, _ => .next s

/-- COMMIT_POINT: it waits for the future accesses that were translated before; every other has been performed, since each is one step.
A software write of the entry has abandoned the eviction (R266). -/
def execCommitPoint (ctx va : Nat) (s : State) : Host.Outcome State Fault Refusal :=
  match rawLeaf s ctx va, getCtx? s ctx with
  | some l, some c =>
    if pteState l.base ≠ stEvicting || pteCommit l.base then .next s
    else if !evictStands c l then .next (evictEnd s ctx l)
    else if frameWaits s (pteFrame l.base) (leafSize l) then .next s
    else .next (dropPage (evictWrite (shootdown s ctx va) ctx l (setPteState l.base stEvicting true) (some (frameCells s l))) l false)
  | _, _ => .next s

/-- An idle core (R273). -/
def coreIdle (c : Core) : Bool :=
  (userSlots c).all (fun p => p.2.phase == .empty && p.2.mailbox.isEmpty) && readyEmpty c && c.inq.isEmpty

/-- Whether a quarter can lie at a place: `q` is a core's key times 4 and the offset over 16 KiB. -/
def quarterFits (s : State) (ctx q : Nat) : Bool :=
  let k := q / 4
  let off := q % 4 * 16384
  let c := getCore s k
  let inside := match getCtx? s ctx with
    | some x => inGrid x (packedOf k)
    | none => false
  ctxOf k == ctx && inside && corePlaced s k && coreIdle c && decide (off + 16384 ≤ scratchSize c.part) && !c.quarters.any (·.1 == off)

/-- Place a quarter of a page. -/
def placeQuarter (s : State) (page i q : Nat) (cells : List Host.Cell) : State :=
  settleBits (modCore s (q / 4) fun c =>
    let off := q % 4 * 16384
    let c := emptyQuarter (clearQuarter c off) off
    { c with
      pool := (cellsFrom cells (i * 16384) 16384).foldl (fun m b => cellSet m (off + b.1) b.2) c.pool
      quarters := c.quarters ++ [(off, 4 * page + i)] }) (q / 4)

/-- Whether the basket has room for a page: four quarters on idle cores (R273). -/
def basketRoom (s : State) (ctx : Nat) : Bool :=
  match getCtx? s ctx with
  | some c =>
    let places := (List.range (ctxGridW c * ctxGridH c)).flatMap fun i => (List.range 64).map (64 * gridCluster ctx c i + ·)
    decide (4 ≤ (places.filter (quarterFits s ctx)).length)
  | none => false

/-- COPY_OUT_COMPLETE: four places for the quarters of a 64 KiB RAW page, or none, where the page cannot go into the basket or that
has no room, for host memory (R273). -/
def execCopyOutComplete (ctx va : Nat) (quarters : List Nat) (s : State) : Host.Outcome State Fault Refusal :=
  match rawLeaf s ctx va, getCtx? s ctx with
  | some l, some c =>
    let key := awayKey l va
    let cells := ((mapGet? c.evicting l.entry).bind id).getD []
    let basket := !l.large && pteFmt l.fmt == 0
    let away (s : State) (kept : List Host.Cell) (st : Nat) : Host.Outcome State Fault Refusal :=
      .next (setLeaf (modCtx (evictEnd s ctx l) ctx fun c => { c with away := mapSet c.away key kept }) l (setPteState l.base st false))
    if pteState l.base ≠ stEvicting || !pteCommit l.base then .next s
    else if !evictStands c l then .next (evictEnd s ctx l)
    else if quarters.isEmpty && !(basket && basketRoom s ctx) then away s cells stHost
    else if !basket || quarters.length ≠ 4 || quarters.eraseDups.length ≠ 4 || !quarters.all (quarterFits s ctx) then .next s
    else away (quarters.zipIdx.foldl (fun s q => placeQuarter s key q.2 q.1 cells) s) (cells.filter fun b => decide (2 ^ 33 ≤ b.1)) stBasket
  | _, _ => .next s

/-! ## Recall (R272, R273) -/

/-- Threads that wait for Hjelec's recall of a page go on (R279). -/
def wakeRecall (s : State) (ctx page size : Nat) : State :=
  let due (t : Thread) : Bool := match t.wait with
    | .recall va => decide (page ≤ va) && decide (va < page + size)
    | _ => false
  { s with
    cores := s.cores.map fun p =>
      if ctxOf p.1 = ctx then (p.1, { p.2 with slots := p.2.slots.map fun t => if due t then rewait t else t }) else p }

/-- RECALL: an away page comes back to a frame that Hjelec has chosen. A SAVED context's quarters lie in its images. -/
def execRecall (ctx va frame : Nat) (s : State) : Host.Outcome State Fault Refusal :=
  match rawLeaf s ctx va, getCtx? s ctx with
  | some l, some c =>
    let st := pteState l.base
    if (st ≠ stBasket && st ≠ stHost) || (st = stBasket && c.phase = .saved) || !frameFits s frame (leafSize l) then .next s
    else
      let key := awayKey l va
      let kept := mapGet c.away key []
      let cells := if st = stBasket then basketBytes s ctx key ++ kept else kept
      let s := if st = stBasket then freeQuarters s ctx key else s
      let s := restoreFrame s l frame cells
      let s := modCtx s ctx fun c => { c with away := mapErase c.away key }
      let base := setField (setField (setPteState l.base stResident false) 16 36 (frame / 65536)) 56 8 0
      .next (wakeRecall (payLeaves (setLeaf s l base) ctx) ctx (pageStart l va) (leafSize l))
  | _, _ => .next s

/-! ## Duplication (R274) -/

/-- An address in memory group g. -/
def inGroup (pa g : Nat) : Nat := pa % 2 ^ 40 + g * 2 ^ 40

/-- DUPLICATE: every replica has the page's bytes, scales and future bits (R274, R321). -/
def execDuplicate (ctx va : Nat) (s : State) : Host.Outcome State Fault Refusal :=
  match rawLeaf s ctx va with
  | none => .next s
  | some l =>
    let pa := pteFrame l.base
    let sc := pteScale l.fmt
    let n := leafSize l
    let m := scaleSize l
    let all := (List.range 4).all fun g => isDevice s (inGroup pa g + n - 1) && (m == 0 || isDevice s (inGroup sc g + m - 1))
    if pteState l.base ≠ stResident || !isDevice s pa || !all then .next s
    else
      let cells := frameCells s l
      let s := (List.range 4).foldl (fun s g =>
        restoreFrame s { l with fmt := setField l.fmt 28 2 g } (inGroup pa g) cells) s
      .next (setLeaf (shootdown s ctx va) l (setPteState l.base stDuplicated false))

/-! ## The Trail's pages (R360) -/

/-- The PA of the level-4 entry of a page, where the tables above it are there (R262). -/
def leafSlot (s : State) (table va : Nat) : List (Nat × Nat × Nat) → Option Nat
  | [] => none
  | [(_, lo, n)] => some (table + 16 * (va / 2 ^ lo % 2 ^ n))
  | (_, lo, n) :: more =>
    let e : Word := wordOf (memNat s (table + 16 * (va / 2 ^ lo % 2 ^ n)) 8)
    if !pteLeaf e && pteState e == stResident then leafSlot s (pteFrame e) va more else none

/-- TRAIL_PAGE_MAP: Hjelec maps and pins the next page of a Trail that has filled, with the rights of its first page; or it
has no page to give. -/
def execTrailPageMap (ctx : Nat) (frame : Option Nat) (s : State) : Host.Outcome State Fault Refusal :=
  match getCtx? s ctx with
  | none => .next s
  | some c =>
    if c.trail.mode ≠ 1 || !c.trail.full || c.trail.exhausted then .next s
    else match frame with
      | none => .next (modTrail s ctx fun t => { t with exhausted := true })
      | some pa =>
        let va := ctxTrailbase c + 65536 * c.trail.pages
        match leafSlot s (ctxRoot c) va walkLevels, rawLeaf s ctx (ctxTrailbase c) with
        | some slot, some first =>
          if !frameFits s pa 65536 || pteState (wordOf (memNat s slot 8)) ≠ stUnmapped then .next s
          else
            let base := setField (setField (setPteState first.base stPinned false) 16 36 (pa / 65536)) 56 8 1
            let s := memWrite s slot (valBytes 8 base ++ leBytes 8 0)
            .next (modTrail s ctx fun t => { t with pages := t.pages + 1 })
        | _, _ => .next s

end Sys2Proof.Machine
end

