-- ==== Sys2Proof/Machine/PairFamily.lean ====
section
/-!
DEFINITION. The PAIR family (R348 to R356): traversals, pair records, and the test of two nodes.
-/

namespace Sys2Proof.Machine

/-! ## Handles and pair words (R342, R348) -/

/-- The live traversal of a handle; a handle with nonzero bits above 35 traps PAIR_OPERAND, one that is not live PAIR_STALE. -/
def livePair (s : State) (h : Word) (k : Traversal → Res) : Res :=
  if fieldOf h 36 28 ≠ 0 then .trap s causePairOperand h
  else match travLive s (curCtx s) h with
    | some t => k t
    | none => .trap s causePairStale h

/-- The current cluster. -/
def curCluster (s : State) : Nat := clusterOf s.cur.1

/-- Whether a pair of nodes is a self-pair (R343). -/
def isSelfPair (t : Traversal) (a b : Nat) : Bool := t.self && a == b

/-! ## TOPEN (R349) -/

/-- The tree regions of the live launches of a context, placed ones alone (R338). -/
def treeRegions (s : State) (ctx : Nat) : List (Nat × Nat) :=
  match getCtx? s ctx with
  | some c => c.launches.flatMap fun p => if p.2.phase == .running || p.2.phase == .placing then p.2.kernel.trees else []
  | none => []

/-- Whether a node range lies within one tree region. -/
def inTree (s : State) (ctx base count : Nat) : Bool :=
  (treeRegions s ctx).any fun r => r.1 ≤ base && decide (base + 64 * count ≤ r.1 + 64 * r.2)

/-- TOPEN. -/
def execTopen (d a : BitVec 5) (g : BitVec 3) (n : BitVec 1) (s : State) : Host.Outcome State Fault Refusal :=
  runGated 4 { xr := [a], xw := some d, noMsg := true } g n none s fun s =>
    let t := curThread s
    let off := getX t a
    if off.toNat % 16 ≠ 0 ∨ off.toNat ≥ 2 ^ 16 ∨ off.toNat + 64 > curSP s then .trap s causePairOperand off
    else releasing s (localAccess s (
      if poolPoisoned (curCore s) off.toNat 64 then .trap s causePoisoned off
      else
        let bs := poolBytes (curCore s) off.toNat 64
        let f (o n : Nat) : Nat := leNat ((bs.drop o).take n)
        let ctx := curCtx s
        let self := f 30 1 % 2 = 1
        let nodeB := if self then f 0 8 else f 16 8
        let countB := if self then f 8 4 else f 24 4
        let ok := f 0 8 % 64 == 0 && decide (1 ≤ f 8 4) && decide (1 ≤ f 14 2) && decide (f 14 2 ≤ 2048) && nodeB % 64 == 0
          && f 28 2 / 2 ^ 12 % 8 == 0 && decide (f 30 1 < 2) && f 31 1 == 0 && f 48 16 == 0
          && decide (f 32 4 < f 8 4) && decide (f 36 4 < countB)
          && inTree s ctx (f 0 8) (f 8 4) && inTree s ctx nodeB countB
          && decide (fieldOf t.csr.apxctl 0 8 ≤ fieldOf t.csr.apxctl 8 8)
        if !ok then .trap s causePairOperand off
        else
          let cl := getCluster s (curCluster s)
          match freeEntries cl with
          | [] => .trap s causeHamperBusy off
          | index :: _ =>
            if cl.pairs.length ≥ 2048 then .trap s causeHamperBusy off
            else if !tagRoom (getCore s (firstCore (curCluster s))) (liveLaunch s (curRef s)) then .stop s (.park .retry)
            else
              let gen := (mapGet cl.gens index 0 + 1) % 4096
              let h := travHandle (curCluster s) gen index
              let trav : Traversal :=
                { nodeA := wordOf (f 0 8), countA := f 8 4, nodeB := wordOf nodeB, countB := countB, self := self
                  tkey := BitVec.ofNat 16 (f 12 2), cap := f 14 2, party := f 28 2 % 4096, steal := f 28 2 / 2 ^ 15 = 1
                  apx := t.csr.apxctl, ltag := t.ltag, launch := liveLaunch s (curRef s), members := [], ended := false }
              let s := modCluster s (curCluster s) fun c =>
                { c with gens := mapSet c.gens index gen, traversals := mapSet c.traversals index trav
                         members := c.members ++ [⟨h, index, 0⟩] }
              let root : Pair :=
                { a := BitVec.ofNat 32 (f 32 4), b := BitVec.ofNat 32 (f 36 4), self := isSelfPair trav (f 32 4) (f 36 4)
                  depth := 0, stamp := t.csr.stamp, user := wordOf (f 40 8), handle := h }
              .ok (modCur (storePair s ctx (curCluster s) trav root) fun t => setX t d h) 0))

/-! ## FORKP (R350) -/

/-- FORKP: the Hamper's answer resolves the guard (R108, R350). -/
def execForkp (d : BitVec 3) (a : BitVec 5) (b : BitVec 4) (g : BitVec 3) (n : BitVec 1) (s : State) : Host.Outcome State Fault Refusal :=
  runGated 4 { xr := [a, regNo (2 * b.toNat)], xs := [2 * b.toNat + 1], gs := [d], noMsg := true } g n (some fun t => setG t d 0) s fun s =>
    let t := curThread s
    let h := getX t a
    livePair s h fun trav =>
      let word := getX t (regNo (2 * b.toNat))
      let na := fieldOf word 0 32
      let nb := fieldOf word 32 32
      if na ≥ trav.countA ∨ nb ≥ trav.countB then .trap s causePairOperand word
      else releasing s (
        let k := curCluster s
        let cl := getCluster s k
        let answer (s : State) (ok : Bool) : Res :=
          .ok (send (modCur s fun t => pendG t d) (.answer (curRef s) s.cur.1 (8 + d.toNat) ok 1)) 0
        if !memberRoom s (curCtx s) k h then .trap s causeHamperBusy h
        else if (cl.pairs.filter (·.handle == h)).length ≥ trav.cap ∨ cl.pairs.length ≥ 2048 then
          answer s false
        else if !tagRoom (getCore s (firstCore k)) trav.launch then .stop s (.park .retry)
        else
          let depth := match t.held with
            | some p => p.depth
            | none => 0
          let p : Pair :=
            { a := BitVec.ofNat 32 na, b := BitVec.ofNat 32 nb, self := isSelfPair trav na nb, depth := Nat.min 255 (depth + 1)
              stamp := t.csr.stamp, user := getX t (regNo (2 * b.toNat + 1)), handle := h }
          answer (storePair s (curCtx s) k trav p) true)

/-! ## TAKEP and PDONE (R351, R352) -/

/-- PDONE. -/
def execPdone (g : BitVec 3) (n : BitVec 1) (s : State) : Host.Outcome State Fault Refusal :=
  runGated 4 { noMsg := true } g n none s fun s =>
    if (curThread s).held.isNone then .ok s 0
    else releasing s (.ok (endHeld s (curRef s)) 0)

/-- TAKEP: the HELD pair is done; then the newest record of the own Hamper, or a round of steals, or a wait (R344). -/
def execTakep (d : BitVec 3) (a : BitVec 5) (b : BitVec 3) (g : BitVec 3) (n : BitVec 1) (s : State) : Host.Outcome State Fault Refusal :=
  runGated 4 { xr := [a], xs := groupRegs d, gs := [b], noMsg := true } g n (some fun t => setG t b 0) s fun s =>
    let t := curThread s
    let h := getX t a
    if fieldOf h 36 28 ≠ 0 then .trap s causePairOperand h
    else if t.held.isSome && unperformed (curThread s) then .stop s (.park .retry)
    else
      let ctx := curCtx s
      let k := curCluster s
      let s := endHeld s (curRef s)
      match travLive s ctx h with
      | none => .ok (acquireAt (modCur s fun t => resolveG t b false) s.cur.1 3) 0
      | some trav =>
        if !memberRoom s ctx k h then .trap s causeHamperBusy h
        else
          let s := modCluster s k fun c => setTravCount c h (travCount c h)
          match newestPair (getCluster s k) h with
          | some (p, rest) =>
            let s := modCluster s k fun c => { c with pairs := rest }
            let s := recordUnitDone s k trav
            .ok (modCur s fun t => resolveG (putWords { t with held := some p } (4 * d.toNat) (pairWords p)) b true) 0
          | none =>
            let taker : Taker := ⟨curRef s, h, 4 * d.toNat, b.toNat, s.cycle + 1024⟩
            let s := modCur s fun t => pendG t b
            match (if trav.steal then stealRound s ctx k taker trav else none) with
            | some s => .stop s (.park .take)
            | none => .stop (modCluster s k fun c => { c with takers := c.takers ++ [taker] }) (.park .take)

/-! ## Nodes (R339, R340) -/

def nodeCoord (v : BitVec 512) (i : Nat) : Nat := fieldOf v (32 * i) 32
def nodeRadius (v : BitVec 512) : Nat := fieldOf v 96 32
def nodeChild (v : BitVec 512) : Nat := fieldOf v 128 32
def nodeNchild (v : BitVec 512) : Nat := fieldOf v 160 8

/-- Whether a node of a tree of `count` nodes is bad. -/
def nodeBad (v : BitVec 512) (count : Nat) : Bool :=
  let odd (bits : Nat) : Bool := numIsNaN (decodeNum .fp32 bits) || numIsInf (decodeNum .fp32 bits)
  let r := decodeNum .fp32 (nodeRadius v)
  odd (nodeCoord v 0) || odd (nodeCoord v 1) || odd (nodeCoord v 2) || odd (nodeRadius v) || (numNeg r && !numIsZero r)
    || decide (nodeNchild v > 16) || decide (nodeChild v + nodeNchild v > count)

/-- Read and check node `i` of the tree at `base`. -/
def readNode (s : State) (base : Word) (count i : Nat) (k : State → BitVec 512 → Res) : Res :=
  if i ≥ count then .trap s causeNodeBad (wordOf i)
  else match viewRead s (curView s) (base.toNat + 64 * i) 64 accLoad with
    | .error (s, e) => .stop s e
    | .ok (s, _, bs) =>
      let v := bytesVal 512 bs
      if nodeBad v count then .trap s causeNodeBad (wordOf i) else k s v

/-! ## PTEST (R353, R356, R359, R361) -/

/-- FP32 with RNE, as encodings. -/
def fAdd (a b : Nat) : Nat := (addBits .fp32 rne a b).1
def fSub (a b : Nat) : Nat := (subBits .fp32 rne a b).1
def fMul (a b : Nat) : Nat := (mulBits .fp32 rne a b).1
/-- Round(a × n) for an integer n. -/
def fScale (a n : Nat) : Nat := (round .fp32 rne false (numExact (mulNum (decodeNum .fp32 a) (intNum n 0 false)).1)).1

/-- Split (R353). -/
def splitClass (a b : BitVec 512) : Nat :=
  let leafA := nodeNchild a = 0
  let leafB := nodeNchild b = 0
  let c := cmpNum (decodeNum .fp32 (nodeRadius a)) (decodeNum .fp32 (nodeRadius b))
  if leafA ∧ leafB then 0 else if leafA then 3 else if leafB then 2 else if c > 0 then 2 else if c < 0 then 3 else 4

/-- Whether two nodes are far under θ = T/16 (R353). -/
def isFar (a b : BitVec 512) (t : Nat) : Bool :=
  let sum := fAdd (nodeRadius a) (nodeRadius b)
  let lhs := fScale (fMul sum sum) 256
  let sq (i : Nat) : Nat := let d := fSub (nodeCoord a i) (nodeCoord b i); fMul d d
  let q := fAdd (fAdd (sq 0) (sq 1)) (sq 2)
  (floatCond .fp32 2 lhs (fScale q (t * t))).1

/-- The class of a pair under T. -/
def pairClass (self : Bool) (a b : BitVec 512) (t : Nat) : Nat :=
  if self then (if nodeNchild a = 0 then 0 else 4) else if isFar a b t then 1 else splitClass a b

def apxNom (t : Traversal) : Nat := fieldOf t.apx 0 8
def apxMax (t : Traversal) : Nat := fieldOf t.apx 8 8
def apxRelax (t : Traversal) : Bool := fieldOf t.apx 16 1 = 1

/-- A KIND 1 entry (R358). -/
def thetaEntry (tact cnom cact tkey a b : Nat) : BitVec 128 :=
  BitVec.ofNat 128 (2 ^ 124 + tact * 2 ^ 116 + cnom * 2 ^ 113 + cact * 2 ^ 110 + tkey * 2 ^ 64 + a * 2 ^ 32 + b)

/-- The class that a PTEST delivers, the Trail's part included. -/
def testPair (s : State) (t : Traversal) (self : Bool) (ia ib : Nat) (a b : BitVec 512) : Except Res (State × Nat) :=
  match getCtx? s (curCtx s) with
  | none => .ok (s, pairClass self a b (apxNom t))
  | some c =>
    let nominal := pairClass self a b (apxNom t)
    let level := (getDie s (dieOf s s.cur.1)).level.toNat
    if c.trail.mode = 2 then
      let key (e : BitVec 128) : Bool :=
        fieldOf e 124 4 == 1 && fieldOf e 64 16 == t.tkey.toNat && fieldOf e 32 32 == ia && fieldOf e 0 32 == ib
      match (List.range c.trail.index.length).find? fun i => !c.trail.consumed.contains i && key (c.trail.index.getD i 0) with
      | none => .ok (s, nominal)
      | some i =>
        let e := c.trail.index.getD i 0
        if fieldOf e 113 3 = nominal then
          .ok (modTrail s (curCtx s) fun tr => { tr with consumed := i :: tr.consumed }, fieldOf e 110 3)
        else .error (diverged s (wordOf t.tkey.toNat))
    else
      let th := if apxRelax t && !c.trail.full then Nat.min (apxMax t) (apxNom t + level) else apxNom t
      let actual := pairClass self a b th
      if c.trail.mode ≠ 1 ∨ actual = nominal then .ok (s, actual)
      else match trailAppend s (curCtx s) c.trail.pages (thetaEntry th nominal actual t.tkey.toNat ia ib) with
        | some s => .ok (s, actual)
        | none => .ok (trailFilled s (curRef s), nominal)

/-- PTEST. -/
def execPtest (d : BitVec 3) (a : BitVec 5) (b : BitVec 4) (g : BitVec 3) (n : BitVec 1) (s : State) : Host.Outcome State Fault Refusal :=
  runGated 4 { xr := [a, regNo (2 * b.toNat)], xs := [2 * b.toNat + 1], gs := [d], noMsg := true } g n (some fun t => setG t d 0) s fun s =>
    let t := curThread s
    livePair s (getX t a) fun trav =>
      let word := getX t (regNo (2 * b.toNat))
      let ia := fieldOf word 0 32
      let ib := fieldOf word 32 32
      readNode s trav.nodeA trav.countA ia fun s na =>
        readNode s trav.nodeB trav.countB ib fun s nb =>
          match testPair s trav (isSelfPair trav ia ib) ia ib na nb with
          | .error e => e
          | .ok (s, class_) =>
            .ok (modCur s fun t => setG (setX t (regNo (2 * b.toNat + 1)) (wordOf class_)) d (boolMask (class_ == 1))) 0

/-! ## PNODE (R354) -/

/-- PNODE. -/
def execPnode (d : BitVec 2) (a b : BitVec 5) (g : BitVec 3) (n : BitVec 1) (s : State) : Host.Outcome State Fault Refusal :=
  let regs := (List.range 8).map (· + 8 * d.toNat)
  runGated 4 { xr := [a, b], xs := regs, noMsg := true } g n none s fun s =>
    let t := curThread s
    let word := getX t b
    livePair s (getX t a) fun trav =>
      if fieldOf word 33 31 ≠ 0 then .trap s causePairOperand word
      else
        let second := fieldOf word 32 1 = 1
        readNode s (if second then trav.nodeB else trav.nodeA) (if second then trav.countB else trav.countA) (fieldOf word 0 32)
          fun s v =>
            .ok (modCur s fun t => putWords t (8 * d.toNat) ((List.range 8).map fun i => wordOf (fieldOf v (64 * i) 64))) 0

end Sys2Proof.Machine
end

