-- ==== Sys2Proof/Machine/PartyFamily.lean ====
section
/-!
DEFINITION. The PARTY family (R312, R313).
-/

namespace Sys2Proof.Machine

/-- An instruction of the family: x[a] is the party id. -/
def partyRun (a : BitVec 5) (xw : Option (BitVec 5)) (f : State → Word → Nat → Res) (s : State) : Host.Outcome State Fault Refusal :=
  run 4 { xr := [a], xw := xw, noMsg := true } s fun s =>
    let v := getX (curThread s) a
    if v.toNat ≥ 4096 then .trap s causeBadParty v else f s v v.toNat

/-- The thread's rank in a party of its list. -/
def partyRank (t : Thread) (p : Nat) : Option Nat := (t.parties.find? (·.1 == p)).map (·.2)

/-- PJOIN. -/
def execPjoin (d a : BitVec 5) (s : State) : Host.Outcome State Fault Refusal :=
  partyRun a (some d) (fun s v p =>
    let t := curThread s
    match partyRank t p with
    | some r => .ok (acquireAt (modCur s fun t => setX t d (wordOf r)) s.cur.1 3) 0
    | none =>
      let table := (getCluster s (clusterOf s.cur.1)).parties
      if t.parties.length ≥ 4 || ((mapGet? table p).isNone && decide (table.length ≥ 64)) then .trap s causePartyFull v
      else
        let (s, rank) := partyJoin (partyEnter s s.cur.1 p) (curCtx s) p
        let s := modCur s fun t => { setX t d (rank.setWidth 64) with parties := t.parties ++ [(p, rank.toNat)] }
        .ok (acquireAt s s.cur.1 3) 0) s

/-- PLEAVE. -/
def execPleave (a : BitVec 5) (s : State) : Host.Outcome State Fault Refusal :=
  partyRun a none (fun s v p =>
    if (partyRank (curThread s) p).isNone then .trap s causeBadParty v
    else releasing s (.ok (leaveParty s (curRef s) p) 0)) s

/-- PSIZE. -/
def execPsize (d a : BitVec 5) (s : State) : Host.Outcome State Fault Refusal :=
  partyRun a (some d) (fun s _ p => .ok (modCur s fun t => setX t d (wordOf (partyRec s (curCtx s) p).size)) 0) s

/-- PRANK. -/
def execPrank (d a : BitVec 5) (s : State) : Host.Outcome State Fault Refusal :=
  partyRun a (some d) (fun s _ p =>
    .ok (modCur s fun t => setX t d (match partyRank t p with
      | some r => wordOf r
      | none => allOnes)) 0) s

/-- PMASK. -/
def execPmask (d a : BitVec 5) (s : State) : Host.Outcome State Fault Refusal :=
  partyRun a (some d) (fun s _ p =>
    let counts := partyCounts s s.cur.1 p
    let mask := (List.range 16).foldl (fun m k => if counts.getD k 0 > 0 then m + 2 ^ k else m) 0
    .ok (modCur s fun t => setX t d (wordOf mask)) 0) s

end Sys2Proof.Machine
end

