-- ==== Sys2Proof/Machine/RasterDraw.lean ====
section
/-!
DEFINITION. Rasterising and blending (R397 to R399, R402, R404): primitive records, coverage and quads, interpolation, the
state entry, and the arithmetic of the blend unit.
-/

namespace Sys2Proof.Machine

/-! ## Primitive records (R398) -/

abbrev PrimRec := BitVec 1024

def primField (p : PrimRec) (off n : Nat) : Nat := fieldOf p (8 * off) (8 * n)
def primSeq (p : PrimRec) : Word := wordOf (primField p 0 8)
def primState (p : PrimRec) : Nat := primField p 8 4
def primCull (p : PrimRec) : Nat := primField p 12 2 % 4
def primAttr (p : PrimRec) : Word := wordOf (primField p 64 8)
def primUser (p : PrimRec) : Word := wordOf (primField p 72 8)

/-- A vertex's place in 1/256 pixel. -/
def primXy (p : PrimRec) (i : Nat) : Int × Int := (toSigned 32 (primField p (16 + 16 * i) 4), toSigned 32 (primField p (20 + 16 * i) 4))
def primZ (p : PrimRec) (i : Nat) : Nat := primField p (24 + 16 * i) 4

/-- The rules of R398. -/
def primOk (p : PrimRec) (nstate : Nat) : Bool :=
  let small (v : Nat) : Bool := v / 2 ^ 23 == 0 || v / 2 ^ 23 == 511
  decide (primState p < nstate) && decide (primField p 12 2 < 3) && primField p 14 2 == 0 && primField p 80 48 == 0
    && (List.range 3).all fun i => small (primField p (16 + 16 * i) 4) && small (primField p (20 + 16 * i) 4)

/-! ## Geometry (R402) -/

abbrev Pt := Int × Int

/-- Twice the signed area of a triangle, in units of 2^-16. -/
def area (a b c : Pt) : Int := (b.1 - a.1) * (c.2 - a.2) - (b.2 - a.2) * (c.1 - a.1)

/-- Whether a point is inside an edge, with the rule for a zero edge function. -/
def insideEdge (a b pt : Pt) : Bool :=
  let e := area a b pt
  let dx := b.1 - a.1
  let dy := b.2 - a.2
  decide (e > 0) || (e == 0 && (decide (dy > 0) || (dy == 0 && decide (dx < 0))))

/-- The sample positions of a pixel in 1/256 pixel. -/
def sampleOffsets (samples : Nat) : List Pt :=
  if samples = 4 then [(96, 32), (224, 96), (32, 160), (160, 224)] else [(128, 128)]

def primArea (p : PrimRec) : Int := area (primXy p 0) (primXy p 1) (primXy p 2)

/-- Whether a point is covered, the vertices taken in the order of positive area. -/
def coversPt (p : PrimRec) (pt : Pt) : Bool :=
  let v0 := primXy p 0
  let (v1, v2) := if primArea p > 0 then (primXy p 1, primXy p 2) else (primXy p 2, primXy p 1)
  insideEdge v0 v1 pt && insideEdge v1 v2 pt && insideEdge v2 v0 pt

/-- The vertex bounding box in pixels, clipped to the frame: x0, x1, y0, y1; none where nothing is left. -/
def primBox (f : Frame) (p : PrimRec) : Option (Nat × Nat × Nat × Nat) :=
  let xs := (List.range 3).map fun i => (primXy p i).1
  let ys := (List.range 3).map fun i => (primXy p i).2
  let lo (l : List Int) : Int := l.foldl min (l.headD 0) / 256
  let hi (l : List Int) : Int := l.foldl max (l.headD 0) / 256
  let x1 := min (hi xs) ((frameWidth f : Int) - 1)
  let y1 := min (hi ys) ((frameHeight f : Int) - 1)
  if max 0 (lo xs) > x1 ∨ max 0 (lo ys) > y1 then none
  else some ((max 0 (lo xs)).toNat, x1.toNat, (max 0 (lo ys)).toNat, y1.toNat)

/-- Numbers from `a` to `b`. -/
def fromTo (a b : Nat) : List Nat := (List.range (b + 1 - a)).map (· + a)

/-- The owners whose tiles meet a primitive's box (R397, R402). -/
def primOwners (f : Frame) (p : PrimRec) : List Nat :=
  match primBox f p with
  | none => []
  | some (x0, x1, y0, y1) =>
    (List.range (frameD f)).filter fun r =>
      (fromTo (y0 / 64) (y1 / 64)).any fun ty => (fromTo (x0 / 64) (x1 / 64)).any fun tx => (tx + 3 * ty) % frameD f == r

/-- The exact quotient of two integers, rounded to FP32 under RNE. -/
def ratio32 (num den : Int) (e : Int) : Nat :=
  if num = 0 then 0
  else (round .fp32 rne false (.real (decide ((num < 0) ≠ (den < 0))) (ratioMag num.natAbs den.natAbs e))).1

/-- The numerators of the barycentric weights at a point, over the signed area. -/
def baryAt (p : PrimRec) (pt : Pt) : List Int :=
  [area pt (primXy p 1) (primXy p 2), area pt (primXy p 2) (primXy p 0), area pt (primXy p 0) (primXy p 1)]

/-- The depth at a point (R402). -/
def depthAt (p : PrimRec) (pt : Pt) : Nat :=
  let zs := (List.range 3).map fun i => decodeNum .fp32 (primZ p i)
  if zs.any fun z => numIsNaN z || numIsInf z then fmtCanon .fp32
  else
    let part (z : FVal) : Int := match z with
      | .fin n m e => scaledInt n m e (-149)
      | _ => 0
    let num := ((zs.zip (baryAt p pt)).map fun x => part x.1 * x.2).sum
    ratio32 num (primArea p) (-149)

/-- The coverage of a quad: bit 4p + s for sample s of pixel p. -/
def quadCoverage (f : Frame) (p : PrimRec) (qx qy : Nat) : BitVec 16 :=
  BitVec.ofNat 16 (((List.range 4).map fun px =>
    let x := qx + px % 2
    let y := qy + px / 2
    if x < frameWidth f ∧ y < frameHeight f then
      ((sampleOffsets (frameSamples f)).zipIdx.map fun o =>
        if coversPt p (256 * x + o.1.1, 256 * y + o.1.2) then 2 ^ (4 * px + o.2) else 0).sum
    else 0).sum)

/-- The weights of V1 and V2 at the four pixel centres (R406). -/
def quadBary (p : PrimRec) (qx qy : Nat) : List (BitVec 32) :=
  (List.range 4).flatMap fun px =>
    let ws := baryAt p (256 * (qx + px % 2 : Nat) + 128, 256 * (qy + px / 2 : Nat) + 128)
    [BitVec.ofNat 32 (ratio32 (ws.getD 1 0) (primArea p) 0), BitVec.ofNat 32 (ratio32 (ws.getD 2 0) (primArea p) 0)]

/-- The quads of a primitive at an owner, in the order of R403; none of a culled one or one without area. -/
def primQuads (f : Frame) (r : Nat) (p : PrimRec) : List Quad :=
  let a := primArea p
  if a = 0 ∨ (primCull p = 1 ∧ a < 0) ∨ (primCull p = 2 ∧ a > 0) then []
  else match primBox f p with
    | none => []
    | some (x0, x1, y0, y1) =>
      (fromTo (y0 / 64) (y1 / 64)).flatMap fun ty => (fromTo (x0 / 64) (x1 / 64)).flatMap fun tx =>
        if (tx + 3 * ty) % frameD f ≠ r then []
        else (fromTo (Nat.max (32 * ty) (y0 / 2)) (Nat.min (32 * ty + 31) (y1 / 2))).flatMap fun hy =>
          (fromTo (Nat.max (32 * tx) (x0 / 2)) (Nat.min (32 * tx + 31) (x1 / 2))).filterMap fun hx =>
            let cov := quadCoverage f p (2 * hx) (2 * hy)
            if cov = 0 then none
            else some { owner := r, prim := 0, seq := primSeq p, qx := 2 * hx, qy := 2 * hy, coverage := cov, samples := frameSamples f, attr := primAttr p
                        user := primUser p, bary := quadBary p (2 * hx) (2 * hy), out := false }

/-! ## State entries (R399) -/

def entryOk (e : BitVec 128) : Bool :=
  (List.range 4).all (fun i => decide (fieldOf e (4 * i) 4 ≤ 9)) && decide (fieldOf e 16 3 ≤ 4) && decide (fieldOf e 19 3 ≤ 4)
    && fieldOf e 22 2 == 0 && fieldOf e 29 3 == 0 && fieldOf e 36 92 == 0

def entryZfunc (e : BitVec 128) : Nat := fieldOf e 24 3
def entryZwrite (e : BitVec 128) : Bool := fieldOf e 27 1 = 1
def entryBlend (e : BitVec 128) : Bool := fieldOf e 28 1 = 1
def entryMask (e : BitVec 128) : Nat := fieldOf e 32 4

/-! ## Blending (R404) -/

/-- The depth test: NaN fails all but NOTEQUAL and ALWAYS. -/
def depthPass (func z stored : Nat) : Bool :=
  let p := decodeNum .fp32 z
  let q := decodeNum .fp32 stored
  let nan := numIsNaN p || numIsNaN q
  let c := cmpNum p q
  match func with
  | 0 => false
  | 1 => !nan && decide (c < 0)
  | 2 => !nan && c == 0
  | 3 => !nan && decide (c ≤ 0)
  | 4 => !nan && decide (c > 0)
  | 5 => nan || c != 0
  | 6 => !nan && decide (c ≥ 0)
  | _ => true

def mul32 (a b : Nat) : Nat := (mulBits .fp32 rne a b).1
def add32 (a b : Nat) : Nat := (addBits .fp32 rne a b).1
def sub32 (a b : Nat) : Nat := (subBits .fp32 rne a b).1
def one32 : Nat := 0x3F800000

/-- A blend factor for a channel (R399). -/
def blendFactor (code c : Nat) (src dst : List Nat) : Nat :=
  if code = 0 then 0
  else if code = 1 then one32
  else
    let base := match (code - 2) / 2 with
      | 0 => src.getD c 0
      | 1 => src.getD 3 0
      | 2 => dst.getD 3 0
      | _ => dst.getD c 0
    if code % 2 = 1 then sub32 one32 base else base

/-- One channel blended. -/
def blendChannel (e : BitVec 128) (c : Nat) (src dst : List Nat) : Nat :=
  let lo := if c = 3 then 8 else 0
  let op := if c = 3 then fieldOf e 19 3 else fieldOf e 16 3
  let s := src.getD c 0
  let d := dst.getD c 0
  if op = 3 then (minMaxNum .fp32 false s d).1
  else if op = 4 then (minMaxNum .fp32 true s d).1
  else
    let ps := mul32 s (blendFactor (fieldOf e lo 4) c src dst)
    let pd := mul32 d (blendFactor (fieldOf e (lo + 4) 4) c src dst)
    match op with
    | 0 => add32 ps pd
    | 1 => sub32 ps pd
    | _ => sub32 pd ps

/-- A stored channel as FP32. -/
def channelIn (cfmt v : Nat) : Nat :=
  match cfmt with
  | 0 => ratio32 v 255 0
  | 1 => (convertFloat .fp16 .fp32 rne false v).1
  | _ => v

/-- A channel encoded for the target. -/
def channelOut (cfmt t : Nat) : Nat :=
  match cfmt with
  | 0 =>
    let v := decodeNum .fp32 t
    if numIsNaN v || numIsZero v || numNeg v then 0
    else if cmpNum v (decodeNum .fp32 one32) ≥ 0 then 255
    else match (mulNum v (intNum 255 0 false)).1 with
      | .fin _ m e => (roundMagAt rne false (dyadicMag m e) 0).1
      | _ => 0
  | 1 => (convertFloat .fp32 .fp16 rne false t).1
  | _ => t

/-! ## Accesses of an owner -/

/-- The owner's core for translations: core 0 of its cluster. -/
def ownerCore (f : Frame) (ctx r : Nat) : Nat := coreKey ctx (frameOwncl f r)

/-- One access of the raster unit: its leaf and PA, a cause by which it fails, or a page fault, which is recorded. -/
inductive RasterAccess where
  | ok (s : State) (l : Leaf) (pa : Nat)
  | bad (cause : BitVec 8)
  | wait (s : State)

def rasterAccess (s : State) (core va n : Nat) (write : Bool) : RasterAccess :=
  match translate s core va (if write then accStore else accLoad) false with
  | .error (_, .trap c _) => .bad c
  | .error (s, .fault va k c found) => .wait (recordFault s core 0 va k c found)
  | .error (s, .park _) => .wait s
  | .ok (s, l, pa) =>
    if write && pteFmt l.fmt != 0 then .bad causeFmtStore
    else if memPoisoned s pa n then .bad causePoisoned
    else .ok s l pa

/-- What the blend of one sample comes to: the state after it, a frame fault, or a page to wait for. -/
inductive SampleEnd where
  | done (s : State)
  | fault (cause : BitVec 8)
  | wait (s : State)

/-- Read a sample's stored value where it is needed. -/
def rasterRead (s : State) (core va n : Nat) (k : State → Nat → SampleEnd) : SampleEnd :=
  match rasterAccess s core va n false with
  | .bad c => .fault c
  | .wait s => .wait s
  | .ok s _ pa => k s (memNat s pa n)

/-- Write a sample's bytes: a duplicated page is collapsed first, so that every die reads them (R274, R405). -/
def rasterWrite (s : State) (core va : Nat) (bs : List Byte) (k : State → SampleEnd) : SampleEnd :=
  match rasterAccess s core va bs.length true with
  | .bad c => .fault c
  | .wait s => .wait s
  | .ok s l pa => k (softWrite (settleDup s core va l).1 pa bs)

/-- Write the masked channels of a sample (R404 step 3). -/
def writeColour (f : Frame) (s : State) (core va : Nat) (e : BitVec 128) (t : List Nat) : SampleEnd :=
  let w := 2 ^ frameCfmt f
  if entryMask e = 0 then .done s
  else match rasterAccess s core va (4 * w) true with
    | .bad c => .fault c
    | .wait s => .wait s
    | .ok s l pa => .done ((List.range 4).foldl (fun s c =>
        if entryMask e / 2 ^ c % 2 = 1 then softWrite s (pa + c * w) (leBytes w (channelOut (frameCfmt f) (t.getD c 0))) else s) (settleDup s core va l).1)

/-- Blend one sample: depth, colour, encoding (R404). A failed access leaves the sample unchanged. -/
def blendSample (s : State) (f : Frame) (core : Nat) (p : PrimRec) (e : BitVec 128) (x y i : Nat) (src : List Nat) : SampleEnd :=
  let n := (y * frameWidth f + x) * frameSamples f + i
  let w := 2 ^ frameCfmt f
  let cva := frameCbase f + n * 4 * w
  let zva := frameZbase f + n * 4
  let o := (sampleOffsets (frameSamples f)).getD i (128, 128)
  let z := depthAt p (256 * x + o.1, 256 * y + o.2)
  let colour (s : State) : SampleEnd :=
    if entryBlend e then
      rasterRead s core cva (4 * w) fun s v =>
        let dst := (List.range 4).map fun c => channelIn (frameCfmt f) (v / 2 ^ (8 * w * c) % 2 ^ (8 * w))
        writeColour f s core cva e ((List.range 4).map fun c => blendChannel e c src dst)
    else writeColour f s core cva e src
  if frameZbase f = 0 then colour s
  else rasterRead s core zva 4 fun s stored =>
    if !depthPass (entryZfunc e) z stored then .done s
    else if entryZwrite e then
      match rasterWrite s core zva (leBytes 4 z) fun s => .done s with
      | .done s => colour s
      | x => x
    else colour s

end Sys2Proof.Machine
end

