-- ==== Sys2Proof/Machine/RasterFamily.lean ====
section
/-!
DEFINITION. The RAST family (R406).
-/

namespace Sys2Proof.Machine

/-- The frame of the current context, in a state. -/
def openFrame (s : State) (k : Frame → Res) : Res :=
  match getFrame? s (curCtx s) with
  | some f => if f.phase = .opened then k f else .trap s causeRasterState (instrWord s)
  | none => .trap s causeRasterState (instrWord s)

/-- The die that a thread's records and floor go to (R400). -/
def geometryDie (s : State) : Nat :=
  match (curThread s).geo with
  | some (_, d) => d
  | none => dieOf s s.cur.1

/-- Whether a value is below the thread's floor, or below its die's published watermark where it has none (R406). -/
def belowFloor (s : State) (f : Frame) (v : Word) : Bool :=
  match (curThread s).geo with
  | some (fl, _) => v.ult fl
  | none => match mapGet? f.geo (dieOf s s.cur.1) with
    | some g => v.ult g.published
    | none => false

/-- The 128 bytes of a record operand (R406): the checks of R239 steps 2 to 4. The thread parks for those of another core and of main
memory. -/
def primOperand (s : State) (word : Word) : Except (State × Stop) (State × List Byte) :=
  let sg : BitVec 3 := BitVec.ofNat 3 (fieldOf word 61 3)
  if fieldOf word 56 5 ≠ 0 then .error (s, .trap causeAtomOperand word)
  else match segCheckWith (curSP s) (getSeg (curThread s) sg) sg.toNat (wordOf (fieldOf word 0 56)) 128 needR false false with
    | .error e => .error (s, e)
    | .ok p =>
      if p.addr % 64 ≠ 0 then .error (s, .trap causeMisaligned p.off)
      else if p.kind = kindGlobal || p.kind = kindCore then
        match (curThread s).fetched with
        | some bs => .ok (s, bs)
        | none =>
          if p.kind = kindCore then .error (askOperand s p 128)
          else match viewRead s (curView s) p.addr 64 accLoad with
          | .error e => .error e
          | .ok (s, _, lo) => match viewRead s (curView s) (p.addr + 64) 64 accLoad with
            | .error e => .error e
            | .ok (s, _, hi) => .error (gotOperand s p (lo ++ hi))
      else
        if selfPending s then .error (s, .park .retry)
        else if poolPoisoned (curCore s) p.addr 128 then .error (s, .trap causePoisoned (wordOf p.addr))
        else .ok (s, poolBytes (curCore s) p.addr 128)

/-- EMITP. -/
def execEmitp (a : BitVec 5) (g : BitVec 3) (n : BitVec 1) (s : State) : Host.Outcome State Fault Refusal :=
  runGated 4 { xr := [a], noMsg := true } g n none s fun s =>
    let word := getX (curThread s) a
    openFrame s fun f =>
      match primOperand s word with
      | .error (s, e) => .stop s e
      | .ok (s, bs) =>
        let rec_ : PrimRec := bytesVal 1024 bs
        let seq := primSeq rec_
        let die := geometryDie s
        let ctx := curCtx s
        let queue := match mapGet? f.geo die with
          | some x => x.binner
          | none => []
        if !primOk rec_ (frameNstate f) then .trap s causeRasterOperand word
        else if belowFloor s f seq then .trap s causeRasterSeq seq
        else if queue.length ≥ 64 then .stop s (.park .retry)
        else releasing s (
          let owners := primOwners f rec_
          let s := owners.foldl (fun s r => send s (.prim ctx die r rec_)) s
          let s := if owners.isEmpty then s else modFrame s ctx fun f =>
            match mapGet? f.geo die with
            | some x => { f with geo := mapSet f.geo die { x with binner := x.binner ++ [rec_] } }
            | none => f
          let floor := if seq = allOnes then seq else seq + 1
          .ok (publishWatermarks (modCur s fun t => { t with geo := some (floor, die), fetched := none }) ctx) 0)

/-- SEQWM, the thread form. -/
def execSeqwm (a : BitVec 5) (g : BitVec 3) (n : BitVec 1) (s : State) : Host.Outcome State Fault Refusal :=
  runGated 4 { xr := [a], noMsg := true } g n none s fun s =>
    let v := getX (curThread s) a
    openFrame s fun f =>
      if belowFloor s f v then .trap s causeRasterSeq v
      else
        let die := geometryDie s
        .ok (publishWatermarks (modCur s fun t => { t with geo := some (v, die) }) (curCtx s)) 0

/-- SEQWM.HOLD. -/
def execSeqwmHold (a : BitVec 5) (g : BitVec 3) (n : BitVec 1) (s : State) : Host.Outcome State Fault Refusal :=
  runGated 4 { xr := [a], noMsg := true } g n none s fun s =>
    let v := getX (curThread s) a
    let die := dieOf s s.cur.1
    openFrame s fun f =>
      match mapGet? f.geo die with
      | none => .ok s 0
      | some x =>
        if v.ult x.hold then .trap s causeRasterSeq v
        else .ok (publishWatermarks (modFrame s (curCtx s) fun f => { f with geo := mapSet f.geo die { x with hold := v } }) (curCtx s)) 0

/-- FOUT. -/
def execFout (a : BitVec 5) (b : BitVec 4) (g : BitVec 3) (n : BitVec 1) (s : State) : Host.Outcome State Fault Refusal :=
  runGated 4 { xr := [a], vs := [2 * b.toNat, 2 * b.toNat + 1], noMsg := true } g n none s fun s =>
    let t := curThread s
    let kill := getX t a
    match t.quad with
      | none => .trap s causeRasterState (instrWord s)
      | some q =>
        if fieldOf kill 4 60 ≠ 0 then .trap s causeRasterOperand kill
        else if q.out then .trap s causeRasterState (instrWord s)
        else releasing s (
          let lanes := (List.range 2).flatMap fun i => (List.range 8).map fun j =>
            BitVec.ofNat 32 (fieldOf (getV t (regNo (2 * b.toNat + i))) (32 * j) 32)
          let s := modFrame s (curCtx s) fun f => modOwner f q.owner fun o =>
            { o with results := o.results ++ [⟨q.prim, q.seq, q.qx, q.qy, q.coverage, some lanes, kill.setWidth 4, false⟩] }
          .ok (modCur s fun t => { t with quad := some { q with out := true } }) 0)

/-- FQUAD. -/
def execFquad (d : BitVec 3) (b : BitVec 5) (g : BitVec 3) (n : BitVec 1) (s : State) : Host.Outcome State Fault Refusal :=
  runGated 4 { xs := groupRegs d, vs := [b.toNat], noMsg := true } g n none s fun s =>
    let t := curThread s
    match t.quad with
      | some q =>
        let place := q.qx + q.qy * 2 ^ 16 + q.coverage.toNat * 2 ^ 32 + q.samples * 2 ^ 48
        let weights := (q.bary.zipIdx.map fun w => w.1.toNat * 2 ^ (32 * w.2)).sum
        .ok (modCur s fun t => setV (putGroup t d [q.seq, wordOf place, q.attr, q.user]) b (BitVec.ofNat 256 weights)) 0
      | none => .trap s causeRasterState (instrWord s)

/-! ## RFRAME -/

/-- The checks of R396 on the descriptor's own fields. -/
def frameOk (s : State) (ctx : Nat) (c : Context) (f : Frame) : Bool :=
  let d := frameD f
  let clusters := (List.range d).map fun r => coreKey ctx (frameOwncl f r)
  let placed (k : Nat) : Bool := inGrid c (packedOf k) && k % 16 == 0 && fieldOf (mapEntry c k) 0 1 == 1
  let pixels := frameWidth f * frameHeight f * frameSamples f
  let clear (base size : Nat) : Bool :=
    !(c.regions.any fun r => decide (r.base < base + size) && decide (base < r.base + r.size))
      && !(c.sequences.any fun w => (decide (w.2.1.1 < base + size) && decide (base < w.2.1.1 + w.2.1.2))
        || (decide (w.2.2.1 < base + size) && decide (base < w.2.2.1 + w.2.2.2)))
  [(frameCbase f, pixels * 4 * 2 ^ frameCfmt f), (frameZbase f, pixels * 4), (frameStates f, frameNstate f * 16), (frameFlrec f, 64)].all
      (fun v => decide (v.1 + v.2 ≤ 2 ^ 56))
    && frameCbase f % 64 == 0 && frameZbase f % 64 == 0 && decide (1 ≤ frameWidth f) && decide (frameWidth f ≤ 16384)
    && decide (1 ≤ frameHeight f) && decide (frameHeight f ≤ 16384) && decide (frameCfmt f ≤ 2)
    && (frameSamples f == 1 || frameSamples f == 4) && (d == 1 || d == 2 || d == 4 || d == 8) && frameField f 23 1 == 0
    && frameStates f % 16 == 0 && decide (1 ≤ frameNstate f) && decide (frameNstate f ≤ 65536) && frameField f 36 4 == 0
    && frameFlrec f % 64 == 0 && frameField f 80 40 == 0
    && (List.range 8).all (fun r => if r < d then decide (frameOwncl f r < 2 ^ 20) else frameOwncl f r == 0)
    && clusters.all placed && decide ((clusters.map (dieOf s)).Nodup)
    && clear (frameCbase f) (pixels * 4 * 2 ^ frameCfmt f) && (frameZbase f == 0 || clear (frameZbase f) (pixels * 4))

/-- Fields that a fragment launch record must leave zero (R396). -/
def fragRecordOk (rec : BitVec 512) : Bool :=
  lrecThreads rec == 0 && lrecTasks rec == 0 && !lrecChain rec && lrecDonefut rec == 0

/-- The opened frame of a context (R396, R400, R403): the fragment launch takes the next launch id. -/
def openFrom (s : State) (ctx : Nat) (c : Context) (f : Frame) (k : Kernel) : State :=
  let pins := treePages s ctx k.trees
  let s := registerKernel s ctx k
  let f := { f with
    phase := .opened, launch := c.launchId
    owners := (List.range (frameD f)).map fun r => (r, ⟨[], [], [], 0, 0⟩)
    geo := (geometryDies c).map fun d => (d, ⟨0, 0, []⟩) }
  modCtx s ctx fun c =>
    { c with
      frame := f, launchId := c.launchId + 1
      launches := mapSet c.launches f.launch.toNat { newLaunch f.record k .running 64 with treePins := pins } }

/-- RFRAME.OPEN. -/
def execRframeOpen (d : BitVec 3) (a : BitVec 5) (g : BitVec 3) (n : BitVec 1) (s : State) : Host.Outcome State Fault Refusal :=
  runGated 4 { xr := [a], gs := [d], noMsg := true } g n (some fun t => setG t d 0) s fun s =>
    let t := curThread s
    let off := getX t a
    let ctx := curCtx s
    match getCtx? s ctx with
      | none => .trap s causeRasterState (instrWord s)
      | some c =>
        if c.frame.phase ≠ .closed then .trap s causeRasterState (instrWord s)
        else if off.toNat % 16 ≠ 0 ∨ off.toNat + 128 > curSP s then .trap s causeRasterOperand off
        else localAccess s (
          if poolPoisoned (curCore s) off.toNat 128 then .trap s causePoisoned off
          else
            let f := { emptyFrame with
              desc := bytesVal 1024 (poolBytes (curCore s) off.toNat 128), core := s.cur.1, offset := off.toNat
              openLaunch := liveLaunch s (curRef s), ltag := t.ltag }
            if !frameOk s ctx c f then .trap s causeRasterOperand off
            else match needRange s ctx (frameFlrec f) 64 with
              | .bad => .trap s causeRasterOperand off
              | .away => .stop s (.park (.recall (frameFlrec f)))
              | .here =>
                let rec_ : BitVec 512 := bytesVal 512 ((vaBytes s ctx (frameFlrec f) 64).getD [])
                if !fragRecordOk rec_ then .trap s causeRasterOperand off
                else match checkRecord s ctx c rec_ true with
                  | .refused _ => .trap s causeRasterOperand off
                  | .wait => .stop s (.park .retry)
                  | .ok k => .ok (modCur (openFrom s ctx c { f with record := rec_ } k) fun t => setG t d 0xFF) 0)

/-- Every geometry die's HOLD becomes all ones. -/
def liftHolds (s : State) (ctx : Nat) : State :=
  publishWatermarks (modFrame s ctx fun f => { f with geo := f.geo.map fun p => (p.1, { p.2 with hold := allOnes }) }) ctx

/-- RFRAME.LIFT. -/
def execRframeLift (g : BitVec 3) (n : BitVec 1) (s : State) : Host.Outcome State Fault Refusal :=
  runGated 4 { noMsg := true } g n none s fun s =>
    openFrame s fun _ => .ok (liftHolds s (curCtx s)) 0

/-- RFRAME.CLOSE. -/
def execRframeClose (d : BitVec 3) (g : BitVec 3) (n : BitVec 1) (s : State) : Host.Outcome State Fault Refusal :=
  runGated 4 { gs := [d], noMsg := true } g n (some fun t => setG t d 0) s fun s =>
    openFrame s fun _ =>
      let me := curRef s
      let s := modFrame s (curCtx s) fun f => { f with phase := .closing, closer := some (me, d.toNat) }
      .ok (modCur (liftHolds s (curCtx s)) fun t => pendG t d) 0

end Sys2Proof.Machine
end

