-- ==== Sys2Proof/Machine/RasterEvents.lean ====
section
/-!
DEFINITION. The steps of the raster units: arrivals at an owner, releases, fragment starts, blends and the close of a frame
(R401 to R410).
-/

namespace Sys2Proof.Machine

/-! ## Releases (R401, R407) -/

/-- An owner's global watermark (R401). -/
def globalWatermark (f : Frame) (o : Owner) : Word := f.geo.foldl (fun w g => minWord w (mapGet o.flits g.1 0)) allOnes

/-- Queue a copy in SEQ order. -/
def heldAdd (l : List Prim) (p : Prim) : List Prim :=
  match l with
  | [] => [p]
  | q :: r => if (primSeq p.record).ult (primSeq q.record) then p :: q :: r else q :: heldAdd r p

/-- Replace the first copy that has not been released. -/
def firstHeld (l : List Prim) (f : Prim → Option Prim) : List Prim :=
  match l with
  | [] => []
  | q :: r =>
    if q.released then q :: firstHeld r f
    else match f q with
      | some q' => q' :: r
      | none => r

/-- Release the primitives below the global watermark in ascending SEQ: the state entry is read, and the quads are found. -/
def ownerRelease (s : State) (ctx r : Nat) : Nat → State
  | 0 => s
  | fuel + 1 =>
    match getFrame? s ctx with
    | none => s
    | some f =>
      match mapGet? f.owners r with
      | none => s
      | some o =>
        let gw := globalWatermark f o
        match o.prims.find? fun p => !p.released with
        | none => s
        | some p =>
          if gw ≠ allOnes ∧ !(primSeq p.record).ult gw then s
          else
            let quads := primQuads f r p.record
            let done (s : State) (entry : Option (BitVec 128)) (cause : Option (BitVec 8)) : State :=
              let p' := if quads.isEmpty then none else some { p with released := true, entry := entry, todo := quads }
              let s := modFrame s ctx fun f =>
                let f := modOwner f r fun o => { o with prims := firstHeld o.prims fun _ => p' }
                match cause with
                | some c => if quads.isEmpty then f else frameFault f c
                | none => f
              ownerRelease s ctx r fuel
            match rasterAccess s (ownerCore f ctx r) (frameStates f + 16 * primState p.record) 16 false with
            | .wait s => s
            | .bad c => done s none (some c)
            | .ok s _ pa =>
              let e : BitVec 128 := BitVec.ofNat 128 (memNat s pa 16)
              if entryOk e then done s (some e) none else done s none (some causeRasterOperand)

/-- Whether the raster units work for a context: what is in progress as it halts is finished first, and then everything stays as it is
(R407). -/
def rasterRuns (c : Context) : Bool := c.phase == .running || c.phase == .halting

/-- Release what can be released at an owner. -/
def releaseAll (s : State) (ctx r : Nat) : State :=
  match getCtx? s ctx with
  | none => s
  | some c =>
    if !rasterRuns c then s
    else match mapGet? c.frame.owners r with
    | none => s
    | some o => ownerRelease s ctx r o.prims.length

/-- Whether an earlier message of the same die to the same owner is still on its way. -/
def rasterEarlier (net : List Packet) (ctx die owner : Nat) : Bool :=
  net.any fun p => match p with
    | .prim c d o _ => c == ctx && d == die && o == owner
    | .flit c d o _ => c == ctx && d == die && o == owner
    | _ => false

/-- PRIMITIVE_ARRIVAL (R407). -/
def execPrimitiveArrival (msg : Nat) (s : State) : Host.Outcome State Fault Refusal :=
  match s.net[msg]? with
  | some (.prim ctx die owner rec) =>
    if rasterEarlier (s.net.take msg) ctx die owner then .next s
    else
      let s := { s with net := s.net.eraseIdx msg }
      let more := s.net.any fun p => match p with
        | .prim c d _ r => c == ctx && d == die && r == rec
        | _ => false
      let s := modFrame s ctx fun f =>
        let f := modOwner f owner fun o => { o with prims := heldAdd o.prims ⟨o.arrivals, rec, false, none, [], []⟩, arrivals := o.arrivals + 1 }
        if more then f
        else match mapGet? f.geo die with
          | some g => { f with geo := mapSet f.geo die { g with binner := g.binner.erase rec } }
          | none => f
      .next (releaseAll s ctx owner)
  | _ => .next s

/-- WATERMARK_FLIT (R401). -/
def execWatermarkFlit (msg : Nat) (s : State) : Host.Outcome State Fault Refusal :=
  match s.net[msg]? with
  | some (.flit ctx die owner w) =>
    if rasterEarlier (s.net.take msg) ctx die owner then .next s
    else
      let s := { s with net := s.net.eraseIdx msg }
      let s := modFrame s ctx fun f => modOwner f owner fun o => { o with flits := mapSet o.flits die w }
      .next (releaseAll s ctx owner)
  | _ => .next s

/-! ## Fragment threads (R403) -/

/-- The first quad of an owner that has not started, with the list after it has. -/
def nextQuad : List Prim → Option (Quad × List Prim)
  | [] => none
  | p :: rest =>
    match p.todo with
    | q :: more => some ({ q with prim := p.number }, { p with todo := more, started := (q.qx, q.qy) :: p.started } :: rest)
    | [] => (nextQuad rest).map fun x => (x.1, p :: x.2)

/-- Whether a core of an owner's die takes a fragment thread in a slot. -/
def fragmentRoom (s : State) (f : Frame) (c : Context) (l : Launch) (owner : Nat) (r : Ref) : Bool :=
  let k := getCore s r.core
  inGrid c (packedOf r.core) && fieldOf (mapEntry c r.core) 0 1 == 1
    && dieOf s r.core == dieOf s (ownerCore f (ctxOf r.core) owner) && !k.halting
    && (!coreThreads k || (k.kimg == wordOf (lrecKimg l.record) && k.part == l.kernel.part)) && decide (liveLaunches k < 4) && tagRoom k f.openLaunch
    && lowestEmpty k l.kernel.part == some r.slot

/-- FRAGMENT_START. -/
def execFragmentStart (ctx owner core slot : Nat) (s : State) : Host.Outcome State Fault Refusal :=
  let s := releaseAll s ctx owner
  let r : Ref := ⟨core, slot⟩
  match getCtx? s ctx with
  | none => .next s
  | some c =>
    let f := c.frame
    match mapGet? f.owners owner, mapGet? c.launches f.launch.toNat with
    | some o, some l =>
      match nextQuad o.prims with
      | none => .next s
      | some (quad, prims) =>
        if f.phase = .closed ∨ c.phase ≠ .running ∨ ctxOf core ≠ ctx ∨ !fragmentRoom s f c l owner r then .next s
        else
          let q := frameD f * o.quads + owner
          let b : Bind :=
            { pc := l.kernel.entry, stamp := wordOf (f.launch.toNat * 2 ^ 32 + q % 2 ^ 32), part := l.kernel.part, sys := lrecSys l.record
              chain := false, prio := lrecPrio l.record, rank := BitVec.ofNat 32 q, task := 0, launch := f.launch, up := none
              down := none, ltag := 0, record := l.record, taskBase := 0, taskRun := 0, quad := some quad, openLaunch := f.openLaunch }
          let s := modFrame s ctx fun f => modOwner f owner fun o => { o with prims := prims, quads := o.quads + 1 }
          .next (acquireAt (bindSlot s r f.openLaunch (lrecKimg l.record) b) core 3)
    | _, _ => .next s

/-! ## Blending (R404, R405) -/

/-- Whether a quad of an earlier primitive at the same place is still outstanding, up to the quad's own primitive. -/
def blendReady (x : Fragment) : List Prim → Bool
  | [] => false
  | p :: rest =>
    if p.number == x.prim && p.started.contains (x.qx, x.qy) then true
    else if p.started.contains (x.qx, x.qy) || (p.todo.any fun q => q.qx == x.qx && q.qy == x.qy) then false
    else blendReady x rest

/-- The primitive of a result, and the list after the result has been applied or discarded. -/
def blendPrim (x : Fragment) : List Prim → Option (Prim × List Prim)
  | [] => none
  | p :: rest =>
    if p.number == x.prim && p.started.contains (x.qx, x.qy) then
      let p' := { p with started := p.started.erase (x.qx, x.qy) }
      some (p, if p'.started.isEmpty && p'.todo.isEmpty then rest else p' :: rest)
    else (blendPrim x rest).map fun y => (y.1, p :: y.2)

/-- Blend the samples of a quad, in order; a page to wait for ends it, and a failed sample is left unchanged. -/
def blendSamples (ctx : Nat) (f : Frame) (core : Nat) (p : PrimRec) (e : BitVec 128) (x : Fragment) (colours : List (BitVec 32)) :
    State → List (Nat × Nat) → SampleEnd
  | s, [] => .done s
  | s, (px, i) :: rest =>
    let src := (List.range 4).map fun c => (colours.getD (4 * px + c) 0).toNat
    match blendSample s f core p e (x.qx + px % 2) (x.qy + px / 2) i src with
    | .done s => blendSamples ctx f core p e x colours s rest
    | .fault c => blendSamples ctx f core p e x colours (modFrame s ctx fun f => frameFault f c) rest
    | .wait s => .wait s

/-- The samples that a result covers and does not kill. -/
def liveSamples (samples : Nat) (x : Fragment) : List (Nat × Nat) :=
  (List.range 4).flatMap fun px => (List.range samples).filterMap fun i =>
    if x.coverage.getLsbD (4 * px + i) && !x.kill.getLsbD px then some (px, i) else none

/-- BLEND: the first result of an owner that is next at its place is applied or discarded. -/
def execBlend (ctx owner : Nat) (s : State) : Host.Outcome State Fault Refusal :=
  let s := releaseAll s ctx owner
  match getCtx? s ctx with
  | none => .next s
  | some c =>
    let f := c.frame
    if !rasterRuns c then .next s
    else match mapGet? f.owners owner with
    | none => .next s
    | some o =>
      match o.results.find? fun x => blendReady x o.prims with
      | none => .next s
      | some x =>
        match blendPrim x o.prims with
        | none => .next s
        | some (p, prims) =>
          let applied : SampleEnd := match x.colours, p.entry with
            | some cs, some e => blendSamples ctx f (ownerCore f ctx owner) p.record e x cs s (liveSamples (frameSamples f) x)
            | _, _ => .done s
          match applied with
          | .done s => .next (modFrame s ctx fun f => modOwner f owner fun o => { o with prims := prims, results := o.results.erase x })
          | .wait s' => .next { s with dies := s'.dies.map fun d => (d.1, { d.2 with tlb := (getDie s d.1).tlb }) }
          | .fault _ => .next s

/-! ## The close (R406, R408, R410) -/

/-- Whether every tile is SETTLED and every watermark is all ones. -/
def frameSettled (s : State) (ctx : Nat) (f : Frame) : Bool :=
  f.phase == .closing && f.owners.all (fun p => globalWatermark f p.2 == allOnes && p.2.prims.isEmpty)
    && !(s.net.any fun p => match p with
      | .prim c _ _ _ => c == ctx
      | .flit c _ _ _ => c == ctx
      | _ => false)

/-- FRAME_CLOSE_COMPLETE: FSTAT is written, the frame is CLOSED, and CLOSE's guard is resolved. -/
def execFrameCloseComplete (ctx : Nat) (s : State) : Host.Outcome State Fault Refusal :=
  match getCtx? s ctx with
  | none => .next s
  | some c =>
    let f := c.frame
    if !rasterRuns c || !frameSettled s ctx f then .next s
    else
      let fstat := (f.fault.getD 0).toNat + f.discarded * 2 ^ 32
      let s := modCore s f.core fun k => poolStore k 16 (f.offset + 120) (leBytes 8 fstat)
      let l? := mapGet? c.launches f.launch.toNat
      let pins := (l?.map (·.treePins)).getD []
      let s := pins.foldl (fun s va => releasePin s ctx va) s
      let s := modCtx s ctx fun c =>
        { c with
          frame := emptyFrame
          launches := match l? with
            | some l => mapSet c.launches f.launch.toNat { l with phase := .done, treePins := [] }
            | none => c.launches }
      let s := { s with
        cores := s.cores.map fun p =>
          if ctxOf p.1 = ctx then (p.1, { p.2 with slots := p.2.slots.map fun t => { t with geo := none } }) else p }
      match f.closer with
      | some (r, g) => .next (acquireAt (modRef s r fun t => resolveG t (guardNo g) (!f.faulted)) r.core 3)
      | none => .next s

end Sys2Proof.Machine
end

