-- ==== Sys2Proof/Machine/SpecUnit.lean ====
section
/-!
DEFINITION. Sequences at their home slices (22): the descriptor of an instruction (R377, R386), the locations that a step
touches (R430), block resolution and the pool (R379, R380, R390), the commit step (R385), and the prefix index (R391 to R393).
-/

namespace Sys2Proof.Machine

/-! ## Locations reached by VA -/

/-- Bytes by VA, of pages that have been translated. -/
def vaGet (s : State) (ctx va n : Nat) : Nat := leNat ((vaBytes s ctx va n).getD [])

/-- Bytes from an address on, cut at the lines. -/
def lineRuns (va : Nat) (bs : List Byte) : List (Nat × List Byte) :=
  (List.range ((va % 64 + bs.length + 63) / 64)).map fun i =>
    let a := Nat.max va (64 * (va / 64 + i))
    (a, (bs.drop (a - va)).take (64 - a % 64))

/-- How a step writes by VA, line by line: for a thread through the home slice, with its own cluster's lines kept current; without a
thread straight to memory, and what cluster caches hold of it goes. A duplicated page is collapsed first (R274). -/
def vaPut (s : State) (ctx : Nat) (core : Option Nat) (va : Nat) (bs : List Byte) : State :=
  (lineRuns va bs).foldl (fun s p =>
    let s := settleVa s ctx core p.1
    match pagePa s ctx p.1, core with
    | some pa, some k => homeWrite s k pa p.2
    | some pa, none => dropAround (softWrite s pa p.2) pa p.2.length
    | none, _ => s) s

def vaPut32 (s : State) (ctx : Nat) (core : Option Nat) (va v : Nat) : State := vaPut s ctx core va (leBytes 4 v)

/-- Translate one location that a thread's step will touch (R430). -/
def touchAt (s : State) (va n : Nat) : Except (State × Stop) State :=
  match translate s s.cur.1 va accAtomic (curThread s).csr.sys with
  | .error e => .error e
  | .ok (s, l, pa) =>
    if pteFmt l.fmt ≠ 0 then .error (s, .trap causeSeqOperand (wordOf va))
    else if memPoisoned s pa n then .error (s, .trap causePoisoned (wordOf va))
    else .ok s

def touchWord (s : State) (va n : Nat) : Except (State × Stop) State :=
  match touchAt s va (Nat.min n (65536 - va % 65536)) with
  | .error e => .error e
  | .ok s => if va / 65536 = (va + n - 1) / 65536 then .ok s else touchAt s ((va + n - 1) / 65536 * 65536) ((va + n) % 65536)

def touchAll (s : State) : List (Nat × Nat) → Except (State × Stop) State
  | [] => .ok s
  | (va, n) :: rest =>
    match touchWord s va n with
    | .error e => .error e
    | .ok s => touchAll s rest

def touching (s : State) (l : List (Nat × Nat)) (k : State → Res) : Res :=
  match touchAll s l with
  | .error (s, e) => .stop s e
  | .ok s => k s

/-! ## Operands (R386) -/

/-- Whether a range meets a revision region. -/
def regionMeets (s : State) (ctx va n : Nat) : Bool :=
  match getCtx? s ctx with
  | some c => c.regions.any fun r => decide (r.base < va + n) && decide (va < r.base + r.size)
  | none => false

/-- A descriptor of 256 bytes or index header of 64: its VA and PA, aligned to its size, a descriptor in device memory and outside every
revision region too (R377). A formatted page is a breach of R239 for the one and of R430 for the other. -/
def seqPlace (s : State) (word : Word) (align : Nat) : Except (State × Stop) (State × Nat × Nat) :=
  let sg : BitVec 3 := BitVec.ofNat 3 (fieldOf word 61 3)
  if fieldOf word 56 5 ≠ 0 then .error (s, .trap causeSeqOperand word)
  else match segCheckWith (curSP s) (getSeg (curThread s) sg) sg.toNat (wordOf (fieldOf word 0 56)) 8 (needR + needW + needA) true true with
    | .error e => .error (s, e)
    | .ok p =>
      if p.kind ≠ kindGlobal then .error (s, .trap causeSeqOperand word)
      else match translate s s.cur.1 p.addr accAtomic (curThread s).csr.sys with
        | .error e => .error e
        | .ok (s, l, pa) =>
          if pteFmt l.fmt ≠ 0 then .error (s, .trap (if align = 64 then causeSeqOperand else causeFmtStore) (wordOf p.addr))
          else if p.addr % align ≠ 0 || (align == 256 && (regionMeets s (curCtx s) p.addr align || !isDevice s pa)) then .error (s, .trap causeSeqOperand word)
          else if memPoisoned s pa align then .error (s, .trap causePoisoned (wordOf p.addr))
          else .ok (s, p.addr, pa)

/-- A sequence descriptor operand (R377): the VA by which the home slice knows it, and its PA. -/
def withSeq (s : State) (word : Word) (k : State → Nat → Nat → Res) : Res :=
  match seqPlace s word 256 with
  | .error (s, e) => .stop s e
  | .ok (s, va, d) =>
    let key := seqKey s (curCtx s) va
    let s := payLeaves s (curCtx s)
    if seqOk s (curCtx s) d then k (noteSequence s (curCtx s) key d) key d else .trap s causeSeqOperand word

/-- The thread's tag as a member of the window of a descriptor, if it writes drafts of it. -/
def memberTag (t : Thread) (d : Nat) : Option Nat :=
  match t.window with
  | some m => if m.desc = d ∧ t.csr.specd ≠ 0xFF then some t.csr.specd.toNat else none
  | none => none

def isMember (t : Thread) (d : Nat) : Bool :=
  match t.window with
  | some m => m.desc == d
  | none => false

/-! ## Blocks (R378 to R380, R390) -/

def noBlock : Nat := 0xFFFFFFFF

/-- Block-list entries of a sequence. -/
def seqIndices (s : State) (d : Nat) : Nat := (seqSink s d + seqRing s d + 2 ^ seqLog2bp s d - 1) / 2 ^ seqLog2bp s d

/-- The tentative entry that a member with a tag resolves an index through (R380). -/
def tentFor (s : State) (d : Nat) (tag : Option Nat) (i : Nat) : Option Word :=
  match tag with
  | none => none
  | some t =>
    ((List.range (t + 1)).reverse).findSome? fun x =>
      ((List.range 16).map (seqTent s d)).find? fun e => tentValid e && tentIndex e == i && tentDraft e == x

def poolStack (s : State) (ctx p : Nat) : Nat := vaGet s ctx p 8
def poolTop (s : State) (ctx p : Nat) : Nat := vaGet s ctx (p + 8) 4
def poolNblk (s : State) (ctx p : Nat) : Nat := vaGet s ctx (p + 12) 4
def poolCounts (s : State) (ctx p : Nat) : Nat := vaGet s ctx (p + 16) 8
def poolCount (s : State) (ctx p b : Nat) : Nat := vaGet s ctx (poolCounts s ctx p + 4 * b) 4

/-- Push a block that has become free (R379). -/
def poolPush (s : State) (ctx : Nat) (core : Option Nat) (p b : Nat) : State :=
  let top := poolTop s ctx p
  vaPut32 (vaPut32 s ctx core (poolStack s ctx p + 4 * top) b) ctx core (p + 8) (top + 1)

/-- Free one reference of a block whose count is not 0, as BFREE does (R390). -/
def poolFree (s : State) (ctx : Nat) (core : Option Nat) (p b : Nat) : State :=
  let n := poolCount s ctx p b
  let s := vaPut32 s ctx core (poolCounts s ctx p + 4 * b) (n - 1)
  if n = 1 then poolPush s ctx core p b else s

/-- A pool record that an instruction reaches (R379, R430). -/
def withPool (s : State) (d : Nat) (k : State → Nat → Res) : Res :=
  let p := seqPool s d
  if p % 64 ≠ 0 then .trap s causeSeqOperand (wordOf p)
  else touching s [(p, 64)] fun s =>
    if vaGet s (curCtx s) (p + 24) 40 ≠ 0 then .trap s causeSeqOperand (wordOf p) else k s p

/-! ## The commit step (R385) -/

/-- Why a commit step performs nothing: it is held on a page that is away, or a check fails. -/
inductive CommitStop where
  | held | failed
deriving DecidableEq, Repr

/-- Check a location of the commit step within one page. -/
def commitTouchAt (s : State) (ctx va n : Nat) (word : Bool) : Except CommitStop State :=
  match walk s ctx va with
  | .error (c, _) => .error (if c = causePfAway then .held else .failed)
  | .ok l =>
    let pa := leafPa l va
    if !leafAllows l.base accAtomic true || !isBacked s pa || (word && memPoisoned s pa n) then .error .failed
    else .ok s

/-- Check a location of the commit step, which may cross the end of a page. -/
def commitTouch (s : State) (ctx va n : Nat) (word : Bool) : Except CommitStop State :=
  match commitTouchAt s ctx va (Nat.min n (65536 - va % 65536)) word with
  | .error e => .error e
  | .ok s =>
    if va / 65536 = (va + n - 1) / 65536 then .ok s
    else commitTouchAt s ctx ((va + n - 1) / 65536 * 65536) ((va + n) % 65536) word

/-- Check and write 32-bit words and whole granules. -/
def commitPut (s : State) (ctx va : Nat) (bs : List Byte) (word : Bool) : Except CommitStop State :=
  match commitTouch s ctx va bs.length word with
  | .error e => .error e
  | .ok s => .ok (vaPut s ctx none va bs)

def commitFold {α : Type} (f : State → α → Except CommitStop State) (s : State) : List α → Except CommitStop State
  | [] => .ok s
  | a :: as =>
    match f s a with
    | .error e => .error e
    | .ok s => commitFold f s as

/-- Free a block at the commit; the count must not be 0. -/
def commitFree (s : State) (ctx p b : Nat) : Except CommitStop State :=
  if b = noBlock then .ok s
  else if b ≥ poolNblk s ctx p then .error .failed
  else
    let va := poolCounts s ctx p + 4 * b
    match commitTouch s ctx va 4 true with
    | .error e => .error e
    | .ok s =>
      if poolCount s ctx p b = 0 then .error .failed
      else match commitTouch s ctx (poolStack s ctx p + 4 * poolTop s ctx p) 4 true with
        | .error e => .error e
        | .ok s => .ok (poolFree s ctx none p b)

/-- One VALID tentative entry at the commit of k drafts; its count and its word of the block list are among the locations checked, kept
or not. -/
def commitTent (ctx d k : Nat) (s : State) (e : Word) : Except CommitStop State :=
  let p := seqPool s d
  match commitTouch s ctx p 64 true with
  | .error e => .error e
  | .ok s =>
    if tentBlock e ≥ poolNblk s ctx p then .error .failed
    else match commitTouch s ctx (poolCounts s ctx p + 4 * tentBlock e) 4 true with
    | .error e => .error e
    | .ok s =>
    let va := seqBlklist s d + 4 * tentIndex e
    match commitTouch s ctx va 4 true with
    | .error e => .error e
    | .ok s =>
    if tentDraft e < k then
      let old := vaGet s ctx va 4
      commitFree (vaPut32 s ctx none va (tentBlock e)) ctx p old
    else
      match commitPut s ctx (poolCounts s ctx p + 4 * tentBlock e) (leBytes 4 0) true with
      | .error e => .error e
      | .ok s => match commitTouch s ctx (poolStack s ctx p + 4 * poolTop s ctx p) 4 true with
        | .error e => .error e
        | .ok s => .ok (poolPush s ctx none p (tentBlock e))

/-- The caches of a context's clusters are empty after a commit step: whoever then reads what it wrote reads all of it, and what the
members wrote before (R228, R235, R385, log 116). -/
def dropCaches (s : State) (ctx : Nat) : State :=
  { s with clusters := s.clusters.map fun p => if ctxOf (firstCore p.1) = ctx then (p.1, { p.2 with cache := [] }) else p }

/-- A draft version of rows, or of the scale bytes of a formatted page, enters memory. -/
def commitRow (ctx : Nat) (s : State) (r : Nat × Version) : Except CommitStop State :=
  if r.1 < 2 ^ 56 then commitPut s ctx (64 * r.1) (valBytes 64 r.2.bytes) false
  else
    let va := 64 * (r.1 - 2 ^ 56)
    match commitTouch s ctx va 1 false, rawLeaf s ctx va with
    | .error e, _ => .error e
    | .ok s, some l =>
      let pa := pteScale l.fmt + va % leafSize l
      if isBacked s pa then .ok (softWrite (settleVa s ctx none va) pa (valBytes 64 r.2.bytes)) else .error .failed
    | .ok _, none => .error .failed

/-- The whole step of a window, all or nothing; `d` is the descriptor's PA, its page settled. -/
def commitStep (s : State) (ctx d : Nat) (w : SpecWindow) : Except CommitStop State :=
  let k := (w.commit.map (·.2.2)).getD 0
  let drafts := w.drafts
  let rows := (List.range k).flatMap fun t => mapGet drafts t []
  let len := seqLen s d
  let tents := ((List.range 16).flatMap fun x => ((List.range 16).map (seqTent s d)).filter fun e => tentValid e && tentDraft e == x)
  match commitFold (commitRow ctx) s rows with
  | .error e => .error e
  | .ok s =>
    match commitFold (fun s p => commitPut s ctx (seqGenva s d + 4 * posSlot (seqSink s d) (seqRing s d) p)
        (leBytes 4 (posGen (seqSink s d) (seqRing s d) p + 1)) true) s ((List.range k).map (· + len)) with
    | .error e => .error e
    | .ok s =>
      match commitFold (commitTent ctx d k) s tents with
      | .error e => .error e
      | .ok s =>
        let s := if k > 0 then seqPut s d 80 1 (draftRec (seqCrec s d) (k - 1)) else s
        let s := seqPut (seqPut s d 72 8 (len + k)) d 82 1 0
        let s := softWrite s (d + 96) (List.replicate 128 0)
        let s := seqPut s d 84 4 ((seqWgen s d).toNat + 1)
        .ok (dropCaches (seqPut s d 81 1 0) ctx)

/-! ## The prefix index (R391) -/

def pxBase (s : State) (h : Nat) : Nat := memNat s h 8
def pxLog (s : State) (h : Nat) : Nat := memNat s (h + 8) 1
def pxOk (s : State) (h : Nat) : Bool :=
  3 ≤ pxLog s h && decide (pxLog s h ≤ 24) && pxBase s h % (32 * 2 ^ pxLog s h) == 0 && memNat s (h + 9) 55 == 0

/-- The VA of the j-th probe of a key. -/
def pxProbe (s : State) (h hash j : Nat) : Nat := pxBase s h + 32 * ((hash + j) % 2 ^ pxLog s h)

def pxStateAt (s : State) (ctx va : Nat) : Nat := vaGet s ctx (va + 14) 1
def pxEmpty (s : State) (ctx va : Nat) : Bool := let x := pxStateAt s ctx va; x != 1 && x != 2
def pxMatch (s : State) (ctx va hash len : Nat) : Bool :=
  pxStateAt s ctx va == 1 && vaGet s ctx va 8 == hash && vaGet s ctx (va + 8) 4 == len

/-- Translate the entries that a probe reaches: up to the first EMPTY one. -/
def pxTouch (s : State) (h hash : Nat) (j : Nat) : Nat → Except (State × Stop) State
  | 0 => .ok s
  | n + 1 =>
    match touchWord s (pxProbe s h hash j) 32 with
    | .error e => .error e
    | .ok s => if pxEmpty s (curCtx s) (pxProbe s h hash j) then .ok s else pxTouch s h hash (j + 1) n

/-- The VAs that a probe visits: up to and with the first EMPTY one. -/
def pxVisited (s : State) (ctx h hash j : Nat) : Nat → List Nat
  | 0 => []
  | n + 1 =>
    let va := pxProbe s h hash j
    if pxEmpty s ctx va then [va] else va :: pxVisited s ctx h hash (j + 1) n

/-- An index header operand: its VA and PA. -/
def withIndex (s : State) (word : Word) (hash : Nat) (k : State → Nat → Nat → Res) : Res :=
  match seqPlace s word 64 with
  | .error (s, e) => .stop s e
  | .ok (s, va, h) =>
    if !pxOk s h then .trap s causeSeqOperand word
    else match pxTouch s h hash 0 8 with
      | .error (s, e) => .stop s e
      | .ok s => k s va h

/-- The LIVE match before the first EMPTY entry. -/
def pxFind (s : State) (ctx h hash len : Nat) : Option Nat :=
  (pxVisited s ctx h hash 0 8).find? fun va => pxMatch s ctx va hash len

/-- The first EMPTY or DEAD entry of the eight. -/
def pxRoom (s : State) (ctx h hash : Nat) : Option Nat :=
  (pxVisited s ctx h hash 0 8).find? fun va => pxStateAt s ctx va != 1

/-- A KIND 3 entry of the Trail. -/
def prefixEntry (hash len : Nat) (stamp : Word) : BitVec 128 :=
  BitVec.ofNat 128 (3 * 2 ^ 124 + hash % 2 ^ 56 * 2 ^ 64 + len * 2 ^ 32 + fieldOf stamp 0 32)

/-- Write the candidate buffer of a PXINS: through a CORE segment by a posted store of its thread, which the owner performs in its
message slot (R22, R149); none where its page is not here, or its core is saved. -/
def candidateWrite (s : State) (r : Ref) (dest : CopyEnd) (off : Nat) (bs : List Byte) : Option State :=
  let a := segBase dest.seg + dest.off + off
  if segKind dest.seg = kindGlobal then
    match viewWrite s (threadView r.core (refThread s r)) a accStore false bs with
    | .ok s => some s
    | .error _ => none
  else if segKind dest.seg = kindCore then
    some (send (modRef s r fun t => { t with unacked := t.unacked + 1 })
      (.request (coreKey (ctxOf r.core) (segTarget dest.seg)) ⟨r, .store a bs⟩))
  else some (modCore s r.core fun c => poolStore c 16 a bs)

/-- Whether the entries that a probe visits are all here: up to and with the first EMPTY one (R391, R430). -/
def pxHere (s : State) (ctx h hash j : Nat) : Nat → Bool
  | 0 => true
  | n + 1 =>
    let va := pxProbe s h hash j
    (herePa s ctx va).isSome && (pxEmpty s ctx va || pxHere s ctx h hash (j + 1) n)

/-- The home slice performs a PXINS (R392, R393): none where it has still to wait, for a page, or, as a loser of a replay, for the
entry of its key. -/
def prefixStep (s : State) (ctx : Nat) (w : PrefixWait) : Option State :=
  let hash := leNat (w.bytes.take 8)
  let len := leNat ((w.bytes.drop 8).take 4)
  let done (s : State) (ok : Bool) : State :=
    acquireAt (modRef (modCtx s ctx fun c => { c with prefixWaits := c.prefixWaits.erase w }) w.who fun t =>
      resolveG t (guardNo w.guard) ok) w.who.core 3
  match herePa s ctx w.header with
  | none => none
  | some h =>
    if !corePlaced s w.who.core || !pxHere s ctx h hash 0 8 then none
    else match (if w.wins = some true then none else pxFind s ctx h hash len), pxRoom s ctx h hash with
      | some va, _ => (candidateWrite s w.who w.dest 0 (leBytes 32 (vaGet s ctx va 32))).map (done · false)
      | none, room =>
        if w.wins = some false then none
        else match room with
          | none => (candidateWrite s w.who w.dest 14 [0]).map (done · false)
          | some va =>
            let s := vaPut s ctx (some w.who.core) va (w.bytes.set 14 1)
            let s := match getCtx? s ctx with
              | some c =>
                if c.trail.mode = 1 && !c.trail.full then
                  match trailAppend s ctx c.trail.pages (prefixEntry hash len w.stamp) with
                  | some s => s
                  | none => trailFilled s w.who
                else s
              | none => s
            some (done s true)

/-- The home slices perform the PXINS of a context that need not wait, in order. -/
def servePrefix (s : State) (ctx : Nat) : State :=
  match getCtx? s ctx with
  | none => s
  | some c => c.prefixWaits.foldl (fun s w => (prefixStep s ctx w).getD s) s

end Sys2Proof.Machine
end

