-- ==== Sys2Proof/Machine/SpecFamily.lean ====
section
/-!
DEFINITION. The SPEC family (R386 to R394), and the commit step of a window as the home slice takes it (R385).
-/

namespace Sys2Proof.Machine

/-! ## Windows (R387) -/

/-- A thread becomes a member of the window of the descriptor that the home slice knows by `key` and that lies at `d`. -/
def joinWindow (s : State) (word : Word) (key d : Nat) (tag : BitVec 8) : State :=
  let wgen := seqWgen s d
  modCur s fun t => { t with window := some ⟨word, key, wgen⟩, csr := { t.csr with specd := tag, spec := true } }

/-- SPECOPEN. -/
def execSpecopen (a b : BitVec 5) (s : State) : Host.Outcome State Fault Refusal :=
  run 4 { xr := [a, b], noMsg := true } s fun s =>
    let word := getX (curThread s) a
    let n := getX (curThread s) b
    if (curThread s).csr.spec then .trap s causeSeqState word
    else withSeq s word fun s key d =>
      if n = 0 ∨ n.toNat > Nat.min 16 (seqRing s d) then .trap s causeSeqOperand n
      else if seqWstate s d ≠ 0 then .trap s causeSeqState word
      else
        let home := clusterOf s.cur.1
        let w : SpecWindow :=
          { kv := (seqKvbase s d, seqKvsize s d), recur := (seqRecbase s d, 17 * seqRsize s d), scope := seqScope s d
            whome := home, drafts := [], commit := none, owed := 0, wgen := seqWgen s d }
        let s := settleVa s (curCtx s) (some s.cur.1) key
        let s := seqPut (seqPut (seqPut s d 81 1 1) d 82 1 n.toNat) d 83 1 1
        let s := seqPut s d 88 4 (packedOf (firstCore home))
        askUnit (joinWindow (setWindow s (curCtx s) key (some w)) word key d 0) none 0 0

/-- SPECENTER. -/
def execSpecenter (a : BitVec 5) (s : State) : Host.Outcome State Fault Refusal :=
  run 4 { xr := [a], noMsg := true } s fun s =>
    let word := getX (curThread s) a
    if (curThread s).csr.spec then .trap s causeSeqState word
    else withSeq s word fun s key d =>
      if seqWstate s d ≠ 1 ∨ seqMembers s d = 16 then .trap s causeSeqState word
      else askUnit (joinWindow (seqPut (settleVa s (curCtx s) (some s.cur.1) key) d 83 1 (seqMembers s d + 1)) word key d 0xFF) none 0 0

/-- The descriptor of the thread's window, whose page it awaits where it is away. -/
def windowHere (s : State) (m : Member) (k : State → Nat → Res) : Res :=
  match herePa s (curCtx s) m.desc with
  | some d => k s d
  | none => match translate s s.cur.1 m.desc accAtomic (curThread s).csr.sys with
    | .error (s, e) => .stop s e
    | .ok (s, _, pa) => k s pa

/-- SPECTAG. -/
def execSpectag (a : BitVec 5) (s : State) : Host.Outcome State Fault Refusal :=
  run 4 { xr := [a], noMsg := true } s fun s =>
    let t := curThread s
    let v := getX t a
    match t.window with
    | none => .trap s causeSeqState v
    | some m =>
      if v = 0xFF then releasing s (askUnit (leaveWindow s (curRef s)) none 0 0)
      else windowHere s m fun s d =>
        if v.toNat < seqNdraft s d then askUnit (modCur s fun t => { t with csr := { t.csr with specd := v.setWidth 8 } }) none 0 0
        else .trap s causeSeqOperand v

/-- The shared end of SPECCOMMIT and SPECABORT. -/
def commitWindow (d : BitVec 3) (word k : Word) (s : State) : Res :=
  withSeq s word fun s key desc =>
    if !isMember (curThread s) key then .trap s causeSeqState word
    else if seqWstate s desc ≠ 1 then .trap s causeSeqState word
    else if k.toNat > seqNdraft s desc then .trap s causeSeqOperand k
    else releasing s (
      let me := curRef s
      let s := seqPut (settleVa s (curCtx s) (some me.core) key) desc 81 1 2
      let s := match getWindow? s (curCtx s) key with
        | some w => setWindow s (curCtx s) key (some { w with commit := some (me, d.toNat, k.toNat) })
        | none => s
      askUnit (modCur (leaveWindow s me) fun t => pendG t d) none 0 0)

/-- SPECCOMMIT. -/
def execSpeccommit (d : BitVec 3) (a b : BitVec 5) (s : State) : Host.Outcome State Fault Refusal :=
  run 4 { xr := [a, b], gs := [d], noMsg := true } s fun s => commitWindow d (getX (curThread s) a) (getX (curThread s) b) s

/-- SPECABORT. -/
def execSpecabort (d : BitVec 3) (a : BitVec 5) (s : State) : Host.Outcome State Fault Refusal :=
  run 4 { xr := [a], gs := [d], noMsg := true } s fun s => commitWindow d (getX (curThread s) a) 0 s

/-- COMMIT_STEP (R385) of the open window of a descriptor, by the VA under which the home slice knows it. -/
def execCommitStep (ctx descriptor : Nat) (s : State) : Host.Outcome State Fault Refusal :=
  let s := payLeaves s ctx
  match getCtx? s ctx, getWindow? s ctx descriptor, herePa s ctx descriptor with
  | some c, some w, some d =>
    if !(c.phase == .running || c.phase == .idle || c.phase == .halting) || seqWstate s d != 2 || seqMembers s d != 0 || w.owed != 0 then
      .next s
    else match commitStep (settleVa s ctx none descriptor) ctx d w with
      | .error .held => .next s
      | .error .failed => .next (if c.phase = .running then haltContext s ctx causeSeqOperand else s)
      | .ok s' =>
        let s' := setWindow s' ctx descriptor none
        match w.commit with
        | some (r, g, _) => .next (acquireAt (modRef s' r fun t => resolveG t (guardNo g) true) r.core (seqScope s d))
        | none => .next s'
  | _, _, _ => .next s

/-! ## KVPOS and KVADV (R388, R389) -/

def genOk (s : State) (ctx d p : Nat) : Bool :=
  let S := seqSink s d
  let W := seqRing s d
  vaGet s ctx (seqGenva s d + 4 * posSlot S W p) 4 == posGen S W p + 1

/-- KVPOS. -/
def execKvpos (d : BitVec 3) (a : BitVec 5) (b : BitVec 4) (s : State) : Host.Outcome State Fault Refusal :=
  run 4 { xr := [a, regNo (2 * b.toNat)], xs := [2 * b.toNat + 1], gs := [d], noMsg := true } s fun s =>
    let t := curThread s
    let word := getX t a
    let v := getX t (regNo (2 * b.toNat))
    withSeq s word fun s key desc =>
      let p := fieldOf v 0 48
      if fieldOf v 49 15 ≠ 0 then .trap s causeSeqOperand v
      else
        let ctx := curCtx s
        let S := seqSink s desc
        let slot := posSlot S (seqRing s desc) p
        let len := seqLen s desc
        let tag := memberTag (curThread s) key
        let draft := match tag with
          | some t => len ≤ p && decide (p ≤ len + t)
          | none => false
        let index := slot / 2 ^ seqLog2bp s desc
        let tent := tentFor s desc tag index
        let gens : List (Nat × Nat) := if S ≤ p && decide (p < len) then [(seqGenva s desc + 4 * slot, 4)] else []
        let blocks : List (Nat × Nat) := if (decide (p < len) || draft) && tent.isNone then [(seqBlklist s desc + 4 * index, 4)] else []
        touching s (gens ++ blocks) fun s =>
          let put (s : State) (v : Word) (ok : Bool) : Res :=
            askUnit (modCur s fun t => setG (setX t (regNo (2 * b.toNat + 1)) v) d (boolMask ok)) none (seqScope s desc) 0
          let miss (s : State) (status : Nat) : Res :=
            if fieldOf v 48 1 = 1 then .trap s causeSeqPos (wordOf p) else put s (wordOf status) false
          if !((decide (p < len) && (decide (p < S) || genOk s ctx desc p)) || draft) then miss s (if p ≥ len then 1 else 2)
          else
            let block := match tent with
              | some e => tentBlock e
              | none => vaGet s ctx (seqBlklist s desc + 4 * index) 4
            let bp := 2 ^ seqLog2bp s desc
            let rb := seqRb s desc
            if block = noBlock then miss s 3
            else if block ≥ seqKvsize s desc / (bp * rb) then .trap s causeSeqOperand word
            else put s (wordOf (seqKvbase s desc + block * bp * rb + slot % bp * rb)) true

/-- KVADV. -/
def execKvadv (a b : BitVec 5) (s : State) : Host.Outcome State Fault Refusal :=
  run 4 { xr := [a, b], noMsg := true } s fun s =>
    let word := getX (curThread s) a
    let n := getX (curThread s) b
    withSeq s word fun s key d =>
      if n = 0 ∨ n.toNat > seqRing s d then .trap s causeSeqOperand n
      else if seqWstate s d ≠ 0 then .trap s causeSeqState word
      else releasing s (
        let S := seqSink s d
        let W := seqRing s d
        let len := seqLen s d
        let ps := (List.range n.toNat).map (· + len)
        touching s (ps.map fun p => (seqGenva s d + 4 * posSlot S W p, 4)) fun s =>
          let s := ps.foldl (fun s p =>
            vaPut32 s (curCtx s) (some s.cur.1) (seqGenva s d + 4 * posSlot S W p) (posGen S W p + 1)) s
          askUnit (seqPut (settleVa s (curCtx s) (some s.cur.1) key) d 72 8 (len + n.toNat)) none 0 0)

/-! ## BALLOC and BFREE (R390) -/

/-- Take the top block of the pool; the locations have been translated. -/
def poolTake (s : State) (p : Nat) : State × Nat :=
  let ctx := curCtx s
  let core := some s.cur.1
  let top := poolTop s ctx p
  let b := vaGet s ctx (poolStack s ctx p + 4 * (top - 1)) 4
  (vaPut32 (vaPut32 s ctx core (p + 8) (top - 1)) ctx core (poolCounts s ctx p + 4 * b) 1, b)

/-- BALLOC. -/
def execBalloc (d a b : BitVec 5) (s : State) : Host.Outcome State Fault Refusal :=
  run 4 { xr := [a, b], xw := some d, noMsg := true } s fun s =>
    let word := getX (curThread s) a
    let v := getX (curThread s) b
    withSeq s word fun s key desc =>
      let ctx := curCtx s
      let i := fieldOf v 0 16
      let tag := memberTag (curThread s) key
      let slotFree := (List.range 16).find? fun j => !tentValid (seqTent s desc j)
      if fieldOf v 16 48 ≠ 0 then .trap s causeSeqOperand v
      else if tag.isSome && (i == 0xFFFF || decide (i ≥ seqIndices s desc) || slotFree.isNone) then .trap s causeSeqOperand v
      else if tag.isNone && i != 0xFFFF && decide (i ≥ seqIndices s desc) then .trap s causeSeqOperand v
      else if tag.isNone && i != 0xFFFF && seqWstate s desc != 0 then .trap s causeSeqState word
      else withPool s desc fun s p =>
        let replaces := tag.isNone && i != 0xFFFF
        let listVa := seqBlklist s desc + 4 * i
        touching s (if replaces then [(listVa, 4)] else []) fun s =>
          let old := if replaces then vaGet s ctx listVa 4 else noBlock
          let blocks := seqKvsize s desc / (2 ^ seqLog2bp s desc * seqRb s desc)
          if old ≠ noBlock ∧ old ≥ blocks then .trap s causeSeqOperand word
          else if old ≠ noBlock ∧ old ≥ poolNblk s ctx p then .trap s causeSeqOperand v
          else touching s (if old = noBlock then [] else [(poolCounts s ctx p + 4 * old, 4)]) fun s =>
            if old ≠ noBlock ∧ poolCount s ctx p old = 0 then .trap s causeSeqOperand v
            else if poolTop s ctx p = 0 then askUnit s (some d) 0 0xFFFFFFFFFFFFFFFF
            else
              let at_ := poolStack s ctx p + 4 * (poolTop s ctx p - 1)
              touching s [(at_, 4)] fun s =>
                if vaGet s ctx at_ 4 ≥ blocks then .trap s causeSeqOperand word
                else touching s [(poolCounts s ctx p + 4 * vaGet s ctx at_ 4, 4)] fun s =>
                  let (s, block) := poolTake s p
                  let s := match tag, slotFree with
                    | some t, some j => seqPut (settleVa s ctx (some s.cur.1) key) desc (96 + 8 * j) 8 (block + i * 2 ^ 32 + t * 2 ^ 48 + 2 ^ 63)
                    | _, _ =>
                      if replaces then
                        let s := vaPut32 s ctx (some s.cur.1) listVa block
                        if old = noBlock then s else poolFree s ctx (some s.cur.1) p old
                      else s
                  askUnit s (some d) 0 (wordOf block)

/-- BFREE. -/
def execBfree (a b : BitVec 5) (s : State) : Host.Outcome State Fault Refusal :=
  run 4 { xr := [a, b], noMsg := true } s fun s =>
    let v := getX (curThread s) b
    withSeq s (getX (curThread s) a) fun s _ desc =>
      withPool s desc fun s p =>
        let ctx := curCtx s
        if v.toNat ≥ poolNblk s ctx p then .trap s causeSeqOperand v
        else touching s [(poolCounts s ctx p + 4 * v.toNat, 4)] fun s =>
          let n := poolCount s ctx p v.toNat
          if n = 0 then .trap s causeSeqOperand v
          else touching s (if n = 1 then [(poolStack s ctx p + 4 * poolTop s ctx p, 4)] else []) fun s =>
            askUnit (poolFree s ctx (some s.cur.1) p v.toNat) none 0 0

/-! ## The prefix index (R392, R393) -/

/-- PXLOOK. -/
def execPxlook (d : BitVec 3) (a : BitVec 5) (b : BitVec 4) (s : State) : Host.Outcome State Fault Refusal :=
  run 4 { xr := [a, regNo (2 * b.toNat)], xs := groupRegs d ++ [2 * b.toNat + 1], noMsg := true } s fun s =>
    let t := curThread s
    let hash := getX t (regNo (2 * b.toNat))
    let len := getX t (regNo (2 * b.toNat + 1))
    if fieldOf len 32 32 ≠ 0 then .trap s causeSeqOperand len
    else withIndex s (getX t a) hash.toNat fun s _ h =>
      let ctx := curCtx s
      let words := match pxFind s ctx h hash.toNat len.toNat with
        | some va => (List.range 4).map fun i => wordOf (vaGet s ctx (va + 8 * i) 8)
        | none => [0, 0, 0, 0]
      askUnit (modCur s fun t => putGroup t d words) none 3 0

/-- The candidate of a PXINS: its bytes, and its buffer as an end. -/
def prefixCandidate (s : State) (word : Word) : Except (State × Stop) (State × List Byte × CopyEnd) :=
  let sg : BitVec 3 := BitVec.ofNat 3 (fieldOf word 61 3)
  let seg := getSeg (curThread s) sg
  let dest : CopyEnd := ⟨seg, fieldOf word 0 56⟩
  if fieldOf word 56 5 ≠ 0 then .error (s, .trap causeSeqOperand word)
  else match segCheckWith (curSP s) seg sg.toNat (wordOf dest.off) 32 (needR + needW) false true with
    | .error e => .error (s, e)
    | .ok p =>
      if p.kind = kindGlobal then
        match translate s s.cur.1 p.addr accAtomic (curThread s).csr.sys with
        | .error e => .error e
        | .ok (s, l, _) =>
          if pteFmt l.fmt ≠ 0 then .error (s, .trap causeFmtStore (wordOf p.addr))
          else match viewRead s (curView s) p.addr 32 accLoad with
            | .error e => .error e
            | .ok (s, _, bs) => .ok (s, bs, dest)
      else
        if p.kind = kindCore then
          match (curThread s).fetched with
          | some bs => .ok (s, bs, dest)
          | none => .error (askOperand s p 32)
        else if selfPending s then .error (s, .park .retry)
        else if poolPoisoned (curCore s) p.addr 32 then .error (s, .trap causePoisoned (wordOf p.addr))
        else .ok (s, poolBytes (curCore s) p.addr 32, dest)

/-- What a replayed Trail says of an insert of a key by a thread: none where it knows no entry of the key; else whether it wins, and the
entry that it then consumes (R393). -/
def prefixReplay (tr : Trail) (hash len : Nat) (stamp : Word) : Option (Option Nat) :=
  let same (e : BitVec 128) : Bool := fieldOf e 124 4 == 3 && fieldOf e 64 56 == hash % 2 ^ 56 && fieldOf e 32 32 == len
  let all := (List.range tr.index.length).filter fun i => same (tr.index.getD i 0)
  if all.isEmpty then none
  else some (all.find? fun i => !tr.consumed.contains i && fieldOf (tr.index.getD i 0) 0 32 == fieldOf stamp 0 32)

/-- PXINS: the candidate goes to the home slice, which performs it in its turn (R392, R393). -/
def execPxins (d : BitVec 3) (a b : BitVec 5) (s : State) : Host.Outcome State Fault Refusal :=
  run 4 { xr := [a, b], gs := [d], noMsg := true } s fun s =>
    let t := curThread s
    match prefixCandidate s (getX t b) with
    | .error (s, e) => .stop s e
    | .ok (s, bs, dest) =>
      let hash := leNat (bs.take 8)
      let len := leNat ((bs.drop 8).take 4)
      withIndex s (getX t a) hash fun s va _ =>
        releasing s (
          let insert (s : State) (wins : Option Bool) : Res :=
            let s := modCtx s (curCtx s) fun c =>
              { c with prefixWaits := c.prefixWaits ++ [⟨curRef s, d.toNat, va, bs, dest, t.csr.stamp, wins⟩] }
            askUnit (modCur s fun t => pendG { t with fetched := none } d) none 0 0
          match getCtx? s (curCtx s) with
          | none => insert s none
          | some c =>
            if c.trail.mode ≠ 2 then insert s none
            else match prefixReplay c.trail hash len t.csr.stamp with
              | none => diverged s (wordOf hash)
              | some none => insert s (some false)
              | some (some i) => insert (modTrail s (curCtx s) fun tr => { tr with consumed := i :: tr.consumed }) (some true))

end Sys2Proof.Machine
end

