-- ==== Sys2Proof/Machine/TaskEvents.lean ====
section
/-!
DEFINITION. The steps of tasks, timers and asynchronous traps: verdicts, forwards and bounces (R285 to R289), the slot
timer (R291), MSG_LOST and TIMER (R413), reclaiming (R286), and poll mode (R323).
-/

namespace Sys2Proof.Machine

/-- TASK_MESSAGE_VERDICT. -/
def execTaskMessageVerdict (msg : Nat) (s : State) : Host.Outcome State Fault Refusal :=
  onMsg msg s fun p s => match p with
    | .task src m => some (taskVerdict s (ctxOf src.core) m)
    | _ => none

/-- FORWARD_DELIVERY, and the request for a forward that has waited behind another (log 149). -/
def execForwardDelivery (msg : Nat) (s : State) : Host.Outcome State Fault Refusal :=
  onMsg msg s fun p s => match p with
    | .forward d m asked => some (deliverTo s d m asked)
    | .ask d id => if forwardInFlight s d id then none else some (askForward s d)
    | _ => none

/-- BOUNCE. -/
def execBounce (msg : Nat) (s : State) : Host.Outcome State Fault Refusal :=
  onMsg msg s fun p s => match p with
    | .bounce m => some (deliverBounce s m)
    | _ => none

/-- TASK_ENTRY_RECLAIM: an EXITED entry is FREE again. -/
def execTaskEntryReclaim (ctx index : Nat) (s : State) : Host.Outcome State Fault Refusal :=
  match getTask? s ctx index with
  | some t => .next (if t.phase = .exited then modCtx s ctx fun c => { c with tasks := mapErase c.tasks index } else s)
  | none => .next s

/-- The slot timer steps from 1 to 0 (R291): the event flag, a pending trap, and the end of SLEEP's park. -/
def timerExpire (t : Thread) : Thread :=
  let t := { t with csr := { t.csr with timer := 0 }, event := true, timerTrap := true }
  if t.wait = .sleep then completeWait t else t

/-- TIMER_EXPIRY. -/
def execTimerExpiry (core slot : Nat) (s : State) : Host.Outcome State Fault Refusal :=
  let r : Ref := ⟨core, slot % 16⟩
  let t := refThread s r
  .next (if r.slot ≠ 15 ∧ t.csr.timer = 1 ∧ t.phase ≠ .halted then modRef s r timerExpire else s)

/-- Whether a slot has an asynchronous trap pending. -/
def asyncPending (t : Thread) : Bool := t.msgLost || t.timerTrap

/-- The asynchronous trap of a thread that is about to issue (R413): MSG_LOST before TIMER. A FORK that waits leaves its
queue. -/
def asyncTrap (s : State) (r : Ref) : State :=
  let s := modCluster s (clusterOf r.core) fun c => { c with forkers := c.forkers.filter (· != r) }
  modRef s r fun t =>
    let t := unpark t
    if t.msgLost then
      { enterTrap t t.pc causeMsgLost (wordOf (t.lostTask.toNat + t.lost.toNat * 2 ^ 32)) with msgLost := false, lost := 0 }
    else { enterTrap t t.pc causeTimer 0 with timerTrap := false }

/-- ASYNC_TRAP. -/
def execAsyncTrap (core slot : Nat) (s : State) : Host.Outcome State Fault Refusal :=
  let r : Ref := ⟨core, slot % 16⟩
  let t := refThread s r
  .next (if r.slot ≠ 15 ∧ t.phase = .run ∧ asyncPending t ∧ engineRuns s core then asyncTrap s r else s)

/-- POLL_REISSUE: 1,024 cycles have passed, and the access issues again in the thread's next home cycle. -/
def execPollReissue (core slot : Nat) (s : State) : Host.Outcome State Fault Refusal :=
  let r : Ref := ⟨core, slot % 16⟩
  match (refThread s r).wait with
  | .poll c => .next (if c ≤ s.cycle && c != 0 then modRef s r fun t => { t with wait := .poll 0 } else s)
  | _ => .next s

end Sys2Proof.Machine
end

