-- ==== Sys2Proof/Machine/Dispatch.lean ====
section
/-!
DEFINITION. The one dispatch: each instruction and each step of the device to its meaning.
-/

namespace Sys2Proof.Machine

/-- The meaning of an instruction of the current slot, or of a step of the device. -/
def exec (i : Instr) (s : State) : Host.Outcome State Fault Refusal :=
  match i with
  | .mzeroExec core => Sys2Proof.Machine.execMzeroExec core s
  | .mldaExec core => Sys2Proof.Machine.execMldaExec core s
  | .mldbExec core => Sys2Proof.Machine.execMldbExec core s
  | .mmaExec core => Sys2Proof.Machine.execMmaExec core s
  | .mgangBarrier core => Sys2Proof.Machine.execMgangBarrier core s
  | .mgangExec core => Sys2Proof.Machine.execMgangExec core s
  | .mdrainExec core => Sys2Proof.Machine.execMdrainExec core s
  | .mdrainrExec core => Sys2Proof.Machine.execMdrainrExec core s
  | .mdrainrWrite msg => Sys2Proof.Machine.execMdrainrWrite msg s
  | .leaveGrant cluster => Sys2Proof.Machine.execLeaveGrant cluster s
  | .copyChunk core => Sys2Proof.Machine.execCopyChunk core s
  | .copyChunkArrival msg => Sys2Proof.Machine.execCopyChunkArrival msg s
  | .cwaitResolve core => Sys2Proof.Machine.execCwaitResolve core s
  | .reset => Sys2Proof.Machine.execReset s
  | .thermalShutdown => Sys2Proof.Machine.execThermalShutdown s
  | .governorLevel die level => Sys2Proof.Machine.execGovernorLevel die level s
  | .tail queue value => Sys2Proof.Machine.execTail queue value s
  | .enable queue on => Sys2Proof.Machine.execEnable queue on s
  | .registerWrite offset value => Sys2Proof.Machine.execRegisterWrite offset value s
  | .retrain link => Sys2Proof.Machine.execRetrain link s
  | .waitovf slice => Sys2Proof.Machine.execWaitovf slice s
  | .correctedErrorCount unit => Sys2Proof.Machine.execCorrectedErrorCount unit s
  | .attestationRequest nonce => Sys2Proof.Machine.execAttestationRequest nonce s
  | .hostAccess write pa size value => Sys2Proof.Machine.execHostAccess write pa size value s
  | .contextCreate record => Sys2Proof.Machine.execContextCreate record s
  | .launchRecordRead ctx queue => Sys2Proof.Machine.execLaunchRecordRead ctx queue s
  | .placeLaunch ctx launch cores => Sys2Proof.Machine.execPlaceLaunch ctx launch cores s
  | .dispatch core slot => Sys2Proof.Machine.execDispatch core slot s
  | .counterUp msg => Sys2Proof.Machine.execCounterUp msg s
  | .counterDone msg => Sys2Proof.Machine.execCounterDone msg s
  | .deadlineCheck ctx => Sys2Proof.Machine.execDeadlineCheck ctx s
  | .preemptionRequest ctx => Sys2Proof.Machine.execPreemptionRequest ctx s
  | .haltSignal core => Sys2Proof.Machine.execHaltSignal core s
  | .haltingComplete ctx => Sys2Proof.Machine.execHaltingComplete ctx s
  | .resume ctx => Sys2Proof.Machine.execResume ctx s
  | .save ctx => Sys2Proof.Machine.execSave ctx s
  | .restore ctx places => Sys2Proof.Machine.execRestore ctx places s
  | .resize ctx removed => Sys2Proof.Machine.execResize ctx removed s
  | .dump ctx => Sys2Proof.Machine.execDump ctx s
  | .destroy ctx => Sys2Proof.Machine.execDestroy ctx s
  | .reply msg => Sys2Proof.Machine.execReply msg s
  | .acknowledgement msg => Sys2Proof.Machine.execAcknowledgement msg s
  | .messageArrival msg => Sys2Proof.Machine.execMessageArrival msg s
  | .handlerStart core => Sys2Proof.Machine.execHandlerStart core s
  | .load core => Sys2Proof.Machine.execLoad core s
  | .store core => Sys2Proof.Machine.execStore core s
  | .syncLoad core => Sys2Proof.Machine.execSyncLoad core s
  | .fill core => Sys2Proof.Machine.execFill core s
  | .fe core => Sys2Proof.Machine.execFe core s
  | .atomic core => Sys2Proof.Machine.execAtomic core s
  | .deferredResend msg => Sys2Proof.Machine.execDeferredResend msg s
  | .chainWord msg => Sys2Proof.Machine.execChainWord msg s
  | .migrationArrival msg => Sys2Proof.Machine.execMigrationArrival msg s
  | .timerExpiry core slot => Sys2Proof.Machine.execTimerExpiry core slot s
  | .asyncTrap core slot => Sys2Proof.Machine.execAsyncTrap core slot s
  | .taskMessageVerdict msg => Sys2Proof.Machine.execTaskMessageVerdict msg s
  | .forwardDelivery msg => Sys2Proof.Machine.execForwardDelivery msg s
  | .bounce msg => Sys2Proof.Machine.execBounce msg s
  | .taskEntryReclaim ctx index => Sys2Proof.Machine.execTaskEntryReclaim ctx index s
  | .musterStep core => Sys2Proof.Machine.execMusterStep core s
  | .musterAnswer msg => Sys2Proof.Machine.execMusterAnswer msg s
  | .pollReissue core slot => Sys2Proof.Machine.execPollReissue core slot s
  | .stealRound core slot => Sys2Proof.Machine.execStealRound core slot s
  | .stealArrival msg => Sys2Proof.Machine.execStealArrival msg s
  | .traversalCountMessage msg => Sys2Proof.Machine.execTraversalCountMessage msg s
  | .traversalEnd cluster index => Sys2Proof.Machine.execTraversalEnd cluster index s
  | .commitStep ctx descriptor => Sys2Proof.Machine.execCommitStep ctx descriptor s
  | .faultService die => Sys2Proof.Machine.execFaultService die s
  | .faultBufferCapacity die capacity => Sys2Proof.Machine.execFaultBufferCapacity die capacity s
  | .evictionSelect ctx va => Sys2Proof.Machine.execEvictionSelect ctx va s
  | .commitPoint ctx va => Sys2Proof.Machine.execCommitPoint ctx va s
  | .copyOutComplete ctx va quarters => Sys2Proof.Machine.execCopyOutComplete ctx va quarters s
  | .recall ctx va frame => Sys2Proof.Machine.execRecall ctx va frame s
  | .duplicate ctx va => Sys2Proof.Machine.execDuplicate ctx va s
  | .trailPageMap ctx frame => Sys2Proof.Machine.execTrailPageMap ctx frame s
  | .packetReceived ctx window offset payload => Sys2Proof.Machine.execPacketReceived ctx window offset payload s
  | .packetReturned ctx arm packet reason => Sys2Proof.Machine.execPacketReturned ctx arm packet reason s
  | .backoffResend ctx arm packet => Sys2Proof.Machine.execBackoffResend ctx arm packet s
  | .sendComplete ctx arm packet => Sys2Proof.Machine.execSendComplete ctx arm packet s
  | .linkTrained link lanes => Sys2Proof.Machine.execLinkTrained link lanes s
  | .linkLoss link => Sys2Proof.Machine.execLinkLoss link s
  | .linkDisable link => Sys2Proof.Machine.execLinkDisable link s
  | .dieLinkFailure link => Sys2Proof.Machine.execDieLinkFailure link s
  | .uncorrectableError site => Sys2Proof.Machine.execUncorrectableError site s
  | .correctedError unit => Sys2Proof.Machine.execCorrectedError unit s
  | .scrub core => Sys2Proof.Machine.execScrub core s
  | .telemetryUpdate unit power temp => Sys2Proof.Machine.execTelemetryUpdate unit power temp s
  | .primitiveArrival msg => Sys2Proof.Machine.execPrimitiveArrival msg s
  | .watermarkFlit msg => Sys2Proof.Machine.execWatermarkFlit msg s
  | .fragmentStart ctx owner core slot => Sys2Proof.Machine.execFragmentStart ctx owner core slot s
  | .blend ctx owner => Sys2Proof.Machine.execBlend ctx owner s
  | .frameCloseComplete ctx => Sys2Proof.Machine.execFrameCloseComplete ctx s
  | .flitReplay link => Sys2Proof.Machine.execFlitReplay link s
  | .cb4LeaveEnd core => Sys2Proof.Machine.execCb4LeaveEnd core s
  | .antiRollbackRaise value => Sys2Proof.Machine.execAntiRollbackRaise value s
  | .add d a b => Sys2Proof.Machine.execAdd d a b s
  | .sub d a b => Sys2Proof.Machine.execSub d a b s
  | .and d a b => Sys2Proof.Machine.execAnd d a b s
  | .or d a b => Sys2Proof.Machine.execOr d a b s
  | .xor d a b => Sys2Proof.Machine.execXor d a b s
  | .andn d a b => Sys2Proof.Machine.execAndn d a b s
  | .orn d a b => Sys2Proof.Machine.execOrn d a b s
  | .sll d a b => Sys2Proof.Machine.execSll d a b s
  | .srl d a b => Sys2Proof.Machine.execSrl d a b s
  | .sra d a b => Sys2Proof.Machine.execSra d a b s
  | .rol d a b => Sys2Proof.Machine.execRol d a b s
  | .ror d a b => Sys2Proof.Machine.execRor d a b s
  | .min d a b => Sys2Proof.Machine.execMin d a b s
  | .max d a b => Sys2Proof.Machine.execMax d a b s
  | .minu d a b => Sys2Proof.Machine.execMinu d a b s
  | .maxu d a b => Sys2Proof.Machine.execMaxu d a b s
  | .addw d a b => Sys2Proof.Machine.execAddw d a b s
  | .subw d a b => Sys2Proof.Machine.execSubw d a b s
  | .sllw d a b => Sys2Proof.Machine.execSllw d a b s
  | .srlw d a b => Sys2Proof.Machine.execSrlw d a b s
  | .sraw d a b => Sys2Proof.Machine.execSraw d a b s
  | .clz d a => Sys2Proof.Machine.execClz d a s
  | .ctz d a => Sys2Proof.Machine.execCtz d a s
  | .popc d a => Sys2Proof.Machine.execPopc d a s
  | .brev d a => Sys2Proof.Machine.execBrev d a s
  | .bswap d a => Sys2Proof.Machine.execBswap d a s
  | .sext d a w => Sys2Proof.Machine.execSext d a w s
  | .zext d a w => Sys2Proof.Machine.execZext d a w s
  | .lea d a b h => Sys2Proof.Machine.execLea d a b h s
  | .mul d a b => Sys2Proof.Machine.execMul d a b s
  | .mulh d a b => Sys2Proof.Machine.execMulh d a b s
  | .mulhu d a b => Sys2Proof.Machine.execMulhu d a b s
  | .mulhsu d a b => Sys2Proof.Machine.execMulhsu d a b s
  | .div d a b => Sys2Proof.Machine.execDiv d a b s
  | .divu d a b => Sys2Proof.Machine.execDivu d a b s
  | .rem d a b => Sys2Proof.Machine.execRem d a b s
  | .remu d a b => Sys2Proof.Machine.execRemu d a b s
  | .mulw d a b => Sys2Proof.Machine.execMulw d a b s
  | .divw d a b => Sys2Proof.Machine.execDivw d a b s
  | .divuw d a b => Sys2Proof.Machine.execDivuw d a b s
  | .remw d a b => Sys2Proof.Machine.execRemw d a b s
  | .remuw d a b => Sys2Proof.Machine.execRemuw d a b s
  | .addi d a im => Sys2Proof.Machine.execAddi d a im s
  | .andi d a im => Sys2Proof.Machine.execAndi d a im s
  | .ori d a im => Sys2Proof.Machine.execOri d a im s
  | .xori d a im => Sys2Proof.Machine.execXori d a im s
  | .slli d a h => Sys2Proof.Machine.execSlli d a h s
  | .srli d a h => Sys2Proof.Machine.execSrli d a h s
  | .srai d a h => Sys2Proof.Machine.execSrai d a h s
  | .rori d a h => Sys2Proof.Machine.execRori d a h s
  | .slliw d a h => Sys2Proof.Machine.execSlliw d a h s
  | .srliw d a h => Sys2Proof.Machine.execSrliw d a h s
  | .sraiw d a h => Sys2Proof.Machine.execSraiw d a h s
  | .bext d a l p => Sys2Proof.Machine.execBext d a l p s
  | .bexts d a l p => Sys2Proof.Machine.execBexts d a l p s
  | .bins d a l p => Sys2Proof.Machine.execBins d a l p s
  | .lui d im => Sys2Proof.Machine.execLui d im s
  | .addpc d im => Sys2Proof.Machine.execAddpc d im s
  | .cmpEq g k a b => Sys2Proof.Machine.execCmpEq g k a b s
  | .cmpNe g k a b => Sys2Proof.Machine.execCmpNe g k a b s
  | .cmpLt g k a b => Sys2Proof.Machine.execCmpLt g k a b s
  | .cmpGe g k a b => Sys2Proof.Machine.execCmpGe g k a b s
  | .cmpLtu g k a b => Sys2Proof.Machine.execCmpLtu g k a b s
  | .cmpGeu g k a b => Sys2Proof.Machine.execCmpGeu g k a b s
  | .cmpTst g k a b => Sys2Proof.Machine.execCmpTst g k a b s
  | .cmpTstz g k a b => Sys2Proof.Machine.execCmpTstz g k a b s
  | .cmpFeqS g k a b => Sys2Proof.Machine.execCmpFeqS g k a b s
  | .cmpFltS g k a b => Sys2Proof.Machine.execCmpFltS g k a b s
  | .cmpFleS g k a b => Sys2Proof.Machine.execCmpFleS g k a b s
  | .cmpFunS g k a b => Sys2Proof.Machine.execCmpFunS g k a b s
  | .cmpFeqD g k a b => Sys2Proof.Machine.execCmpFeqD g k a b s
  | .cmpFltD g k a b => Sys2Proof.Machine.execCmpFltD g k a b s
  | .cmpFleD g k a b => Sys2Proof.Machine.execCmpFleD g k a b s
  | .cmpFunD g k a b => Sys2Proof.Machine.execCmpFunD g k a b s
  | .cmpiEq g k a im => Sys2Proof.Machine.execCmpiEq g k a im s
  | .cmpiNe g k a im => Sys2Proof.Machine.execCmpiNe g k a im s
  | .cmpiLt g k a im => Sys2Proof.Machine.execCmpiLt g k a im s
  | .cmpiGe g k a im => Sys2Proof.Machine.execCmpiGe g k a im s
  | .cmpiLtu g k a im => Sys2Proof.Machine.execCmpiLtu g k a im s
  | .cmpiGeu g k a im => Sys2Proof.Machine.execCmpiGeu g k a im s
  | .cmpiTst g k a im => Sys2Proof.Machine.execCmpiTst g k a im s
  | .cmpiTstz g k a im => Sys2Proof.Machine.execCmpiTstz g k a im s
  | .gand d a b => Sys2Proof.Machine.execGand d a b s
  | .gor d a b => Sys2Proof.Machine.execGor d a b s
  | .gxor d a b => Sys2Proof.Machine.execGxor d a b s
  | .gandn d a b => Sys2Proof.Machine.execGandn d a b s
  | .gnot d a => Sys2Proof.Machine.execGnot d a s
  | .gset d a => Sys2Proof.Machine.execGset d a s
  | .gget d a => Sys2Proof.Machine.execGget d a s
  | .gwait a => Sys2Proof.Machine.execGwait a s
  | .sel d a b g => Sys2Proof.Machine.execSel d a b g s
  | .fmaddS d a b c => Sys2Proof.Machine.execFmaddS d a b c s
  | .fmsubS d a b c => Sys2Proof.Machine.execFmsubS d a b c s
  | .fnmaddS d a b c => Sys2Proof.Machine.execFnmaddS d a b c s
  | .fnmsubS d a b c => Sys2Proof.Machine.execFnmsubS d a b c s
  | .fmaddD d a b c => Sys2Proof.Machine.execFmaddD d a b c s
  | .fmsubD d a b c => Sys2Proof.Machine.execFmsubD d a b c s
  | .fnmaddD d a b c => Sys2Proof.Machine.execFnmaddD d a b c s
  | .fnmsubD d a b c => Sys2Proof.Machine.execFnmsubD d a b c s
  | .faddS d a b => Sys2Proof.Machine.execFaddS d a b s
  | .fsubS d a b => Sys2Proof.Machine.execFsubS d a b s
  | .fmulS d a b => Sys2Proof.Machine.execFmulS d a b s
  | .fdivS d a b => Sys2Proof.Machine.execFdivS d a b s
  | .fsqrtS d a => Sys2Proof.Machine.execFsqrtS d a s
  | .fminS d a b => Sys2Proof.Machine.execFminS d a b s
  | .fmaxS d a b => Sys2Proof.Machine.execFmaxS d a b s
  | .fsgnjS d a b => Sys2Proof.Machine.execFsgnjS d a b s
  | .fsgnjnS d a b => Sys2Proof.Machine.execFsgnjnS d a b s
  | .fsgnjxS d a b => Sys2Proof.Machine.execFsgnjxS d a b s
  | .fclassS d a => Sys2Proof.Machine.execFclassS d a s
  | .faddD d a b => Sys2Proof.Machine.execFaddD d a b s
  | .fsubD d a b => Sys2Proof.Machine.execFsubD d a b s
  | .fmulD d a b => Sys2Proof.Machine.execFmulD d a b s
  | .fdivD d a b => Sys2Proof.Machine.execFdivD d a b s
  | .fsqrtD d a => Sys2Proof.Machine.execFsqrtD d a s
  | .fminD d a b => Sys2Proof.Machine.execFminD d a b s
  | .fmaxD d a b => Sys2Proof.Machine.execFmaxD d a b s
  | .fsgnjD d a b => Sys2Proof.Machine.execFsgnjD d a b s
  | .fsgnjnD d a b => Sys2Proof.Machine.execFsgnjnD d a b s
  | .fsgnjxD d a b => Sys2Proof.Machine.execFsgnjxD d a b s
  | .fclassD d a => Sys2Proof.Machine.execFclassD d a s
  | .fcvtDS d a => Sys2Proof.Machine.execFcvtDS d a s
  | .fcvtSD d a => Sys2Proof.Machine.execFcvtSD d a s
  | .fcvtSH d a => Sys2Proof.Machine.execFcvtSH d a s
  | .fcvtHS d a => Sys2Proof.Machine.execFcvtHS d a s
  | .fcvtSB d a => Sys2Proof.Machine.execFcvtSB d a s
  | .fcvtBS d a => Sys2Proof.Machine.execFcvtBS d a s
  | .fcvtDH d a => Sys2Proof.Machine.execFcvtDH d a s
  | .fcvtHD d a => Sys2Proof.Machine.execFcvtHD d a s
  | .fcvtWS d a => Sys2Proof.Machine.execFcvtWS d a s
  | .fcvtWuS d a => Sys2Proof.Machine.execFcvtWuS d a s
  | .fcvtLS d a => Sys2Proof.Machine.execFcvtLS d a s
  | .fcvtLuS d a => Sys2Proof.Machine.execFcvtLuS d a s
  | .fcvtWD d a => Sys2Proof.Machine.execFcvtWD d a s
  | .fcvtWuD d a => Sys2Proof.Machine.execFcvtWuD d a s
  | .fcvtLD d a => Sys2Proof.Machine.execFcvtLD d a s
  | .fcvtLuD d a => Sys2Proof.Machine.execFcvtLuD d a s
  | .fcvtWSSat d a => Sys2Proof.Machine.execFcvtWSSat d a s
  | .fcvtWuSSat d a => Sys2Proof.Machine.execFcvtWuSSat d a s
  | .fcvtLSSat d a => Sys2Proof.Machine.execFcvtLSSat d a s
  | .fcvtLuSSat d a => Sys2Proof.Machine.execFcvtLuSSat d a s
  | .fcvtWDSat d a => Sys2Proof.Machine.execFcvtWDSat d a s
  | .fcvtWuDSat d a => Sys2Proof.Machine.execFcvtWuDSat d a s
  | .fcvtLDSat d a => Sys2Proof.Machine.execFcvtLDSat d a s
  | .fcvtLuDSat d a => Sys2Proof.Machine.execFcvtLuDSat d a s
  | .fcvtSW d a => Sys2Proof.Machine.execFcvtSW d a s
  | .fcvtSWu d a => Sys2Proof.Machine.execFcvtSWu d a s
  | .fcvtSL d a => Sys2Proof.Machine.execFcvtSL d a s
  | .fcvtSLu d a => Sys2Proof.Machine.execFcvtSLu d a s
  | .fcvtDW d a => Sys2Proof.Machine.execFcvtDW d a s
  | .fcvtDWu d a => Sys2Proof.Machine.execFcvtDWu d a s
  | .fcvtDL d a => Sys2Proof.Machine.execFcvtDL d a s
  | .fcvtDLu d a => Sys2Proof.Machine.execFcvtDLu d a s
  | .bcEq a b o => Sys2Proof.Machine.execBcEq a b o s
  | .bcNe a b o => Sys2Proof.Machine.execBcNe a b o s
  | .bcLt a b o => Sys2Proof.Machine.execBcLt a b o s
  | .bcGe a b o => Sys2Proof.Machine.execBcGe a b o s
  | .bcLtu a b o => Sys2Proof.Machine.execBcLtu a b o s
  | .bcGeu a b o => Sys2Proof.Machine.execBcGeu a b o s
  | .jal d o => Sys2Proof.Machine.execJal d o s
  | .jalr d a im => Sys2Proof.Machine.execJalr d a im s
  | .ptb t o => Sys2Proof.Machine.execPtb t o s
  | .bt t g => Sys2Proof.Machine.execBt t g s
  | .btn t g => Sys2Proof.Machine.execBtn t g s
  | .bta t => Sys2Proof.Machine.execBta t s
  | .ptbr t a => Sys2Proof.Machine.execPtbr t a s
  | .callt d t => Sys2Proof.Machine.execCallt d t s
  | .ldB d a sg im => Sys2Proof.Machine.execLdB d a sg im s
  | .ldBu d a sg im => Sys2Proof.Machine.execLdBu d a sg im s
  | .ldH d a sg im => Sys2Proof.Machine.execLdH d a sg im s
  | .ldHu d a sg im => Sys2Proof.Machine.execLdHu d a sg im s
  | .ldW d a sg im => Sys2Proof.Machine.execLdW d a sg im s
  | .ldWu d a sg im => Sys2Proof.Machine.execLdWu d a sg im s
  | .ldD d a sg im => Sys2Proof.Machine.execLdD d a sg im s
  | .st d a sg w im => Sys2Proof.Machine.execSt d a sg w im s
  | .ldsK d a sg z im => Sys2Proof.Machine.execLdsK d a sg z im s
  | .ldsC d a sg z im => Sys2Proof.Machine.execLdsC d a sg z im s
  | .stf d a sg z im => Sys2Proof.Machine.execStf d a sg z im s
  | .stfE d a sg z im => Sys2Proof.Machine.execStfE d a sg z im s
  | .feset a sg => Sys2Proof.Machine.execFeset a sg s
  | .feclr a sg => Sys2Proof.Machine.execFeclr a sg s
  | .fetest d a sg => Sys2Proof.Machine.execFetest d a sg s
  | .fewait a sg => Sys2Proof.Machine.execFewait a sg s
  | .ldv d a sg im => Sys2Proof.Machine.execLdv d a sg im s
  | .stv d a sg im => Sys2Proof.Machine.execStv d a sg im s
  | .ldvs d a sg im => Sys2Proof.Machine.execLdvs d a sg im s
  | .stvf d a sg im => Sys2Proof.Machine.execStvf d a sg im s
  | .ldvh d a sg im => Sys2Proof.Machine.execLdvh d a sg im s
  | .stvh d a sg im => Sys2Proof.Machine.execStvh d a sg im s
  | .ldvb d a sg im => Sys2Proof.Machine.execLdvb d a sg im s
  | .ldx d a sg g n => Sys2Proof.Machine.execLdx d a sg g n s
  | .ldxb d a sg g n => Sys2Proof.Machine.execLdxb d a sg g n s
  | .stblk d a sg g n => Sys2Proof.Machine.execStblk d a sg g n s
  | .pref a sg g n => Sys2Proof.Machine.execPref a sg g n s
  | .amsend d a b g n => Sys2Proof.Machine.execAmsend d a b g n s
  | .amret a g n => Sys2Proof.Machine.execAmret a g n s
  | .rfetch d a b g n => Sys2Proof.Machine.execRfetch d a b g n s
  | .atomAdd d a b c r => Sys2Proof.Machine.execAtomAdd d a b c r s
  | .atomAnd d a b c r => Sys2Proof.Machine.execAtomAnd d a b c r s
  | .atomOr d a b c r => Sys2Proof.Machine.execAtomOr d a b c r s
  | .atomXor d a b c r => Sys2Proof.Machine.execAtomXor d a b c r s
  | .atomXchg d a b c r => Sys2Proof.Machine.execAtomXchg d a b c r s
  | .atomMin d a b c r => Sys2Proof.Machine.execAtomMin d a b c r s
  | .atomMax d a b c r => Sys2Proof.Machine.execAtomMax d a b c r s
  | .atomCas d a b c r => Sys2Proof.Machine.execAtomCas d a b c r s
  | .atomwAdd d a b c r => Sys2Proof.Machine.execAtomwAdd d a b c r s
  | .atomwAnd d a b c r => Sys2Proof.Machine.execAtomwAnd d a b c r s
  | .atomwOr d a b c r => Sys2Proof.Machine.execAtomwOr d a b c r s
  | .atomwXor d a b c r => Sys2Proof.Machine.execAtomwXor d a b c r s
  | .atomwXchg d a b c r => Sys2Proof.Machine.execAtomwXchg d a b c r s
  | .atomwMin d a b c r => Sys2Proof.Machine.execAtomwMin d a b c r s
  | .atomwMax d a b c r => Sys2Proof.Machine.execAtomwMax d a b c r s
  | .atomwCas d a b c r => Sys2Proof.Machine.execAtomwCas d a b c r s
  | .atomxMinu d a b c r => Sys2Proof.Machine.execAtomxMinu d a b c r s
  | .atomxMaxu d a b c r => Sys2Proof.Machine.execAtomxMaxu d a b c r s
  | .atomxFminS d a b c r => Sys2Proof.Machine.execAtomxFminS d a b c r s
  | .atomxFmaxS d a b c r => Sys2Proof.Machine.execAtomxFmaxS d a b c r s
  | .atomxFminD d a b c r => Sys2Proof.Machine.execAtomxFminD d a b c r s
  | .atomxFmaxD d a b c r => Sys2Proof.Machine.execAtomxFmaxD d a b c r s
  | .xset a b => Sys2Proof.Machine.execXset a b s
  | .xaddS a b => Sys2Proof.Machine.execXaddS a b s
  | .xaddD a b => Sys2Proof.Machine.execXaddD a b s
  | .xaddB a b c => Sys2Proof.Machine.execXaddB a b c s
  | .xrdS d a => Sys2Proof.Machine.execXrdS d a s
  | .xrdD d a => Sys2Proof.Machine.execXrdD d a s
  | .xmaxe d a b => Sys2Proof.Machine.execXmaxe d a b s
  | .fenceAcq a => Sys2Proof.Machine.execFenceAcq a s
  | .fenceRel a => Sys2Proof.Machine.execFenceRel a s
  | .fenceAr a => Sys2Proof.Machine.execFenceAr a s
  | .vadd d a b m t => Sys2Proof.Machine.execVadd d a b m t s
  | .vsub d a b m t => Sys2Proof.Machine.execVsub d a b m t s
  | .vmul d a b m t => Sys2Proof.Machine.execVmul d a b m t s
  | .vmulh d a b m t => Sys2Proof.Machine.execVmulh d a b m t s
  | .vmulhn d a b m t => Sys2Proof.Machine.execVmulhn d a b m t s
  | .vand d a b m t => Sys2Proof.Machine.execVand d a b m t s
  | .vor d a b m t => Sys2Proof.Machine.execVor d a b m t s
  | .vxor d a b m t => Sys2Proof.Machine.execVxor d a b m t s
  | .vandn d a b m t => Sys2Proof.Machine.execVandn d a b m t s
  | .vshl d a b m t => Sys2Proof.Machine.execVshl d a b m t s
  | .vshr d a b m t => Sys2Proof.Machine.execVshr d a b m t s
  | .vsra d a b m t => Sys2Proof.Machine.execVsra d a b m t s
  | .vmin d a b m t => Sys2Proof.Machine.execVmin d a b m t s
  | .vmax d a b m t => Sys2Proof.Machine.execVmax d a b m t s
  | .vminn d a b m t => Sys2Proof.Machine.execVminn d a b m t s
  | .vmaxn d a b m t => Sys2Proof.Machine.execVmaxn d a b m t s
  | .vabs d a m t => Sys2Proof.Machine.execVabs d a m t s
  | .vneg d a m t => Sys2Proof.Machine.execVneg d a m t s
  | .vadds d a b m t => Sys2Proof.Machine.execVadds d a b m t s
  | .vsubs d a b m t => Sys2Proof.Machine.execVsubs d a b m t s
  | .vaddf d a b m p => Sys2Proof.Machine.execVaddf d a b m p s
  | .vsubf d a b m p => Sys2Proof.Machine.execVsubf d a b m p s
  | .vmulf d a b m p => Sys2Proof.Machine.execVmulf d a b m p s
  | .vdivf d a b m p => Sys2Proof.Machine.execVdivf d a b m p s
  | .vminf d a b m p => Sys2Proof.Machine.execVminf d a b m p s
  | .vmaxf d a b m p => Sys2Proof.Machine.execVmaxf d a b m p s
  | .vabsf d a m p => Sys2Proof.Machine.execVabsf d a m p s
  | .vnegf d a m p => Sys2Proof.Machine.execVnegf d a m p s
  | .vsqrt d a m p => Sys2Proof.Machine.execVsqrt d a m p s
  | .vrcp d a m p => Sys2Proof.Machine.execVrcp d a m p s
  | .vrsq d a m p => Sys2Proof.Machine.execVrsq d a m p s
  | .vexp2 d a m p => Sys2Proof.Machine.execVexp2 d a m p s
  | .vlog2 d a m p => Sys2Proof.Machine.execVlog2 d a m p s
  | .vsinpi d a m p => Sys2Proof.Machine.execVsinpi d a m p s
  | .vcospi d a m p => Sys2Proof.Machine.execVcospi d a m p s
  | .vfloor d a m p => Sys2Proof.Machine.execVfloor d a m p s
  | .vceil d a m p => Sys2Proof.Machine.execVceil d a m p s
  | .vtrunc d a m p => Sys2Proof.Machine.execVtrunc d a m p s
  | .vrint d a m p => Sys2Proof.Machine.execVrint d a m p s
  | .vclass d a m p => Sys2Proof.Machine.execVclass d a m p s
  | .vaddd d a b m => Sys2Proof.Machine.execVaddd d a b m s
  | .vsubd d a b m => Sys2Proof.Machine.execVsubd d a b m s
  | .vmuld d a b m => Sys2Proof.Machine.execVmuld d a b m s
  | .vdivd d a b m => Sys2Proof.Machine.execVdivd d a b m s
  | .vmind d a b m => Sys2Proof.Machine.execVmind d a b m s
  | .vmaxd d a b m => Sys2Proof.Machine.execVmaxd d a b m s
  | .vsqrtd d a m => Sys2Proof.Machine.execVsqrtd d a m s
  | .vfmad d a b m => Sys2Proof.Machine.execVfmad d a b m s
  | .vfma d a b c m => Sys2Proof.Machine.execVfma d a b c m s
  | .vfms d a b c m => Sys2Proof.Machine.execVfms d a b c m s
  | .vfnma d a b c m => Sys2Proof.Machine.execVfnma d a b c m s
  | .vfnms d a b c m => Sys2Proof.Machine.execVfnms d a b c m s
  | .vfmah d a b c m => Sys2Proof.Machine.execVfmah d a b c m s
  | .vdot4i d a b c m => Sys2Proof.Machine.execVdot4i d a b c m s
  | .vdot4n d a b c m => Sys2Proof.Machine.execVdot4n d a b c m s
  | .vdot2bf d a b c m => Sys2Proof.Machine.execVdot2bf d a b c m s
  | .vcmpEq g k a b m => Sys2Proof.Machine.execVcmpEq g k a b m s
  | .vcmpNe g k a b m => Sys2Proof.Machine.execVcmpNe g k a b m s
  | .vcmpLt g k a b m => Sys2Proof.Machine.execVcmpLt g k a b m s
  | .vcmpGe g k a b m => Sys2Proof.Machine.execVcmpGe g k a b m s
  | .vcmpLtu g k a b m => Sys2Proof.Machine.execVcmpLtu g k a b m s
  | .vcmpGeu g k a b m => Sys2Proof.Machine.execVcmpGeu g k a b m s
  | .vcmpFeq g k a b m => Sys2Proof.Machine.execVcmpFeq g k a b m s
  | .vcmpFlt g k a b m => Sys2Proof.Machine.execVcmpFlt g k a b m s
  | .vcmpFle g k a b m => Sys2Proof.Machine.execVcmpFle g k a b m s
  | .vcmpFun g k a b m => Sys2Proof.Machine.execVcmpFun g k a b m s
  | .vsel d a b m => Sys2Proof.Machine.execVsel d a b m s
  | .vbcast d a m => Sys2Proof.Machine.execVbcast d a m s
  | .vins d a b m => Sys2Proof.Machine.execVins d a b m s
  | .vext d a b => Sys2Proof.Machine.execVext d a b s
  | .vperm d a b m => Sys2Proof.Machine.execVperm d a b m s
  | .vshuf d a b m => Sys2Proof.Machine.execVshuf d a b m s
  | .vredaddf d a m => Sys2Proof.Machine.execVredaddf d a m s
  | .vredmaxf d a m => Sys2Proof.Machine.execVredmaxf d a m s
  | .vredminf d a m => Sys2Proof.Machine.execVredminf d a m s
  | .vredaddi d a m => Sys2Proof.Machine.execVredaddi d a m s
  | .vmov d a m => Sys2Proof.Machine.execVmov d a m s
  | .viota d a m => Sys2Proof.Machine.execViota d a m s
  | .vcvt d a m t dst src => Sys2Proof.Machine.execVcvt d a m t dst src s
  | .mzero d g n => Sys2Proof.Machine.execMzero d g n s
  | .mlda d a b g n => Sys2Proof.Machine.execMlda d a b g n s
  | .mldb d a b g n => Sys2Proof.Machine.execMldb d a b g n s
  | .mma d g n => Sys2Proof.Machine.execMma d g n s
  | .mgang d a g n => Sys2Proof.Machine.execMgang d a g n s
  | .mdrain d a b g n => Sys2Proof.Machine.execMdrain d a b g n s
  | .mdrainr d a b g n => Sys2Proof.Machine.execMdrainr d a b g n s
  | .mldcb a b g n => Sys2Proof.Machine.execMldcb a b g n s
  | .mfmt a => Sys2Proof.Machine.execMfmt a s
  | .mstat d => Sys2Proof.Machine.execMstat d s
  | .cpy d a b g n => Sys2Proof.Machine.execCpy d a b g n s
  | .cpyt a g n => Sys2Proof.Machine.execCpyt a g n s
  | .cpym d a b g n => Sys2Proof.Machine.execCpym d a b g n s
  | .cpyb d a b g n => Sys2Proof.Machine.execCpyb d a b g n s
  | .cwait d g n => Sys2Proof.Machine.execCwait d g n s
  | .cpyh d a b g n => Sys2Proof.Machine.execCpyh d a b g n s
  | .halloc d a b => Sys2Proof.Machine.execHalloc d a b s
  | .hfree a => Sys2Proof.Machine.execHfree a s
  | .hpass a b => Sys2Proof.Machine.execHpass a b s
  | .hopen d => Sys2Proof.Machine.execHopen d s
  | .pjoin d a => Sys2Proof.Machine.execPjoin d a s
  | .pleave a => Sys2Proof.Machine.execPleave a s
  | .psize d a => Sys2Proof.Machine.execPsize d a s
  | .prank d a => Sys2Proof.Machine.execPrank d a s
  | .pmask d a => Sys2Proof.Machine.execPmask d a s
  | .minit a b g n => Sys2Proof.Machine.execMinit a b g n s
  | .marrive a b g n => Sys2Proof.Machine.execMarrive a b g n s
  | .mwait d a b g n => Sys2Proof.Machine.execMwait d a b g n s
  | .msync d a g n => Sys2Proof.Machine.execMsync d a g n s
  | .mdebt a b g n => Sys2Proof.Machine.execMdebt a b g n s
  | .forkp d a b g n => Sys2Proof.Machine.execForkp d a b g n s
  | .takep d a b g n => Sys2Proof.Machine.execTakep d a b g n s
  | .ptest d a b g n => Sys2Proof.Machine.execPtest d a b g n s
  | .pnode d a b g n => Sys2Proof.Machine.execPnode d a b g n s
  | .pdone g n => Sys2Proof.Machine.execPdone g n s
  | .topen d a g n => Sys2Proof.Machine.execTopen d a g n s
  | .fork d a b => Sys2Proof.Machine.execFork d a b s
  | .join d a => Sys2Proof.Machine.execJoin d a s
  | .joinall d => Sys2Proof.Machine.execJoinall d s
  | .rdecl d a b => Sys2Proof.Machine.execRdecl d a b s
  | .rstat d a => Sys2Proof.Machine.execRstat d a s
  | .tsend a b => Sys2Proof.Machine.execTsend a b s
  | .trecv d b => Sys2Proof.Machine.execTrecv d b s
  | .rqpush a b => Sys2Proof.Machine.execRqpush a b s
  | .rqpop d => Sys2Proof.Machine.execRqpop d s
  | .yield => Sys2Proof.Machine.execYield s
  | .sleep a b => Sys2Proof.Machine.execSleep a b s
  | .wfe => Sys2Proof.Machine.execWfe s
  | .launch d a => Sys2Proof.Machine.execLaunch d a s
  | .done => Sys2Proof.Machine.execDone s
  | .timer d a => Sys2Proof.Machine.execTimer d a s
  | .migrate a => Sys2Proof.Machine.execMigrate a s
  | .specopen a b => Sys2Proof.Machine.execSpecopen a b s
  | .spectag a => Sys2Proof.Machine.execSpectag a s
  | .speccommit d a b => Sys2Proof.Machine.execSpeccommit d a b s
  | .specabort d a => Sys2Proof.Machine.execSpecabort d a s
  | .kvpos d a b => Sys2Proof.Machine.execKvpos d a b s
  | .kvadv a b => Sys2Proof.Machine.execKvadv a b s
  | .balloc d a b => Sys2Proof.Machine.execBalloc d a b s
  | .bfree a b => Sys2Proof.Machine.execBfree a b s
  | .pxlook d a b => Sys2Proof.Machine.execPxlook d a b s
  | .pxins d a b => Sys2Proof.Machine.execPxins d a b s
  | .specenter a => Sys2Proof.Machine.execSpecenter a s
  | .emitp a g n => Sys2Proof.Machine.execEmitp a g n s
  | .seqwm a g n => Sys2Proof.Machine.execSeqwm a g n s
  | .seqwmHold a g n => Sys2Proof.Machine.execSeqwmHold a g n s
  | .fout a b g n => Sys2Proof.Machine.execFout a b g n s
  | .fquad d b g n => Sys2Proof.Machine.execFquad d b g n s
  | .rframeOpen d a g n => Sys2Proof.Machine.execRframeOpen d a g n s
  | .rframeLift g n => Sys2Proof.Machine.execRframeLift g n s
  | .rframeClose d g n => Sys2Proof.Machine.execRframeClose d g n s
  | .rcvpost a b g n => Sys2Proof.Machine.execRcvpost a b g n s
  | .tsarm d a g n => Sys2Proof.Machine.execTsarm d a g n s
  | .tscan d a g n => Sys2Proof.Machine.execTscan d a g n s
  | .ctrrd d a g n => Sys2Proof.Machine.execCtrrd d a g n s
  | .ctradd a b g n => Sys2Proof.Machine.execCtradd a b g n s
  | .csrr d c => Sys2Proof.Machine.execCsrr d c s
  | .csrw d a c => Sys2Proof.Machine.execCsrw d a c s
  | .csrs d a c => Sys2Proof.Machine.execCsrs d a c s
  | .csrc d a c => Sys2Proof.Machine.execCsrc d a c s
  | .trap a t => Sys2Proof.Machine.execTrap a t s
  | .eret => Sys2Proof.Machine.execEret s
  | .brk => Sys2Proof.Machine.execBrk s
  | .segld sg a => Sys2Proof.Machine.execSegld sg a s
  | .pwr d a => Sys2Proof.Machine.execPwr d a s
  | .fbpop d a => Sys2Proof.Machine.execFbpop d a s
  | .replay a => Sys2Proof.Machine.execReplay a s
  | .tlbinv a b => Sys2Proof.Machine.execTlbinv a b s
  | .pgpin d a => Sys2Proof.Machine.execPgpin d a s
  | .pgunpin d a => Sys2Proof.Machine.execPgunpin d a s
  | .nop => Sys2Proof.Machine.execNop s
  | .movC d sg => Sys2Proof.Machine.execMovC d sg s
  | .vmovC d sg => Sys2Proof.Machine.execVmovC d sg s
  | .addC d sg => Sys2Proof.Machine.execAddC d sg s
  | .vaddC d sg => Sys2Proof.Machine.execVaddC d sg s
  | .subC d sg => Sys2Proof.Machine.execSubC d sg s
  | .vsubC d sg => Sys2Proof.Machine.execVsubC d sg s
  | .andC d sg => Sys2Proof.Machine.execAndC d sg s
  | .vandC d sg => Sys2Proof.Machine.execVandC d sg s
  | .orC d sg => Sys2Proof.Machine.execOrC d sg s
  | .vorC d sg => Sys2Proof.Machine.execVorC d sg s
  | .xorC d sg => Sys2Proof.Machine.execXorC d sg s
  | .vxorC d sg => Sys2Proof.Machine.execVxorC d sg s
  | .addiC d im => Sys2Proof.Machine.execAddiC d im s
  | .li d im => Sys2Proof.Machine.execLi d im s
  | .slliC d h => Sys2Proof.Machine.execSlliC d h s
  | .srliC d h => Sys2Proof.Machine.execSrliC d h s
  | .sraiC d h => Sys2Proof.Machine.execSraiC d h s
  | .ldd d sg => Sys2Proof.Machine.execLdd d sg s
  | .std d sg => Sys2Proof.Machine.execStd d sg s
  | .vaddfF32C d sg => Sys2Proof.Machine.execVaddfF32C d sg s
  | .vaddfF16C d sg => Sys2Proof.Machine.execVaddfF16C d sg s
  | .vmulfF32C d sg => Sys2Proof.Machine.execVmulfF32C d sg s
  | .vmulfF16C d sg => Sys2Proof.Machine.execVmulfF16C d sg s
  | .btC t g => Sys2Proof.Machine.execBtC t g s
  | .btnC t g => Sys2Proof.Machine.execBtnC t g s

end Sys2Proof.Machine
end

