-- ==== Sys2Proof/Machine/RunOp.lean ====
section
/-!
DEFINITION. Running an instruction word: the clear definition goes through the decoder and `exec`; compiled code, which has
no tag for so many constructors with fields, takes the same meanings by the name of the row.
-/

namespace Sys2Proof.Machine

/-- The meaning of the row `op` on the operand fields of a word. -/
def runOpFast (op : Op) (w : Nat) (s : State) : Host.Outcome State Fault Refusal :=
  match op with
  | .add => execAdd (bits w 7 5) (bits w 12 5) (bits w 17 5) s
  | .sub => execSub (bits w 7 5) (bits w 12 5) (bits w 17 5) s
  | .and => execAnd (bits w 7 5) (bits w 12 5) (bits w 17 5) s
  | .or => execOr (bits w 7 5) (bits w 12 5) (bits w 17 5) s
  | .xor => execXor (bits w 7 5) (bits w 12 5) (bits w 17 5) s
  | .andn => execAndn (bits w 7 5) (bits w 12 5) (bits w 17 5) s
  | .orn => execOrn (bits w 7 5) (bits w 12 5) (bits w 17 5) s
  | .sll => execSll (bits w 7 5) (bits w 12 5) (bits w 17 5) s
  | .srl => execSrl (bits w 7 5) (bits w 12 5) (bits w 17 5) s
  | .sra => execSra (bits w 7 5) (bits w 12 5) (bits w 17 5) s
  | .rol => execRol (bits w 7 5) (bits w 12 5) (bits w 17 5) s
  | .ror => execRor (bits w 7 5) (bits w 12 5) (bits w 17 5) s
  | .min => execMin (bits w 7 5) (bits w 12 5) (bits w 17 5) s
  | .max => execMax (bits w 7 5) (bits w 12 5) (bits w 17 5) s
  | .minu => execMinu (bits w 7 5) (bits w 12 5) (bits w 17 5) s
  | .maxu => execMaxu (bits w 7 5) (bits w 12 5) (bits w 17 5) s
  | .addw => execAddw (bits w 7 5) (bits w 12 5) (bits w 17 5) s
  | .subw => execSubw (bits w 7 5) (bits w 12 5) (bits w 17 5) s
  | .sllw => execSllw (bits w 7 5) (bits w 12 5) (bits w 17 5) s
  | .srlw => execSrlw (bits w 7 5) (bits w 12 5) (bits w 17 5) s
  | .sraw => execSraw (bits w 7 5) (bits w 12 5) (bits w 17 5) s
  | .clz => execClz (bits w 7 5) (bits w 12 5) s
  | .ctz => execCtz (bits w 7 5) (bits w 12 5) s
  | .popc => execPopc (bits w 7 5) (bits w 12 5) s
  | .brev => execBrev (bits w 7 5) (bits w 12 5) s
  | .bswap => execBswap (bits w 7 5) (bits w 12 5) s
  | .sext => execSext (bits w 7 5) (bits w 12 5) (bits w 17 5) s
  | .zext => execZext (bits w 7 5) (bits w 12 5) (bits w 17 5) s
  | .lea => execLea (bits w 7 5) (bits w 12 5) (bits w 17 5) (bits w 22 3) s
  | .mul => execMul (bits w 7 5) (bits w 12 5) (bits w 17 5) s
  | .mulh => execMulh (bits w 7 5) (bits w 12 5) (bits w 17 5) s
  | .mulhu => execMulhu (bits w 7 5) (bits w 12 5) (bits w 17 5) s
  | .mulhsu => execMulhsu (bits w 7 5) (bits w 12 5) (bits w 17 5) s
  | .div => execDiv (bits w 7 5) (bits w 12 5) (bits w 17 5) s
  | .divu => execDivu (bits w 7 5) (bits w 12 5) (bits w 17 5) s
  | .rem => execRem (bits w 7 5) (bits w 12 5) (bits w 17 5) s
  | .remu => execRemu (bits w 7 5) (bits w 12 5) (bits w 17 5) s
  | .mulw => execMulw (bits w 7 5) (bits w 12 5) (bits w 17 5) s
  | .divw => execDivw (bits w 7 5) (bits w 12 5) (bits w 17 5) s
  | .divuw => execDivuw (bits w 7 5) (bits w 12 5) (bits w 17 5) s
  | .remw => execRemw (bits w 7 5) (bits w 12 5) (bits w 17 5) s
  | .remuw => execRemuw (bits w 7 5) (bits w 12 5) (bits w 17 5) s
  | .addi => execAddi (bits w 7 5) (bits w 12 5) (bits w 17 15) s
  | .andi => execAndi (bits w 7 5) (bits w 12 5) (bits w 17 15) s
  | .ori => execOri (bits w 7 5) (bits w 12 5) (bits w 17 15) s
  | .xori => execXori (bits w 7 5) (bits w 12 5) (bits w 17 15) s
  | .slli => execSlli (bits w 7 5) (bits w 12 5) (bits w 17 6) s
  | .srli => execSrli (bits w 7 5) (bits w 12 5) (bits w 17 6) s
  | .srai => execSrai (bits w 7 5) (bits w 12 5) (bits w 17 6) s
  | .rori => execRori (bits w 7 5) (bits w 12 5) (bits w 17 6) s
  | .slliw => execSlliw (bits w 7 5) (bits w 12 5) (bits w 17 5) s
  | .srliw => execSrliw (bits w 7 5) (bits w 12 5) (bits w 17 5) s
  | .sraiw => execSraiw (bits w 7 5) (bits w 12 5) (bits w 17 5) s
  | .bext => execBext (bits w 7 5) (bits w 12 5) (bits w 17 6) (bits w 23 6) s
  | .bexts => execBexts (bits w 7 5) (bits w 12 5) (bits w 17 6) (bits w 23 6) s
  | .bins => execBins (bits w 7 5) (bits w 12 5) (bits w 17 6) (bits w 23 6) s
  | .lui => execLui (bits w 7 5) (bits w 12 20) s
  | .addpc => execAddpc (bits w 7 5) (bits w 12 20) s
  | .cmpEq => execCmpEq (bits w 7 3) (bits w 10 2) (bits w 12 5) (bits w 17 5) s
  | .cmpNe => execCmpNe (bits w 7 3) (bits w 10 2) (bits w 12 5) (bits w 17 5) s
  | .cmpLt => execCmpLt (bits w 7 3) (bits w 10 2) (bits w 12 5) (bits w 17 5) s
  | .cmpGe => execCmpGe (bits w 7 3) (bits w 10 2) (bits w 12 5) (bits w 17 5) s
  | .cmpLtu => execCmpLtu (bits w 7 3) (bits w 10 2) (bits w 12 5) (bits w 17 5) s
  | .cmpGeu => execCmpGeu (bits w 7 3) (bits w 10 2) (bits w 12 5) (bits w 17 5) s
  | .cmpTst => execCmpTst (bits w 7 3) (bits w 10 2) (bits w 12 5) (bits w 17 5) s
  | .cmpTstz => execCmpTstz (bits w 7 3) (bits w 10 2) (bits w 12 5) (bits w 17 5) s
  | .cmpFeqS => execCmpFeqS (bits w 7 3) (bits w 10 2) (bits w 12 5) (bits w 17 5) s
  | .cmpFltS => execCmpFltS (bits w 7 3) (bits w 10 2) (bits w 12 5) (bits w 17 5) s
  | .cmpFleS => execCmpFleS (bits w 7 3) (bits w 10 2) (bits w 12 5) (bits w 17 5) s
  | .cmpFunS => execCmpFunS (bits w 7 3) (bits w 10 2) (bits w 12 5) (bits w 17 5) s
  | .cmpFeqD => execCmpFeqD (bits w 7 3) (bits w 10 2) (bits w 12 5) (bits w 17 5) s
  | .cmpFltD => execCmpFltD (bits w 7 3) (bits w 10 2) (bits w 12 5) (bits w 17 5) s
  | .cmpFleD => execCmpFleD (bits w 7 3) (bits w 10 2) (bits w 12 5) (bits w 17 5) s
  | .cmpFunD => execCmpFunD (bits w 7 3) (bits w 10 2) (bits w 12 5) (bits w 17 5) s
  | .cmpiEq => execCmpiEq (bits w 7 3) (bits w 10 2) (bits w 12 5) (bits w 17 12) s
  | .cmpiNe => execCmpiNe (bits w 7 3) (bits w 10 2) (bits w 12 5) (bits w 17 12) s
  | .cmpiLt => execCmpiLt (bits w 7 3) (bits w 10 2) (bits w 12 5) (bits w 17 12) s
  | .cmpiGe => execCmpiGe (bits w 7 3) (bits w 10 2) (bits w 12 5) (bits w 17 12) s
  | .cmpiLtu => execCmpiLtu (bits w 7 3) (bits w 10 2) (bits w 12 5) (bits w 17 12) s
  | .cmpiGeu => execCmpiGeu (bits w 7 3) (bits w 10 2) (bits w 12 5) (bits w 17 12) s
  | .cmpiTst => execCmpiTst (bits w 7 3) (bits w 10 2) (bits w 12 5) (bits w 17 12) s
  | .cmpiTstz => execCmpiTstz (bits w 7 3) (bits w 10 2) (bits w 12 5) (bits w 17 12) s
  | .gand => execGand (bits w 7 3) (bits w 12 3) (bits w 17 3) s
  | .gor => execGor (bits w 7 3) (bits w 12 3) (bits w 17 3) s
  | .gxor => execGxor (bits w 7 3) (bits w 12 3) (bits w 17 3) s
  | .gandn => execGandn (bits w 7 3) (bits w 12 3) (bits w 17 3) s
  | .gnot => execGnot (bits w 7 3) (bits w 12 3) s
  | .gset => execGset (bits w 7 3) (bits w 12 5) s
  | .gget => execGget (bits w 7 5) (bits w 12 3) s
  | .gwait => execGwait (bits w 12 3) s
  | .sel => execSel (bits w 7 5) (bits w 12 5) (bits w 17 5) (bits w 22 3) s
  | .fmaddS => execFmaddS (bits w 7 5) (bits w 12 5) (bits w 17 5) (bits w 22 5) s
  | .fmsubS => execFmsubS (bits w 7 5) (bits w 12 5) (bits w 17 5) (bits w 22 5) s
  | .fnmaddS => execFnmaddS (bits w 7 5) (bits w 12 5) (bits w 17 5) (bits w 22 5) s
  | .fnmsubS => execFnmsubS (bits w 7 5) (bits w 12 5) (bits w 17 5) (bits w 22 5) s
  | .fmaddD => execFmaddD (bits w 7 5) (bits w 12 5) (bits w 17 5) (bits w 22 5) s
  | .fmsubD => execFmsubD (bits w 7 5) (bits w 12 5) (bits w 17 5) (bits w 22 5) s
  | .fnmaddD => execFnmaddD (bits w 7 5) (bits w 12 5) (bits w 17 5) (bits w 22 5) s
  | .fnmsubD => execFnmsubD (bits w 7 5) (bits w 12 5) (bits w 17 5) (bits w 22 5) s
  | .faddS => execFaddS (bits w 7 5) (bits w 12 5) (bits w 17 5) s
  | .fsubS => execFsubS (bits w 7 5) (bits w 12 5) (bits w 17 5) s
  | .fmulS => execFmulS (bits w 7 5) (bits w 12 5) (bits w 17 5) s
  | .fdivS => execFdivS (bits w 7 5) (bits w 12 5) (bits w 17 5) s
  | .fsqrtS => execFsqrtS (bits w 7 5) (bits w 12 5) s
  | .fminS => execFminS (bits w 7 5) (bits w 12 5) (bits w 17 5) s
  | .fmaxS => execFmaxS (bits w 7 5) (bits w 12 5) (bits w 17 5) s
  | .fsgnjS => execFsgnjS (bits w 7 5) (bits w 12 5) (bits w 17 5) s
  | .fsgnjnS => execFsgnjnS (bits w 7 5) (bits w 12 5) (bits w 17 5) s
  | .fsgnjxS => execFsgnjxS (bits w 7 5) (bits w 12 5) (bits w 17 5) s
  | .fclassS => execFclassS (bits w 7 5) (bits w 12 5) s
  | .faddD => execFaddD (bits w 7 5) (bits w 12 5) (bits w 17 5) s
  | .fsubD => execFsubD (bits w 7 5) (bits w 12 5) (bits w 17 5) s
  | .fmulD => execFmulD (bits w 7 5) (bits w 12 5) (bits w 17 5) s
  | .fdivD => execFdivD (bits w 7 5) (bits w 12 5) (bits w 17 5) s
  | .fsqrtD => execFsqrtD (bits w 7 5) (bits w 12 5) s
  | .fminD => execFminD (bits w 7 5) (bits w 12 5) (bits w 17 5) s
  | .fmaxD => execFmaxD (bits w 7 5) (bits w 12 5) (bits w 17 5) s
  | .fsgnjD => execFsgnjD (bits w 7 5) (bits w 12 5) (bits w 17 5) s
  | .fsgnjnD => execFsgnjnD (bits w 7 5) (bits w 12 5) (bits w 17 5) s
  | .fsgnjxD => execFsgnjxD (bits w 7 5) (bits w 12 5) (bits w 17 5) s
  | .fclassD => execFclassD (bits w 7 5) (bits w 12 5) s
  | .fcvtDS => execFcvtDS (bits w 7 5) (bits w 12 5) s
  | .fcvtSD => execFcvtSD (bits w 7 5) (bits w 12 5) s
  | .fcvtSH => execFcvtSH (bits w 7 5) (bits w 12 5) s
  | .fcvtHS => execFcvtHS (bits w 7 5) (bits w 12 5) s
  | .fcvtSB => execFcvtSB (bits w 7 5) (bits w 12 5) s
  | .fcvtBS => execFcvtBS (bits w 7 5) (bits w 12 5) s
  | .fcvtDH => execFcvtDH (bits w 7 5) (bits w 12 5) s
  | .fcvtHD => execFcvtHD (bits w 7 5) (bits w 12 5) s
  | .fcvtWS => execFcvtWS (bits w 7 5) (bits w 12 5) s
  | .fcvtWuS => execFcvtWuS (bits w 7 5) (bits w 12 5) s
  | .fcvtLS => execFcvtLS (bits w 7 5) (bits w 12 5) s
  | .fcvtLuS => execFcvtLuS (bits w 7 5) (bits w 12 5) s
  | .fcvtWD => execFcvtWD (bits w 7 5) (bits w 12 5) s
  | .fcvtWuD => execFcvtWuD (bits w 7 5) (bits w 12 5) s
  | .fcvtLD => execFcvtLD (bits w 7 5) (bits w 12 5) s
  | .fcvtLuD => execFcvtLuD (bits w 7 5) (bits w 12 5) s
  | .fcvtWSSat => execFcvtWSSat (bits w 7 5) (bits w 12 5) s
  | .fcvtWuSSat => execFcvtWuSSat (bits w 7 5) (bits w 12 5) s
  | .fcvtLSSat => execFcvtLSSat (bits w 7 5) (bits w 12 5) s
  | .fcvtLuSSat => execFcvtLuSSat (bits w 7 5) (bits w 12 5) s
  | .fcvtWDSat => execFcvtWDSat (bits w 7 5) (bits w 12 5) s
  | .fcvtWuDSat => execFcvtWuDSat (bits w 7 5) (bits w 12 5) s
  | .fcvtLDSat => execFcvtLDSat (bits w 7 5) (bits w 12 5) s
  | .fcvtLuDSat => execFcvtLuDSat (bits w 7 5) (bits w 12 5) s
  | .fcvtSW => execFcvtSW (bits w 7 5) (bits w 12 5) s
  | .fcvtSWu => execFcvtSWu (bits w 7 5) (bits w 12 5) s
  | .fcvtSL => execFcvtSL (bits w 7 5) (bits w 12 5) s
  | .fcvtSLu => execFcvtSLu (bits w 7 5) (bits w 12 5) s
  | .fcvtDW => execFcvtDW (bits w 7 5) (bits w 12 5) s
  | .fcvtDWu => execFcvtDWu (bits w 7 5) (bits w 12 5) s
  | .fcvtDL => execFcvtDL (bits w 7 5) (bits w 12 5) s
  | .fcvtDLu => execFcvtDLu (bits w 7 5) (bits w 12 5) s
  | .bcEq => execBcEq (bits w 7 5) (bits w 12 5) (bits w 20 12) s
  | .bcNe => execBcNe (bits w 7 5) (bits w 12 5) (bits w 20 12) s
  | .bcLt => execBcLt (bits w 7 5) (bits w 12 5) (bits w 20 12) s
  | .bcGe => execBcGe (bits w 7 5) (bits w 12 5) (bits w 20 12) s
  | .bcLtu => execBcLtu (bits w 7 5) (bits w 12 5) (bits w 20 12) s
  | .bcGeu => execBcGeu (bits w 7 5) (bits w 12 5) (bits w 20 12) s
  | .jal => execJal (bits w 7 5) (bits w 12 20) s
  | .jalr => execJalr (bits w 7 5) (bits w 12 5) (bits w 17 15) s
  | .ptb => execPtb (bits w 7 2) (bits w 12 20) s
  | .bt => execBt (bits w 7 2) (bits w 12 3) s
  | .btn => execBtn (bits w 7 2) (bits w 12 3) s
  | .bta => execBta (bits w 7 2) s
  | .ptbr => execPtbr (bits w 7 2) (bits w 12 5) s
  | .callt => execCallt (bits w 7 5) (bits w 12 2) s
  | .ldB => execLdB (bits w 7 5) (bits w 12 5) (bits w 17 3) (bits w 23 9) s
  | .ldBu => execLdBu (bits w 7 5) (bits w 12 5) (bits w 17 3) (bits w 23 9) s
  | .ldH => execLdH (bits w 7 5) (bits w 12 5) (bits w 17 3) (bits w 23 9) s
  | .ldHu => execLdHu (bits w 7 5) (bits w 12 5) (bits w 17 3) (bits w 23 9) s
  | .ldW => execLdW (bits w 7 5) (bits w 12 5) (bits w 17 3) (bits w 23 9) s
  | .ldWu => execLdWu (bits w 7 5) (bits w 12 5) (bits w 17 3) (bits w 23 9) s
  | .ldD => execLdD (bits w 7 5) (bits w 12 5) (bits w 17 3) (bits w 23 9) s
  | .st => execSt (bits w 7 5) (bits w 12 5) (bits w 17 3) (bits w 20 2) (bits w 23 9) s
  | .ldsK => execLdsK (bits w 7 5) (bits w 12 5) (bits w 17 3) (bits w 21 1) (bits w 23 9) s
  | .ldsC => execLdsC (bits w 7 5) (bits w 12 5) (bits w 17 3) (bits w 21 1) (bits w 23 9) s
  | .stf => execStf (bits w 7 5) (bits w 12 5) (bits w 17 3) (bits w 21 1) (bits w 23 9) s
  | .stfE => execStfE (bits w 7 5) (bits w 12 5) (bits w 17 3) (bits w 21 1) (bits w 23 9) s
  | .feset => execFeset (bits w 12 5) (bits w 17 3) s
  | .feclr => execFeclr (bits w 12 5) (bits w 17 3) s
  | .fetest => execFetest (bits w 7 5) (bits w 12 5) (bits w 17 3) s
  | .fewait => execFewait (bits w 12 5) (bits w 17 3) s
  | .ldv => execLdv (bits w 7 5) (bits w 12 5) (bits w 17 3) (bits w 23 9) s
  | .stv => execStv (bits w 7 5) (bits w 12 5) (bits w 17 3) (bits w 23 9) s
  | .ldvs => execLdvs (bits w 7 5) (bits w 12 5) (bits w 17 3) (bits w 23 9) s
  | .stvf => execStvf (bits w 7 5) (bits w 12 5) (bits w 17 3) (bits w 23 9) s
  | .ldvh => execLdvh (bits w 7 5) (bits w 12 5) (bits w 17 3) (bits w 23 9) s
  | .stvh => execStvh (bits w 7 5) (bits w 12 5) (bits w 17 3) (bits w 23 9) s
  | .ldvb => execLdvb (bits w 7 5) (bits w 12 5) (bits w 17 3) (bits w 23 9) s
  | .ldx => execLdx (bits w 7 5) (bits w 12 5) (bits w 17 3) (bits w 22 3) (bits w 25 1) s
  | .ldxb => execLdxb (bits w 7 5) (bits w 12 5) (bits w 17 3) (bits w 22 3) (bits w 25 1) s
  | .stblk => execStblk (bits w 9 3) (bits w 12 5) (bits w 17 3) (bits w 22 3) (bits w 25 1) s
  | .pref => execPref (bits w 12 5) (bits w 17 3) (bits w 22 3) (bits w 25 1) s
  | .amsend => execAmsend (bits w 7 5) (bits w 12 5) (bits w 18 4) (bits w 22 3) (bits w 25 1) s
  | .amret => execAmret (bits w 12 5) (bits w 22 3) (bits w 25 1) s
  | .rfetch => execRfetch (bits w 7 5) (bits w 12 5) (bits w 18 4) (bits w 22 3) (bits w 25 1) s
  | .atomAdd => execAtomAdd (bits w 7 5) (bits w 12 5) (bits w 17 5) (bits w 22 5) (bits w 27 2) s
  | .atomAnd => execAtomAnd (bits w 7 5) (bits w 12 5) (bits w 17 5) (bits w 22 5) (bits w 27 2) s
  | .atomOr => execAtomOr (bits w 7 5) (bits w 12 5) (bits w 17 5) (bits w 22 5) (bits w 27 2) s
  | .atomXor => execAtomXor (bits w 7 5) (bits w 12 5) (bits w 17 5) (bits w 22 5) (bits w 27 2) s
  | .atomXchg => execAtomXchg (bits w 7 5) (bits w 12 5) (bits w 17 5) (bits w 22 5) (bits w 27 2) s
  | .atomMin => execAtomMin (bits w 7 5) (bits w 12 5) (bits w 17 5) (bits w 22 5) (bits w 27 2) s
  | .atomMax => execAtomMax (bits w 7 5) (bits w 12 5) (bits w 17 5) (bits w 22 5) (bits w 27 2) s
  | .atomCas => execAtomCas (bits w 7 5) (bits w 12 5) (bits w 18 4) (bits w 22 5) (bits w 27 2) s
  | .atomwAdd => execAtomwAdd (bits w 7 5) (bits w 12 5) (bits w 17 5) (bits w 22 5) (bits w 27 2) s
  | .atomwAnd => execAtomwAnd (bits w 7 5) (bits w 12 5) (bits w 17 5) (bits w 22 5) (bits w 27 2) s
  | .atomwOr => execAtomwOr (bits w 7 5) (bits w 12 5) (bits w 17 5) (bits w 22 5) (bits w 27 2) s
  | .atomwXor => execAtomwXor (bits w 7 5) (bits w 12 5) (bits w 17 5) (bits w 22 5) (bits w 27 2) s
  | .atomwXchg => execAtomwXchg (bits w 7 5) (bits w 12 5) (bits w 17 5) (bits w 22 5) (bits w 27 2) s
  | .atomwMin => execAtomwMin (bits w 7 5) (bits w 12 5) (bits w 17 5) (bits w 22 5) (bits w 27 2) s
  | .atomwMax => execAtomwMax (bits w 7 5) (bits w 12 5) (bits w 17 5) (bits w 22 5) (bits w 27 2) s
  | .atomwCas => execAtomwCas (bits w 7 5) (bits w 12 5) (bits w 18 4) (bits w 22 5) (bits w 27 2) s
  | .atomxMinu => execAtomxMinu (bits w 7 5) (bits w 12 5) (bits w 17 5) (bits w 22 5) (bits w 27 2) s
  | .atomxMaxu => execAtomxMaxu (bits w 7 5) (bits w 12 5) (bits w 17 5) (bits w 22 5) (bits w 27 2) s
  | .atomxFminS => execAtomxFminS (bits w 7 5) (bits w 12 5) (bits w 17 5) (bits w 22 5) (bits w 27 2) s
  | .atomxFmaxS => execAtomxFmaxS (bits w 7 5) (bits w 12 5) (bits w 17 5) (bits w 22 5) (bits w 27 2) s
  | .atomxFminD => execAtomxFminD (bits w 7 5) (bits w 12 5) (bits w 17 5) (bits w 22 5) (bits w 27 2) s
  | .atomxFmaxD => execAtomxFmaxD (bits w 7 5) (bits w 12 5) (bits w 17 5) (bits w 22 5) (bits w 27 2) s
  | .xset => execXset (bits w 12 5) (bits w 17 5) s
  | .xaddS => execXaddS (bits w 12 5) (bits w 17 5) s
  | .xaddD => execXaddD (bits w 12 5) (bits w 17 5) s
  | .xaddB => execXaddB (bits w 12 5) (bits w 17 5) (bits w 22 5) s
  | .xrdS => execXrdS (bits w 7 5) (bits w 12 5) s
  | .xrdD => execXrdD (bits w 7 5) (bits w 12 5) s
  | .xmaxe => execXmaxe (bits w 7 5) (bits w 12 5) (bits w 17 5) s
  | .fenceAcq => execFenceAcq (bits w 12 5) s
  | .fenceRel => execFenceRel (bits w 12 5) s
  | .fenceAr => execFenceAr (bits w 12 5) s
  | .vadd => execVadd (bits w 7 5) (bits w 12 5) (bits w 17 5) (bits w 22 3) (bits w 25 2) s
  | .vsub => execVsub (bits w 7 5) (bits w 12 5) (bits w 17 5) (bits w 22 3) (bits w 25 2) s
  | .vmul => execVmul (bits w 7 5) (bits w 12 5) (bits w 17 5) (bits w 22 3) (bits w 25 2) s
  | .vmulh => execVmulh (bits w 7 5) (bits w 12 5) (bits w 17 5) (bits w 22 3) (bits w 25 2) s
  | .vmulhn => execVmulhn (bits w 7 5) (bits w 12 5) (bits w 17 5) (bits w 22 3) (bits w 25 2) s
  | .vand => execVand (bits w 7 5) (bits w 12 5) (bits w 17 5) (bits w 22 3) (bits w 25 2) s
  | .vor => execVor (bits w 7 5) (bits w 12 5) (bits w 17 5) (bits w 22 3) (bits w 25 2) s
  | .vxor => execVxor (bits w 7 5) (bits w 12 5) (bits w 17 5) (bits w 22 3) (bits w 25 2) s
  | .vandn => execVandn (bits w 7 5) (bits w 12 5) (bits w 17 5) (bits w 22 3) (bits w 25 2) s
  | .vshl => execVshl (bits w 7 5) (bits w 12 5) (bits w 17 5) (bits w 22 3) (bits w 25 2) s
  | .vshr => execVshr (bits w 7 5) (bits w 12 5) (bits w 17 5) (bits w 22 3) (bits w 25 2) s
  | .vsra => execVsra (bits w 7 5) (bits w 12 5) (bits w 17 5) (bits w 22 3) (bits w 25 2) s
  | .vmin => execVmin (bits w 7 5) (bits w 12 5) (bits w 17 5) (bits w 22 3) (bits w 25 2) s
  | .vmax => execVmax (bits w 7 5) (bits w 12 5) (bits w 17 5) (bits w 22 3) (bits w 25 2) s
  | .vminn => execVminn (bits w 7 5) (bits w 12 5) (bits w 17 5) (bits w 22 3) (bits w 25 2) s
  | .vmaxn => execVmaxn (bits w 7 5) (bits w 12 5) (bits w 17 5) (bits w 22 3) (bits w 25 2) s
  | .vabs => execVabs (bits w 7 5) (bits w 12 5) (bits w 22 3) (bits w 25 2) s
  | .vneg => execVneg (bits w 7 5) (bits w 12 5) (bits w 22 3) (bits w 25 2) s
  | .vadds => execVadds (bits w 7 5) (bits w 12 5) (bits w 17 5) (bits w 22 3) (bits w 25 2) s
  | .vsubs => execVsubs (bits w 7 5) (bits w 12 5) (bits w 17 5) (bits w 22 3) (bits w 25 2) s
  | .vaddf => execVaddf (bits w 7 5) (bits w 12 5) (bits w 17 5) (bits w 22 3) (bits w 25 1) s
  | .vsubf => execVsubf (bits w 7 5) (bits w 12 5) (bits w 17 5) (bits w 22 3) (bits w 25 1) s
  | .vmulf => execVmulf (bits w 7 5) (bits w 12 5) (bits w 17 5) (bits w 22 3) (bits w 25 1) s
  | .vdivf => execVdivf (bits w 7 5) (bits w 12 5) (bits w 17 5) (bits w 22 3) (bits w 25 1) s
  | .vminf => execVminf (bits w 7 5) (bits w 12 5) (bits w 17 5) (bits w 22 3) (bits w 25 1) s
  | .vmaxf => execVmaxf (bits w 7 5) (bits w 12 5) (bits w 17 5) (bits w 22 3) (bits w 25 1) s
  | .vabsf => execVabsf (bits w 7 5) (bits w 12 5) (bits w 22 3) (bits w 25 1) s
  | .vnegf => execVnegf (bits w 7 5) (bits w 12 5) (bits w 22 3) (bits w 25 1) s
  | .vsqrt => execVsqrt (bits w 7 5) (bits w 12 5) (bits w 22 3) (bits w 25 1) s
  | .vrcp => execVrcp (bits w 7 5) (bits w 12 5) (bits w 22 3) (bits w 25 1) s
  | .vrsq => execVrsq (bits w 7 5) (bits w 12 5) (bits w 22 3) (bits w 25 1) s
  | .vexp2 => execVexp2 (bits w 7 5) (bits w 12 5) (bits w 22 3) (bits w 25 1) s
  | .vlog2 => execVlog2 (bits w 7 5) (bits w 12 5) (bits w 22 3) (bits w 25 1) s
  | .vsinpi => execVsinpi (bits w 7 5) (bits w 12 5) (bits w 22 3) (bits w 25 1) s
  | .vcospi => execVcospi (bits w 7 5) (bits w 12 5) (bits w 22 3) (bits w 25 1) s
  | .vfloor => execVfloor (bits w 7 5) (bits w 12 5) (bits w 22 3) (bits w 25 1) s
  | .vceil => execVceil (bits w 7 5) (bits w 12 5) (bits w 22 3) (bits w 25 1) s
  | .vtrunc => execVtrunc (bits w 7 5) (bits w 12 5) (bits w 22 3) (bits w 25 1) s
  | .vrint => execVrint (bits w 7 5) (bits w 12 5) (bits w 22 3) (bits w 25 1) s
  | .vclass => execVclass (bits w 7 5) (bits w 12 5) (bits w 22 3) (bits w 25 1) s
  | .vaddd => execVaddd (bits w 7 5) (bits w 12 5) (bits w 17 5) (bits w 22 3) s
  | .vsubd => execVsubd (bits w 7 5) (bits w 12 5) (bits w 17 5) (bits w 22 3) s
  | .vmuld => execVmuld (bits w 7 5) (bits w 12 5) (bits w 17 5) (bits w 22 3) s
  | .vdivd => execVdivd (bits w 7 5) (bits w 12 5) (bits w 17 5) (bits w 22 3) s
  | .vmind => execVmind (bits w 7 5) (bits w 12 5) (bits w 17 5) (bits w 22 3) s
  | .vmaxd => execVmaxd (bits w 7 5) (bits w 12 5) (bits w 17 5) (bits w 22 3) s
  | .vsqrtd => execVsqrtd (bits w 7 5) (bits w 12 5) (bits w 22 3) s
  | .vfmad => execVfmad (bits w 7 5) (bits w 12 5) (bits w 17 5) (bits w 22 3) s
  | .vfma => execVfma (bits w 7 5) (bits w 12 5) (bits w 17 5) (bits w 22 5) (bits w 27 3) s
  | .vfms => execVfms (bits w 7 5) (bits w 12 5) (bits w 17 5) (bits w 22 5) (bits w 27 3) s
  | .vfnma => execVfnma (bits w 7 5) (bits w 12 5) (bits w 17 5) (bits w 22 5) (bits w 27 3) s
  | .vfnms => execVfnms (bits w 7 5) (bits w 12 5) (bits w 17 5) (bits w 22 5) (bits w 27 3) s
  | .vfmah => execVfmah (bits w 7 5) (bits w 12 5) (bits w 17 5) (bits w 22 5) (bits w 27 3) s
  | .vdot4i => execVdot4i (bits w 7 5) (bits w 12 5) (bits w 17 5) (bits w 22 5) (bits w 27 3) s
  | .vdot4n => execVdot4n (bits w 7 5) (bits w 12 5) (bits w 17 5) (bits w 22 5) (bits w 27 3) s
  | .vdot2bf => execVdot2bf (bits w 7 5) (bits w 12 5) (bits w 17 5) (bits w 22 5) (bits w 27 3) s
  | .vcmpEq => execVcmpEq (bits w 7 3) (bits w 10 2) (bits w 12 5) (bits w 17 5) (bits w 22 3) s
  | .vcmpNe => execVcmpNe (bits w 7 3) (bits w 10 2) (bits w 12 5) (bits w 17 5) (bits w 22 3) s
  | .vcmpLt => execVcmpLt (bits w 7 3) (bits w 10 2) (bits w 12 5) (bits w 17 5) (bits w 22 3) s
  | .vcmpGe => execVcmpGe (bits w 7 3) (bits w 10 2) (bits w 12 5) (bits w 17 5) (bits w 22 3) s
  | .vcmpLtu => execVcmpLtu (bits w 7 3) (bits w 10 2) (bits w 12 5) (bits w 17 5) (bits w 22 3) s
  | .vcmpGeu => execVcmpGeu (bits w 7 3) (bits w 10 2) (bits w 12 5) (bits w 17 5) (bits w 22 3) s
  | .vcmpFeq => execVcmpFeq (bits w 7 3) (bits w 10 2) (bits w 12 5) (bits w 17 5) (bits w 22 3) s
  | .vcmpFlt => execVcmpFlt (bits w 7 3) (bits w 10 2) (bits w 12 5) (bits w 17 5) (bits w 22 3) s
  | .vcmpFle => execVcmpFle (bits w 7 3) (bits w 10 2) (bits w 12 5) (bits w 17 5) (bits w 22 3) s
  | .vcmpFun => execVcmpFun (bits w 7 3) (bits w 10 2) (bits w 12 5) (bits w 17 5) (bits w 22 3) s
  | .vsel => execVsel (bits w 7 5) (bits w 12 5) (bits w 17 5) (bits w 22 3) s
  | .vbcast => execVbcast (bits w 7 5) (bits w 12 5) (bits w 22 3) s
  | .vins => execVins (bits w 7 5) (bits w 12 5) (bits w 17 5) (bits w 22 3) s
  | .vext => execVext (bits w 7 5) (bits w 12 5) (bits w 17 5) s
  | .vperm => execVperm (bits w 7 5) (bits w 12 5) (bits w 17 5) (bits w 22 3) s
  | .vshuf => execVshuf (bits w 7 5) (bits w 12 5) (bits w 17 5) (bits w 22 3) s
  | .vredaddf => execVredaddf (bits w 7 5) (bits w 12 5) (bits w 22 3) s
  | .vredmaxf => execVredmaxf (bits w 7 5) (bits w 12 5) (bits w 22 3) s
  | .vredminf => execVredminf (bits w 7 5) (bits w 12 5) (bits w 22 3) s
  | .vredaddi => execVredaddi (bits w 7 5) (bits w 12 5) (bits w 22 3) s
  | .vmov => execVmov (bits w 7 5) (bits w 12 5) (bits w 22 3) s
  | .viota => execViota (bits w 7 5) (bits w 12 5) (bits w 22 3) s
  | .vcvt => execVcvt (bits w 7 5) (bits w 12 5) (bits w 22 3) (bits w 25 1) (bits w 26 3) (bits w 29 3) s
  | .mzero => execMzero (bits w 7 2) (bits w 22 3) (bits w 25 1) s
  | .mlda => execMlda (bits w 7 5) (bits w 12 5) (bits w 17 5) (bits w 22 3) (bits w 25 1) s
  | .mldb => execMldb (bits w 7 5) (bits w 12 5) (bits w 17 5) (bits w 22 3) (bits w 25 1) s
  | .mma => execMma (bits w 7 2) (bits w 22 3) (bits w 25 1) s
  | .mgang => execMgang (bits w 7 2) (bits w 12 5) (bits w 22 3) (bits w 25 1) s
  | .mdrain => execMdrain (bits w 7 3) (bits w 12 2) (bits w 17 5) (bits w 22 3) (bits w 25 1) s
  | .mdrainr => execMdrainr (bits w 7 3) (bits w 12 2) (bits w 18 4) (bits w 22 3) (bits w 25 1) s
  | .mldcb => execMldcb (bits w 12 5) (bits w 17 5) (bits w 22 3) (bits w 25 1) s
  | .mfmt => execMfmt (bits w 12 5) s
  | .mstat => execMstat (bits w 7 5) s
  | .cpy => execCpy (bits w 7 5) (bits w 12 5) (bits w 17 5) (bits w 22 3) (bits w 25 1) s
  | .cpyt => execCpyt (bits w 12 5) (bits w 22 3) (bits w 25 1) s
  | .cpym => execCpym (bits w 7 5) (bits w 12 5) (bits w 17 5) (bits w 22 3) (bits w 25 1) s
  | .cpyb => execCpyb (bits w 7 5) (bits w 12 5) (bits w 18 4) (bits w 22 3) (bits w 25 1) s
  | .cwait => execCwait (bits w 7 3) (bits w 22 3) (bits w 25 1) s
  | .cpyh => execCpyh (bits w 7 5) (bits w 12 5) (bits w 17 5) (bits w 22 3) (bits w 25 1) s
  | .halloc => execHalloc (bits w 7 5) (bits w 12 5) (bits w 17 5) s
  | .hfree => execHfree (bits w 12 5) s
  | .hpass => execHpass (bits w 12 5) (bits w 17 5) s
  | .hopen => execHopen (bits w 7 5) s
  | .pjoin => execPjoin (bits w 7 5) (bits w 12 5) s
  | .pleave => execPleave (bits w 12 5) s
  | .psize => execPsize (bits w 7 5) (bits w 12 5) s
  | .prank => execPrank (bits w 7 5) (bits w 12 5) s
  | .pmask => execPmask (bits w 7 5) (bits w 12 5) s
  | .minit => execMinit (bits w 12 5) (bits w 17 5) (bits w 22 3) (bits w 25 1) s
  | .marrive => execMarrive (bits w 12 5) (bits w 17 5) (bits w 22 3) (bits w 25 1) s
  | .mwait => execMwait (bits w 7 3) (bits w 12 5) (bits w 17 5) (bits w 22 3) (bits w 25 1) s
  | .msync => execMsync (bits w 7 3) (bits w 12 5) (bits w 22 3) (bits w 25 1) s
  | .mdebt => execMdebt (bits w 12 5) (bits w 17 5) (bits w 22 3) (bits w 25 1) s
  | .forkp => execForkp (bits w 7 3) (bits w 12 5) (bits w 18 4) (bits w 22 3) (bits w 25 1) s
  | .takep => execTakep (bits w 9 3) (bits w 12 5) (bits w 17 3) (bits w 22 3) (bits w 25 1) s
  | .ptest => execPtest (bits w 7 3) (bits w 12 5) (bits w 18 4) (bits w 22 3) (bits w 25 1) s
  | .pnode => execPnode (bits w 10 2) (bits w 12 5) (bits w 17 5) (bits w 22 3) (bits w 25 1) s
  | .pdone => execPdone (bits w 22 3) (bits w 25 1) s
  | .topen => execTopen (bits w 7 5) (bits w 12 5) (bits w 22 3) (bits w 25 1) s
  | .fork => execFork (bits w 7 5) (bits w 12 5) (bits w 17 5) s
  | .join => execJoin (bits w 7 5) (bits w 12 5) s
  | .joinall => execJoinall (bits w 7 5) s
  | .rdecl => execRdecl (bits w 7 5) (bits w 12 5) (bits w 17 5) s
  | .rstat => execRstat (bits w 7 5) (bits w 12 5) s
  | .tsend => execTsend (bits w 12 5) (bits w 18 4) s
  | .trecv => execTrecv (bits w 9 3) (bits w 17 5) s
  | .rqpush => execRqpush (bits w 12 5) (bits w 17 5) s
  | .rqpop => execRqpop (bits w 7 5) s
  | .yield => execYield s
  | .sleep => execSleep (bits w 12 5) (bits w 17 5) s
  | .wfe => execWfe s
  | .launch => execLaunch (bits w 7 5) (bits w 12 5) s
  | .done => execDone s
  | .timer => execTimer (bits w 7 5) (bits w 12 5) s
  | .migrate => execMigrate (bits w 12 5) s
  | .specopen => execSpecopen (bits w 12 5) (bits w 17 5) s
  | .spectag => execSpectag (bits w 12 5) s
  | .speccommit => execSpeccommit (bits w 7 3) (bits w 12 5) (bits w 17 5) s
  | .specabort => execSpecabort (bits w 7 3) (bits w 12 5) s
  | .kvpos => execKvpos (bits w 7 3) (bits w 12 5) (bits w 18 4) s
  | .kvadv => execKvadv (bits w 12 5) (bits w 17 5) s
  | .balloc => execBalloc (bits w 7 5) (bits w 12 5) (bits w 17 5) s
  | .bfree => execBfree (bits w 12 5) (bits w 17 5) s
  | .pxlook => execPxlook (bits w 9 3) (bits w 12 5) (bits w 18 4) s
  | .pxins => execPxins (bits w 7 3) (bits w 12 5) (bits w 17 5) s
  | .specenter => execSpecenter (bits w 12 5) s
  | .emitp => execEmitp (bits w 12 5) (bits w 22 3) (bits w 25 1) s
  | .seqwm => execSeqwm (bits w 12 5) (bits w 22 3) (bits w 25 1) s
  | .seqwmHold => execSeqwmHold (bits w 12 5) (bits w 22 3) (bits w 25 1) s
  | .fout => execFout (bits w 12 5) (bits w 18 4) (bits w 22 3) (bits w 25 1) s
  | .fquad => execFquad (bits w 9 3) (bits w 17 5) (bits w 22 3) (bits w 25 1) s
  | .rframeOpen => execRframeOpen (bits w 7 3) (bits w 12 5) (bits w 22 3) (bits w 25 1) s
  | .rframeLift => execRframeLift (bits w 22 3) (bits w 25 1) s
  | .rframeClose => execRframeClose (bits w 7 3) (bits w 22 3) (bits w 25 1) s
  | .rcvpost => execRcvpost (bits w 12 5) (bits w 18 4) (bits w 22 3) (bits w 25 1) s
  | .tsarm => execTsarm (bits w 7 5) (bits w 12 5) (bits w 22 3) (bits w 25 1) s
  | .tscan => execTscan (bits w 7 5) (bits w 12 5) (bits w 22 3) (bits w 25 1) s
  | .ctrrd => execCtrrd (bits w 7 5) (bits w 12 5) (bits w 22 3) (bits w 25 1) s
  | .ctradd => execCtradd (bits w 12 5) (bits w 17 5) (bits w 22 3) (bits w 25 1) s
  | .csrr => execCsrr (bits w 7 5) (bits w 17 12) s
  | .csrw => execCsrw (bits w 7 5) (bits w 12 5) (bits w 17 12) s
  | .csrs => execCsrs (bits w 7 5) (bits w 12 5) (bits w 17 12) s
  | .csrc => execCsrc (bits w 7 5) (bits w 12 5) (bits w 17 12) s
  | .trap => execTrap (bits w 12 5) (bits w 17 4) s
  | .eret => execEret s
  | .brk => execBrk s
  | .segld => execSegld (bits w 7 3) (bits w 12 5) s
  | .pwr => execPwr (bits w 7 5) (bits w 12 5) s
  | .fbpop => execFbpop (bits w 9 3) (bits w 12 5) s
  | .replay => execReplay (bits w 12 5) s
  | .tlbinv => execTlbinv (bits w 12 5) (bits w 17 5) s
  | .pgpin => execPgpin (bits w 7 5) (bits w 12 5) s
  | .pgunpin => execPgunpin (bits w 7 5) (bits w 12 5) s
  | .nop => execNop s
  | .movC => execMovC (bits w 5 5) (bits w 10 5) s
  | .vmovC => execVmovC (bits w 5 5) (bits w 10 5) s
  | .addC => execAddC (bits w 5 5) (bits w 10 5) s
  | .vaddC => execVaddC (bits w 5 5) (bits w 10 5) s
  | .subC => execSubC (bits w 5 5) (bits w 10 5) s
  | .vsubC => execVsubC (bits w 5 5) (bits w 10 5) s
  | .andC => execAndC (bits w 5 5) (bits w 10 5) s
  | .vandC => execVandC (bits w 5 5) (bits w 10 5) s
  | .orC => execOrC (bits w 5 5) (bits w 10 5) s
  | .vorC => execVorC (bits w 5 5) (bits w 10 5) s
  | .xorC => execXorC (bits w 5 5) (bits w 10 5) s
  | .vxorC => execVxorC (bits w 5 5) (bits w 10 5) s
  | .addiC => execAddiC (bits w 5 5) (bits w 10 6) s
  | .li => execLi (bits w 5 5) (bits w 10 6) s
  | .slliC => execSlliC (bits w 5 5) (bits w 10 6) s
  | .srliC => execSrliC (bits w 5 5) (bits w 10 6) s
  | .sraiC => execSraiC (bits w 5 5) (bits w 10 6) s
  | .ldd => execLdd (bits w 5 5) (bits w 10 5) s
  | .std => execStd (bits w 5 5) (bits w 10 5) s
  | .vaddfF32C => execVaddfF32C (bits w 5 5) (bits w 10 5) s
  | .vaddfF16C => execVaddfF16C (bits w 5 5) (bits w 10 5) s
  | .vmulfF32C => execVmulfF32C (bits w 5 5) (bits w 10 5) s
  | .vmulfF16C => execVmulfF16C (bits w 5 5) (bits w 10 5) s
  | .btC => execBtC (bits w 5 2) (bits w 10 3) s
  | .btnC => execBtnC (bits w 5 2) (bits w 10 3) s

/-- The same through the instruction that the decoder builds. -/
noncomputable def runOp (op : Op) (w : Nat) (s : State) : Host.Outcome State Fault Refusal := exec (op.build w) s

theorem runOp_eq (op : Op) (w : Nat) (s : State) : runOp op w s = runOpFast op w s := by cases op <;> rfl

@[csimp] theorem runOp_csimp : @runOp = @runOpFast := by
  funext op w s
  exact runOp_eq op w s

end Sys2Proof.Machine
end

