-- ==== Sys2Proof/Machine/Fetch.lean ====
section
/-!
DEFINITION. Fetching and running one instruction of a slot (R74, R76, R91, R92, R166, R412).
-/

namespace Sys2Proof.Machine

/-- One halfword of the text: translated as a fetch, read through the cluster cache (R76). -/
def fetchHalf (s : State) (va : Word) : Except (State × Stop) (State × Nat) :=
  if fieldOf va 56 8 ≠ 0 then .error (s, .trap causePageRights va)
  else match translate s s.cur.1 va.toNat accFetch (curThread s).csr.sys with
    | .error e => .error e
    | .ok (s, _, pa) =>
      let cached := (mapGet? (getCluster s (clusterOf s.cur.1)).cache (pa / 64)).isSome
      if memPoisoned s pa 2 && !cached then .error (s, .trap causePoisoned va)
      else
        let (s, bs) := cachedRead s s.cur.1 pa 2
        .ok (s, leNat bs)

/-- The bits of the instruction at an address: one halfword, or two where bit 0 of the first is 1 (R74). -/
def fetchWord (s : State) (pc : Word) : Except (State × Stop) (State × Nat) :=
  match fetchHalf s pc with
  | .error e => .error e
  | .ok (s, lo) =>
    if lo % 2 = 0 then .ok (s, lo)
    else match fetchHalf s (pc + 2) with
      | .error e => .error e
      | .ok (s, hi) => .ok (s, lo + 65536 * hi)

/-- A fetch that fails: in the message slot a page fault traps with the address that faulted (R166). -/
def fetchStop (s : State) (e : Stop) : State :=
  match e with
  | .fault va _ _ _ =>
    if inMsgSlot s then takeTrap s (curRef s) (curThread s).pc causeSlotForbidden (wordOf va) else stopCur s 4 e
  | _ => stopCur s 4 e

/-- The cause of a pattern that is no instruction (R91, rows 1 to 3). -/
def illegalCause : Illegal → BitVec 8
  | .opcode => causeIllegalOpcode
  | .func => causeIllegalFunction
  | .field => causeIllegalField

/-- Run the instruction whose bits have been fetched. -/
def runBits (w : Nat) (s : State) : Host.Outcome State Fault Refusal :=
  let s := { s with iword := BitVec.ofNat 32 w }
  match decodeOp w with
  | .error c => .next (stopCur s 4 (.trap (illegalCause c) (instrWord s)))
  | .ok op => runOp op w s

/-- One instruction of the current slot, from its fetch on. -/
def runFetched (s : State) : Host.Outcome State Fault Refusal :=
  match fetchWord s (curThread s).pc with
  | .error (s, e) => .next (fetchStop s e)
  | .ok (s, w) => runBits w s

/-- What the current slot does when it issues: a thread without a trap handler retires (R412); the 49th issue of a handler
traps (R166); a double fault that waited for the thread's writes is taken (R394). -/
def runSlot (s : State) : Host.Outcome State Fault Refusal :=
  let t := curThread s
  if t.doubling then .next (if unperformed t then parkCur s .retry 4 else doubleFault s (curRef s))
  else if t.retiring then .next (finish 4 (doneRes s))
  else if inMsgSlot s then
    if 48 ≤ t.issues then .next (takeTrap s (curRef s) t.pc causeHandlerLong t.handler)
    else runFetched (modCur s fun t => { t with issues := t.issues + 1 })
  else runFetched s

end Sys2Proof.Machine
end

