-- ==== Sys2Proof/Machine/Issue.lean ====
section
/-!
DEFINITION. The issue rotation (R98 to R102), the wake of threads that wait for a condition (R104), the message slot's turn
(R165, R169), and the passing of a cycle (R20, R291, R304, R418).
-/

namespace Sys2Proof.Machine

/-! ## Which slot issues -/

/-- The slot `r` as the current one, its thread in the state it parked from; the mark of a woken thread goes. -/
def enterSlot (s : State) (r : Ref) : State :=
  modRef { s with cur := (r.core, slotOf r.slot) } r fun t =>
    if t.phase = .parked then { t with phase := t.parkedFrom, wait := match t.wait with
      | .poll c => .poll c
      | _ => .none }
    else if t.wait = .retry then { t with wait := .none } else t

/-- The mark of poll mode goes once the access has been performed. -/
def leavePoll (t : Thread) : Thread := if t.phase ≠ .parked ∧ t.wait = .poll 0 then { t with wait := .none } else t

/-- The instruction of a slot that issues. -/
def runRef (s : State) (r : Ref) : Host.Outcome State Fault Refusal :=
  match runSlot (enterSlot s r) with
  | .next s => .next (modRef s r leavePoll)
  | e => e

/-- Whether what a thread that is parked to reissue waits for has come: its instruction would no longer park it again as it is
(R104). -/
def goesOn (s : State) (r : Ref) : Bool :=
  match runRef s r with
  | .next s' => { refThread s' r with soon := false } != { refThread s r with soon := false }
  | _ => true

/-- Whether a slot is issuable (R99); `home` in its home cycle, the only one in which an access in poll mode issues (R323). The message
slot is, when a message is pending; a thread that was dispatched, resumed or woken in this cycle is from the next (R96, R104). -/
def issuable (s : State) (k : Nat) (home : Bool) (i : Nat) : Bool :=
  let t := getThread s k (slotOf i)
  match t.phase, t.wait with
  | .idle, _ => (takeInq s k).isSome
  | .run, _ => !t.soon
  | .trapped, _ => !t.soon
  | .handling, _ => true
  | .parked, .poll 0 => !t.soon && home
  | _, _ => false

/-- Whether a slot may take the cycle that its home slot `h` has given away (R100 step 2). -/
def candidate (s : State) (k h i : Nat) : Bool :=
  let old := match (getThread s k (slotOf i)).lastIssue with
    | some c => decide (c + 8 ≤ s.cycle)
    | none => true
  i != h && old && decide ((i + 16 - h) % 16 ≥ 8) && issuable s k false i

/-- The user slots in the order of R100 step 4. -/
def donees (last : Option Nat) : List Nat :=
  let start := match last with
    | some i => i + 1
    | none => 0
  (List.range 15).map fun i => (start + i) % 15

/-- The slot that issues in this cycle, and whether the cycle was donated to a user slot (R100). -/
def pickSlot (s : State) (k : Nat) : Option (Nat × Bool) :=
  let h := s.cycle % 16
  if issuable s k true h && !(getThread s k (slotOf h)).yielded then some (h, false)
  else if candidate s k h 15 then some (15, false)
  else match (donees (getCore s k).donated).find? (candidate s k h) with
    | some i => some (i, true)
    | none => none

/-! ## The issue of one core -/

/-- A message that the slot answers itself (R169). -/
def serveBuiltin (s : State) (k : Nat) (req : Request) : Host.Outcome State Fault Refusal :=
  match req with
  | .user _ _ _ _ => execHandlerStart k s
  | .load _ _ => execLoad k s
  | .source _ _ _ => execLoad k s
  | .store _ _ => execStore k s
  | .syncLoad _ _ _ => execSyncLoad k s
  | .fill _ _ _ => execFill k s
  | .fe _ _ => execFe k s
  | .atomic _ _ _ _ _ => execAtomic k s
  | .cell _ _ _ _ => execAtomic k s
  | .muster _ _ _ _ => execMusterStep k s
  | .handle _ _ => serveHandle k s

/-- The issue of a slot is marked: its cycle, the donation, and a home cycle given away by YIELD (R120). -/
def markIssue (s : State) (k i : Nat) (donated : Bool) : State :=
  let s := modThread s k (slotOf i) fun t => { t with lastIssue := some s.cycle }
  if donated then modCore s k fun c => { c with donated := some i } else s

/-- The core is done with this cycle. -/
def passCore (s : State) (k : Nat) : State :=
  modThread { s with focus := s.focus + 1 } k (slotOf (s.cycle % 16)) fun t => { t with yielded := false }

/-- A core's part of a cycle. The start of a handler and the entry of an asynchronous trap come before the instruction that
issues, and take no cycle of their own. -/
def issueCore (s : State) (k : Nat) : Host.Outcome State Fault Refusal :=
  match pickSlot s k with
  | none => .next (passCore s k)
  | some (i, donated) =>
    let r : Ref := ⟨k, i⟩
    let t := refThread s r
    let s' := markIssue (passCore s k) k i donated
    if t.phase = .idle then
      match (getCore s k).inq with
      | m :: _ => match m.req with
        | .user _ _ _ _ => execHandlerStart k s
        | req => serveBuiltin s' k req
      | [] => .next (passCore s k)
    else if i ≠ 15 ∧ asyncPending t ∧ !t.csr.tm ∧ !t.doubling then .next (asyncTrap s r)
    else runRef s' r

/-! ## A cycle passes -/

/-- The slot timer, and the waits that the slot's own marks end (R104, R121, R291); what woke before the cycle's end may issue. -/
def tickThread (ready : Bool) (t : Thread) : Thread :=
  let t := if t.phase = .halted ∨ t.csr.timer = 0 then t
    else if t.csr.timer = 1 then timerExpire t
    else { t with csr := { t.csr with timer := t.csr.timer - 1 } }
  let t := if t.phase ≠ .parked then t
    else if t.wait = .event ∧ t.event then { completeWait t with event := false }
    else if t.wait = .sleep ∧ ready then completeWait t
    else t
  { t with soon := false }

def tickCore (c : Core) : Core := { c with slots := c.slots.map (tickThread (!readyEmpty c)), arrived := 0 }

/-- The slots of the device that are parked to reissue. -/
def retrying (s : State) : List Ref :=
  s.cores.flatMap fun p => (userSlots p.2).filterMap fun q =>
    if q.2.phase = .parked ∧ q.2.wait = .retry then some ⟨p.1, q.1⟩ else none

/-- The parked migrations, passes of handles and flushes that may go on do so (R122, R218, R278). -/
def startMoves (s : State) : State :=
  (s.cores.flatMap fun p => (userSlots p.2).map fun q => (⟨p.1, q.1⟩ : Ref)).foldl (fun s r => startFlush (startPass (startMove s r) r) r) s

/-- The threads that are parked to reissue, and for which what they wait for has come by the end of the cycle, are woken: each is in
the state it parked from, and issuable in the cycle that begins (R96, R104). -/
def wakeRetries (s : State) : State :=
  ((retrying s).filter (goesOn s)).foldl (fun s r => modRef s r fun t => { rewait t with soon := false }) s

/-- The launches of a RUNNING context count the cycle (R304). -/
def tickContext (c : Context) : Context :=
  if c.phase = .running then
    { c with launches := c.launches.map fun p => (p.1, if p.2.phase = .running then { p.2 with ran := p.2.ran + 1 } else p.2) }
  else c

/-- Every core has had its part of the cycle. -/
def tick (s : State) : State :=
  let s : State := { s with
    focus := 0, cycle := s.cycle + 1
    contexts := s.contexts.map fun p => (p.1, tickContext p.2) }
  let s := startMoves ((s.contexts.map (·.1)).foldl (fun (s : State) c => retrySends (servePrefix (settleEvents s c) c) c) s)
  let s := wakeRetries { s with cores := s.cores.map fun p => (p.1, tickCore p.2) }
  if s.cycle % 16 = 0 then
    (s.cores.filter (·.2.halting)).foldl (fun s p => haltThreads s p.1) s
  else s

/-- The next core's part of the cycle, or the cycle's end. -/
def issueNext (s : State) : Host.Outcome State Fault Refusal :=
  if !s.power then .next s
  else match s.cores[s.focus]? with
    | some p => issueCore s p.1
    | none => .next (tick s)

end Sys2Proof.Machine
end

