-- ==== Sys2Proof/Machine/Program.lean ====
section
/-!
DEFINITION. A program placed from outside, as a load stands in for it (log 18): a context of one cluster with one page of text,
and a thread in slot 0 of its first core whose next issue is the next step.
-/

namespace Sys2Proof.Machine

/-- The VA of the text page, and the PAs of the four tables and of its frame. -/
def programVa : Nat := 0x10000
def programRoot : Nat := 0x100000
def programPage : Nat := 0x180000

/-- The context's number, and the key of its core (0, 0, 0). -/
def programCtx : Nat := 1
def programCore : Nat := coreKey programCtx 0

/-- A context record of one cluster: ROOT, SEGTAB, SEGCNT 1, CTXNUM 1, the tables, MBOXCAP 16, SAVEBASE. -/
def programRecord : BitVec 1024 :=
  BitVec.ofNat 1024 (programRoot + 0x190000 * 2 ^ 64 + 1 * 2 ^ 128 + programCtx * 2 ^ 144 + 0x1A0000 * 2 ^ 192 + 0x1B0000 * 2 ^ 256
    + 1 * 2 ^ 704 + 1 * 2 ^ 720 + 16 * 2 ^ 736 + 0x1C0000 * 2 ^ 768 + 0x1D0000 * 2 ^ 832)

/-- The entries that map the page: three tables, and a RESIDENT leaf with R, W and X. -/
def programTables (s : State) : State :=
  let entry (s : State) (level va lo n base : Nat) : State :=
    memWrite s (programRoot + 0x10000 * level + 16 * (va / 2 ^ lo % 2 ^ n)) (leBytes 8 base)
  let s := entry s 0 programVa 44 12 (programRoot + 0x10000 + 2 ^ 13)
  let s := entry s 1 programVa 32 12 (programRoot + 0x20000 + 2 ^ 13)
  let s := entry s 2 programVa 28 4 (programRoot + 0x30000 + 2 ^ 13)
  entry s 3 programVa 16 12 (programPage + 2 ^ 13 + 0x5E)

/-- The partition word: one slot, 32 x registers, 32 v registers, 4 accumulators. -/
def programPart : BitVec 32 := 0x4F0

/-- The launch of the placed thread. -/
def programLaunch : Launch :=
  { newLaunch 0 { noKernel with part := programPart, entry := wordOf programVa, deadline := 2 ^ 40 } .running 64 with
    tree := [(nodeRoot, 1), (nodeDie 0, 1), (nodeCluster programCore, 1)] }

/-- The placed thread, about to fetch at the start of the page, with the default `seg1`. -/
def programThread : Thread :=
  let t := Thread.initial .run
  { t with
    pc := wordOf programVa, number := 1, seg := t.seg.set 1 (defaultSeg1 programPart)
    csr := { t.csr with sys := true } }

/-- The context with its one cluster on physical cluster 0, its core, and the first issue as the next step. -/
def placeProgram (s : State) : State :=
  let s := programTables s
  let c := { newContext programRecord with
    phase := .running, map := [(0, placedEntry 0)], launchId := 1, launches := [(0, programLaunch)], threadNumber := 1 }
  let s := setCtx s programCtx c
  let core := { Core.initial with
    part := programPart, placed := true, live := Core.initial.live.set 0 1, tags := Core.initial.tags.set 0 (some 0) }
  let s := setCore s programCore (coreSetSlot core 0 programThread)
  { s with
    agenda := [.issue], status := { s.status with ready := true }, cycle := s.cycle / 16 * 16, focus := (s.cores.takeWhile fun p => p.1 != programCore).length
    power := true }

/-- The placed program with an instruction's bytes at its start. -/
def placeWord (s : State) (nbits w : Nat) : State := memWrite (placeProgram s) programPage (leBytes 4 (w % 2 ^ nbits))

end Sys2Proof.Machine
end

