-- ==== Sys2Proof/Machine/Schedule.lean ====
section
/-!
DEFINITION. The model's default order (log 3): with an empty agenda, the first step of the list below that changes the state comes
next, and where none does, a core issues. What the outside decides (the host, peers, errors, the choices of Hjelec among pages
and frames) comes only by the agenda.
-/

namespace Sys2Proof.Machine

/-- Whether a step of the device changes the state. -/
def enabled (s : State) (i : Instr) : Bool :=
  match exec i s with
  | .next t => decide (t ≠ s)
  | _ => false

/-- The arrival of a packet. -/
def arrivalOf (n : Nat) : Packet → Instr
  | .request _ _ => .messageArrival n
  | .resend _ _ _ => .deferredResend n
  | .reply _ _ _ => .reply n
  | .source _ _ _ _ => .reply n
  | .ack _ _ => .acknowledgement n
  | .chainWord _ _ _ => .chainWord n
  | .task _ _ => .taskMessageVerdict n
  | .forward _ _ _ => .forwardDelivery n
  | .ask _ _ => .forwardDelivery n
  | .bounce _ => .bounce n
  | .answer _ _ _ _ _ => .musterAnswer n
  | .up _ _ _ _ => .counterUp n
  | .done _ _ _ _ _ => .counterDone n
  | .migrant _ _ => .migrationArrival n
  | .chunk _ _ _ _ _ _ _ => .copyChunkArrival n
  | .drain _ _ _ _ _ _ _ => .mdrainrWrite n
  | .stolen _ _ _ => .stealArrival n
  | .count _ _ _ _ => .traversalCountMessage n
  | .prim _ _ _ _ => .primitiveArrival n
  | .flit _ _ _ _ => .watermarkFlit n

def arrivals (s : State) : List Instr := s.net.zipIdx.map fun p => arrivalOf p.2 p.1

/-- The steps of a core's engines and slots. -/
def coreSteps (k : Nat) (c : Core) : List Instr :=
  let mats := if c.slots.toList.all (·.matq.isEmpty) then []
    else [.mzeroExec k, .mldaExec k, .mldbExec k, .mmaExec k, .mgangBarrier k, .mgangExec k, .mdrainExec k, .mdrainrExec k]
  let copies := if c.slots.toList.all (·.copyq.isEmpty) then [] else [.copyChunk k, .cwaitResolve k]
  let slots := (userSlots c).flatMap fun p => match p.2.phase, p.2.wait with
    | .bound, _ => [.dispatch k p.1]
    | .parked, .poll _ => [.pollReissue k p.1]
    | .parked, .take => [.stealRound k p.1]
    | _, _ => []
  mats ++ copies ++ slots ++ (if c.cb4Leave then [.cb4LeaveEnd k] else []) ++ (if c.halting then [] else [.haltSignal k])

/-- The steps of a cluster's units. -/
def clusterSteps (k : Nat) (c : Cluster) : List Instr :=
  (if c.leaveAsked.isEmpty then [] else [.leaveGrant k]) ++ (List.range c.members.length).map fun i => .traversalEnd k i

/-- The cores on which the ranks of a launch are placed: in rising order, each that takes its part (R297). -/
def pickCores (s : State) (ctx : Nat) (c : Context) (id : Nat) (l : Launch) : List Nat :=
  let u := partSlots l.kernel.part
  let n := (lrecThreads l.record + u - 1) / u
  let packed := (List.range (16 * ctxGridW c * ctxGridH c)).map fun i =>
    i / 16 / ctxGridH c * 4096 + i / 16 % ctxGridH c * 16 + i % 16
  ((packed.filter fun p => coreTakes s (BitVec.ofNat 32 id) l (coreKey ctx p) 0).take n)

/-- The steps of a context. -/
def contextSteps (s : State) (ctx : Nat) (c : Context) : List Instr :=
  let place := (c.launches.filter (·.2.phase == .read)).map fun p => .placeLaunch ctx p.1 (pickCores s ctx c p.1 p.2)
  let owners := c.frame.owners.map (·.1)
  let starts := (c.frame.owners.filter fun o => o.2.prims.any fun p => !p.todo.isEmpty).flatMap fun o =>
    (List.range 240).map fun i => .fragmentStart ctx o.1 (ownerCore c.frame ctx o.1 + i / 15) (i % 15)
  [.dump ctx, .deadlineCheck ctx, .haltingComplete ctx] ++ ((List.range 65).map fun q => .launchRecordRead ctx q) ++ place
    ++ c.spec.map (fun w => .commitStep ctx w.1) ++ owners.map (fun o => .blend ctx o) ++ starts ++ [.frameCloseComplete ctx]

/-- The first step that comes by itself: bring-up after release from reset, and else the first of the lists that is enabled. -/
def ready (s : State) : Option Instr :=
  if !s.power then none
  else if !s.status.ready then (if s.status.bootfail then none else some .reset)
  else
    let all := arrivals s ++ s.cores.flatMap (fun p => coreSteps p.1 p.2) ++ s.clusters.flatMap (fun p => clusterSteps p.1 p.2)
      ++ s.contexts.flatMap (fun p => contextSteps s p.1 p.2) ++ s.dies.map (fun p => .faultService p.1)
    all.find? (enabled s)

end Sys2Proof.Machine
end

