-- ==== Sys2Proof/Machine/Step.lean ====
section
/-!
DEFINITION. One step of the machine: what the agenda names, or else the default order (log 3).
-/

namespace Sys2Proof.Machine

/-- A step of the device that the agenda names; an instruction has its turn only through the issue of a slot. -/
def takeEvent (i : Instr) (s : State) : Host.Outcome State Fault Refusal :=
  match encode i with
  | some _ => .next s
  | none => exec i s

/-- One step. -/
def step (s : State) : Host.Outcome State Fault Refusal :=
  match s.agenda with
  | .event i :: rest => takeEvent i { s with agenda := rest }
  | .issue :: rest => issueNext { s with agenda := rest }
  | [] =>
    match ready s with
    | some i => exec i s
    | none => issueNext s

/-- An instruction stored where the next step fetches: the load that stands in for bring-up, a context and a launch (log 18). -/
def State.withFetchWord (s : State) (nbits w : Nat) : State := placeWord s nbits w

end Sys2Proof.Machine
end

