-- ==== Sys2Proof/Safety.lean ====
section
/-!
DEFINITION. The terms in which claims are stated: what must hold before an instruction has its effect, the state after an
instruction that acts on its thread alone, and what a safe run and a sound state are.
-/

namespace Sys2Proof.Machine

/-! ## Before an instruction -/

/-- Nothing stands before the effect of an instruction of the current thread that uses `u`: its mode admits it (R89, R91
row 4); every register it names is declared (R91 row 6, R95); an FP64 instruction is on the core that has the F64 extension
(R88); `RND` is no reserved mode (R37); its slot may run it; no operand is a chain port in use (R170); and the guards that
it names are RESOLVED (R108). -/
structure Runs (s : State) (u : Uses) : Prop where
  mode : u.priv = true → (curThread s).csr.sys = true
  csr : u.csr = none
  declared : usesDeclared s u = true
  f64 : u.f64 = true → coreIndex s.cur.1 = 0
  rounding : u.rounds = true → (curThread s).csr.rnd ≠ 7
  slot : u.noMsg = true → inMsgSlot s = false
  msgOnly : u.onlyMsg = true → inMsgSlot s = true
  ports : (curThread s).csr.chain = true → inMsgSlot s = false → 28#5 ∉ u.xr ∧ u.xw ≠ some 29#5
  guards : ∀ g ∈ u.gs, (getG (curThread s) g).pending = false

/-- The flags that an instruction raises trap under no enable (R414); the message slot has no enables (R95). -/
def Untrapped (s : State) (fl : FFlags) : Prop := fl &&& (curThread s).csr.ftrapen = 0 ∨ inMsgSlot s = true

/-! ## After an instruction -/

/-- The current slot's thread becomes `t`, moved on by `len` bytes; nothing else changes. -/
def moved (s : State) (len : Nat) (t : Thread) : State := putThread s { t with pc := t.pc + wordOf len }

/-- The same, with flags accrued into `FFLAGS` (R39). -/
def flagged (s : State) (len : Nat) (t : Thread) (fl : FFlags) : State :=
  moved s len { t with csr := { t.csr with fflags := t.csr.fflags ||| fl } }

/-- The current slot's thread becomes `t` and continues at an address. -/
def jumped (s : State) (t : Thread) (pc : Word) : State := putThread s { t with pc := pc }

/-! ## Runs -/

/-- Some number of steps. -/
def runFor : Nat → State → Host.Outcome State Fault Refusal
  | 0, s => .next s
  | n + 1, s =>
    match step s with
    | .next t => runFor n t
    | o => o

/-- A run of `n` steps is safe when no step of it stops the machine. -/
def SafeFor (n : Nat) (s : State) : Prop := ∃ t, runFor n s = .next t

/-- A sound state: main memory, host memory included, is in canonical form. -/
def Sound (s : State) : Prop := Memory.wf s.mem = true

end Sys2Proof.Machine
end

