-- ==== Sys2Proof/Certificates/Slice0/Obligations.lean ====
section
/-!
DEFINITION. The statements for the provers. A statement about instructions of one shape reads their results from a table
written here from the rules: each row says what an instruction uses and what it computes from the thread.
-/

namespace Sys2Proof.Machine

/-! ## Results of scalar instructions, as the rules give them -/

/-- An instruction that computes one x register: its length, what it uses, its destination, and the value (R129). -/
structure Scalar where
  len : Nat
  uses : Uses
  dest : BitVec 5
  value : Thread → Word

/-- x[d] from two registers, from one, and from none. -/
def fromTwo (len : Nat) (d a b : BitVec 5) (f : Word → Word → Word) : Option Scalar :=
  some ⟨len, { xr := [a, b], xw := some d }, d, fun t => f (getX t a) (getX t b)⟩
def fromOne (len : Nat) (d a : BitVec 5) (f : Word → Word) : Option Scalar :=
  some ⟨len, { xr := [a], xw := some d }, d, fun t => f (getX t a)⟩
def fromNone (len : Nat) (d : BitVec 5) (f : Thread → Word) : Option Scalar :=
  some ⟨len, { xw := some d }, d, f⟩

/-- A 32-bit value extended by sign. -/
def signed32 (v : BitVec 32) : Word := v.signExtend 64

/-- Quot and Rem of R134: division truncates; by zero it gives all ones and the dividend. -/
def quotient {w : Nat} (signed : Bool) (x y : BitVec w) : BitVec w :=
  if y = 0 then BitVec.allOnes w
  else if signed then BitVec.ofInt w (x.toInt.tdiv y.toInt) else BitVec.ofNat w (x.toNat / y.toNat)
def remainder {w : Nat} (signed : Bool) (x y : BitVec w) : BitVec w :=
  if y = 0 then x
  else if signed then BitVec.ofInt w (x.toInt.tmod y.toInt) else BitVec.ofNat w (x.toNat % y.toNat)

/-- The INT and MUL families, the immediate forms, SEL and GGET (R114, R131 to R138), and their compact forms (R82, R146). -/
def scalarOf : Instr → Option Scalar
  | .add d a b => fromTwo 4 d a b fun x y => x + y
  | .sub d a b => fromTwo 4 d a b fun x y => x - y
  | .and d a b => fromTwo 4 d a b fun x y => x &&& y
  | .or d a b => fromTwo 4 d a b fun x y => x ||| y
  | .xor d a b => fromTwo 4 d a b fun x y => x ^^^ y
  | .andn d a b => fromTwo 4 d a b fun x y => x &&& ~~~y
  | .orn d a b => fromTwo 4 d a b fun x y => x ||| ~~~y
  | .sll d a b => fromTwo 4 d a b fun x y => x <<< (y.toNat % 64)
  | .srl d a b => fromTwo 4 d a b fun x y => x >>> (y.toNat % 64)
  | .sra d a b => fromTwo 4 d a b fun x y => x.sshiftRight (y.toNat % 64)
  | .rol d a b => fromTwo 4 d a b fun x y => x.rotateLeft (y.toNat % 64)
  | .ror d a b => fromTwo 4 d a b fun x y => x.rotateRight (y.toNat % 64)
  | .min d a b => fromTwo 4 d a b fun x y => if x.toInt < y.toInt then x else y
  | .max d a b => fromTwo 4 d a b fun x y => if x.toInt < y.toInt then y else x
  | .minu d a b => fromTwo 4 d a b fun x y => if x.toNat < y.toNat then x else y
  | .maxu d a b => fromTwo 4 d a b fun x y => if x.toNat < y.toNat then y else x
  | .addw d a b => fromTwo 4 d a b fun x y => signed32 (x.setWidth 32 + y.setWidth 32)
  | .subw d a b => fromTwo 4 d a b fun x y => signed32 (x.setWidth 32 - y.setWidth 32)
  | .sllw d a b => fromTwo 4 d a b fun x y => signed32 (x.setWidth 32 <<< (y.toNat % 32))
  | .srlw d a b => fromTwo 4 d a b fun x y => signed32 (x.setWidth 32 >>> (y.toNat % 32))
  | .sraw d a b => fromTwo 4 d a b fun x y => signed32 ((x.setWidth 32).sshiftRight (y.toNat % 32))
  | .clz d a => fromOne 4 d a leadingZeros
  | .ctz d a => fromOne 4 d a trailingZeros
  | .popc d a => fromOne 4 d a popCount
  | .brev d a => fromOne 4 d a BitVec.reverse
  | .bswap d a => fromOne 4 d a swapBytes
  | .sext d a w => fromOne 4 d a fun x =>
      if w = 0 then (x.setWidth 8).signExtend 64 else if w = 1 then (x.setWidth 16).signExtend 64 else (x.setWidth 32).signExtend 64
  | .zext d a w => fromOne 4 d a fun x =>
      if w = 0 then (x.setWidth 8).setWidth 64 else if w = 1 then (x.setWidth 16).setWidth 64 else (x.setWidth 32).setWidth 64
  | .lea d a b h => fromTwo 4 d a b fun x y => x + (y <<< h.toNat)
  | .mul d a b => fromTwo 4 d a b fun x y => x * y
  | .mulh d a b => fromTwo 4 d a b fun x y => BitVec.ofInt 64 (x.toInt * y.toInt / 2 ^ 64)
  | .mulhu d a b => fromTwo 4 d a b fun x y => BitVec.ofInt 64 ((x.toNat : Int) * y.toNat / 2 ^ 64)
  | .mulhsu d a b => fromTwo 4 d a b fun x y => BitVec.ofInt 64 (x.toInt * y.toNat / 2 ^ 64)
  | .div d a b => fromTwo 4 d a b (quotient true)
  | .divu d a b => fromTwo 4 d a b (quotient false)
  | .rem d a b => fromTwo 4 d a b (remainder true)
  | .remu d a b => fromTwo 4 d a b (remainder false)
  | .mulw d a b => fromTwo 4 d a b fun x y => signed32 (x.setWidth 32 * y.setWidth 32)
  | .divw d a b => fromTwo 4 d a b fun x y => signed32 (quotient true (x.setWidth 32) (y.setWidth 32))
  | .divuw d a b => fromTwo 4 d a b fun x y => signed32 (quotient false (x.setWidth 32) (y.setWidth 32))
  | .remw d a b => fromTwo 4 d a b fun x y => signed32 (remainder true (x.setWidth 32) (y.setWidth 32))
  | .remuw d a b => fromTwo 4 d a b fun x y => signed32 (remainder false (x.setWidth 32) (y.setWidth 32))
  | .addi d a i => fromOne 4 d a fun x => x + i.signExtend 64
  | .andi d a i => fromOne 4 d a fun x => x &&& i.signExtend 64
  | .ori d a i => fromOne 4 d a fun x => x ||| i.signExtend 64
  | .xori d a i => fromOne 4 d a fun x => x ^^^ i.signExtend 64
  | .slli d a h => fromOne 4 d a fun x => x <<< h.toNat
  | .srli d a h => fromOne 4 d a fun x => x >>> h.toNat
  | .srai d a h => fromOne 4 d a fun x => x.sshiftRight h.toNat
  | .rori d a h => fromOne 4 d a fun x => x.rotateRight h.toNat
  | .slliw d a h => fromOne 4 d a fun x => signed32 (x.setWidth 32 <<< h.toNat)
  | .srliw d a h => fromOne 4 d a fun x => signed32 (x.setWidth 32 >>> h.toNat)
  | .sraiw d a h => fromOne 4 d a fun x => signed32 ((x.setWidth 32).sshiftRight h.toNat)
  | .bext d a l p => fromOne 4 d a fun x => wordOf (fieldOf x p.toNat (l.toNat + 1))
  | .bexts d a l p => fromOne 4 d a fun x => sextW (wordOf (fieldOf x p.toNat (l.toNat + 1))) (l.toNat + 1)
  | .bins d a l p => some ⟨4, { xr := [a, d], xw := some d }, d, fun t =>
      setField (getX t d) p.toNat (l.toNat + 1) (getX t a).toNat⟩
  | .lui d i => fromNone 4 d fun _ => i.signExtend 64 * 4096
  | .addpc d i => fromNone 4 d fun t => t.pc + i.signExtend 64 * 4096
  | .gget d g => fromNone 4 d fun t => if (getG t g).pending then 0x100 else (getG t g).mask.setWidth 64
  | .sel d a b g => some ⟨4, { xr := [a, b], xw := some d, gs := [g] }, d, fun t =>
      if (getG t g).mask.getLsbD 0 then getX t a else getX t b⟩
  | .movC d a => fromTwo 2 d a a fun x _ => x
  | .addC d a => fromTwo 2 d d a fun x y => x + y
  | .subC d a => fromTwo 2 d d a fun x y => x - y
  | .andC d a => fromTwo 2 d d a fun x y => x &&& y
  | .orC d a => fromTwo 2 d d a fun x y => x ||| y
  | .xorC d a => fromTwo 2 d d a fun x y => x ^^^ y
  | .addiC d i => fromOne 2 d d fun x => x + i.signExtend 64
  | .li d i => fromNone 2 d fun _ => i.signExtend 64
  | .slliC d h => fromOne 2 d d fun x => x <<< h.toNat
  | .srliC d h => fromOne 2 d d fun x => x >>> h.toNat
  | .sraiC d h => fromOne 2 d d fun x => x.sshiftRight h.toNat
  | _ => none

/-- A word written field by field from bit 0 up: each value with its width. -/
def wordFrom (fs : List (Nat × Nat)) : Nat := fs.foldr (fun f w => f.1 + 2 ^ f.2 * w) 0

/-- A field that holds a bit vector. -/
def field {w : Nat} (v : BitVec w) : Nat × Nat := (v.toNat, w)

/-! ## Integer instructions -/

/-- The registers of a thread after an instruction of the table whose operands are chain ports: `x28` read the popped
word `w` (R170) and keeps its own value unless it is the destination; a result for `x29` leaves `x29` as it was. -/
def portRegs (c : Scalar) (t : Thread) (w : Word) : Vector Word 32 :=
  let seen := if 28#5 ∈ c.uses.xr then setX t 28 w else t
  if c.dest = 29#5 then t.x else (setX t c.dest (c.value seen)).x

/-- R170, R228: with CHAIN = 1, an instruction of the table that reads `x28` pops the oldest word of the thread's queue, which
must hold one, and acquires at the smallest scope that covers both threads' cores; one whose destination is `x29` sends its result
to the downstream thread, whose queue must have room, when every earlier write of its thread is performed. -/
def ScalarPorts : Prop :=
  ∀ (i : Instr) (c : Scalar) (s : State) (w : Word) (rest : List Word) (up down : Ref), scalarOf i = some c →
    (curThread s).csr.chain = true → inMsgSlot s = false → usesDeclared s c.uses = true →
    (∀ g ∈ c.uses.gs, (getG (curThread s) g).pending = false) →
    (28#5 ∈ c.uses.xr ∨ c.dest = 29#5) →
    (28#5 ∈ c.uses.xr → (curThread s).up = some up ∧ (curThread s).chainIn = w :: rest) →
    (c.dest = 29#5 → (curThread s).down = some down ∧ (curThread s).unacked = 0 ∧ chainRoom s (curThread s) = true) →
    let t := curThread s
    let seen := if 28#5 ∈ c.uses.xr then setX t 28 w else t
    let t' := { t with
      x := portRegs c t w
      chainIn := if 28#5 ∈ c.uses.xr then rest else t.chainIn
      popped := none }
    let s' := if 28#5 ∈ c.uses.xr then acquireAt s s.cur.1 (coverScope s up.core s.cur.1) else s
    exec i s = .next (if c.dest = 29#5 then send (moved s' c.len t') (.chainWord (curRef s) down (c.value seen))
      else moved s' c.len t')

/-- R170, R104, R231: with CHAIN = 1, an instruction of the table that would pop from an empty queue, or push where there is no
room or while a write of its thread is still to be performed, parks and will reissue; it traps CHAIN_NONE where there is no upstream or no downstream thread. -/
def ScalarPortWaits : Prop :=
  ∀ (i : Instr) (c : Scalar) (s : State), scalarOf i = some c →
    (curThread s).csr.chain = true → inMsgSlot s = false → usesDeclared s c.uses = true →
    (28#5 ∈ c.uses.xr → (curThread s).up = none →
      exec i s = .next (takeTrap s (curRef s) (curThread s).pc causeChainNone 28))
    ∧ (28#5 ∉ c.uses.xr → c.dest = 29#5 → (curThread s).down = none →
      exec i s = .next (takeTrap s (curRef s) (curThread s).pc causeChainNone 29))
    ∧ (28#5 ∈ c.uses.xr → (curThread s).up ≠ none → (curThread s).chainIn = [] →
      (c.dest = 29#5 → (curThread s).down ≠ none) →
      exec i s = .next (putThread s (parkThread (curThread s) .retry c.len)))
    ∧ (28#5 ∉ c.uses.xr → c.dest = 29#5 → (curThread s).down ≠ none →
      (curThread s).unacked ≠ 0 ∨ chainRoom s (curThread s) = false →
      exec i s = .next (putThread s (parkThread (curThread s) .retry c.len)))

/-- R91 row 6: an instruction of the table that names an undeclared register traps UNDECLARED_REG with `TRAPVAL` the
instruction, and has no other effect. -/
def ScalarUndeclared : Prop :=
  ∀ (i : Instr) (c : Scalar) (s : State), scalarOf i = some c → usesDeclared s c.uses = false →
    exec i s = .next (takeTrap s (curRef s) (curThread s).pc causeUndeclaredReg (wordOf s.iword.toNat))

/-- R108: an instruction that names a PENDING guard parks until it is RESOLVED. -/
def GuardWait : Prop :=
  ∀ (d a b : BitVec 5) (g : BitVec 3) (s : State), inMsgSlot s = false → (curThread s).csr.chain = false →
    usesDeclared s { xr := [a, b], xw := some d } = true → (getG (curThread s) g).pending = true →
    exec (.sel d a b g) s = .next (putThread s (parkThread (curThread s) .retry 4))
    ∧ exec (.gwait g) s = .next (putThread s (parkThread (curThread s) .retry 4))
    ∧ (∀ t : BitVec 2, exec (.bt t g) s = .next (putThread s (parkThread (curThread s) .retry 4)))

/-! ## Floating-point results, as the rules give them -/

/-- A floating-point instruction that computes one x register: what it uses, its destination, the value it writes and the
flags it raises. One that rounds does so once, under `RND`, and takes one draw (R38, R140). -/
structure FloatOp where
  uses : Uses
  dest : BitVec 5
  value : Thread → Word × FFlags

/-- The value of a float operand: the low bits of its register, as wide as the format (R139). -/
def operand (F : Fmt) (t : Thread) (a : BitVec 5) : Nat := (getX t a).toNat % 2 ^ fmtWidth F

/-- The rounding that the thread's next result takes (R37, R38). -/
def nextRounding (t : Thread) : Rounding := roundingOf ⟨t.csr.rnd, t.csr.seed, t.csr.draw⟩ 0

def isDouble (F : Fmt) : Bool := F == .fp64

/-- Two sources, rounded (R140). -/
def float2 (F : Fmt) (d a b : BitVec 5) (f : Rounding → Nat → Nat → Nat × FFlags) : Option FloatOp :=
  some ⟨{ xr := [a, b], xw := some d, f64 := isDouble F, rounds := true }, d, fun t =>
    asWord (f (nextRounding t) (operand F t a) (operand F t b))⟩

/-- One source, rounded. -/
def float1 (f64 : Bool) (F : Fmt) (d a : BitVec 5) (f : Rounding → Nat → Nat × FFlags) : Option FloatOp :=
  some ⟨{ xr := [a], xw := some d, f64 := f64, rounds := true }, d, fun t => asWord (f (nextRounding t) (operand F t a))⟩

/-- Three sources, rounded once: ±(a × b) ± c (R144). -/
def float3 (F : Fmt) (negProduct negAddend : Bool) (d a b c : BitVec 5) : Option FloatOp :=
  some ⟨{ xr := [a, b, c], xw := some d, f64 := isDouble F, rounds := true }, d, fun t =>
    asWord (fmaBits F negProduct negAddend (nextRounding t) (operand F t a) (operand F t b) (operand F t c))⟩

/-- Two sources, not rounded (R141 to R143). -/
def floatSelect (F : Fmt) (d a b : BitVec 5) (f : Nat → Nat → Nat × FFlags) : Option FloatOp :=
  some ⟨{ xr := [a, b], xw := some d, f64 := isDouble F }, d, fun t => asWord (f (operand F t a) (operand F t b))⟩

/-- Float to integer (R41, R145): a 32-bit signed result is extended by sign, every other by zeros. -/
def floatToInt (F : Fmt) (T : IntFmt) (sat : Bool) (d a : BitVec 5) : Option FloatOp :=
  some ⟨{ xr := [a], xw := some d, f64 := isDouble F, rounds := true }, d, fun t =>
    let r := toIntFmt T (nextRounding t) sat (decodeNum F (operand F t a))
    (if T.signed then sextW (wordOf r.1) T.width else wordOf r.1, r.2)⟩

/-- Integer to float (R42, R145). -/
def intToFloat (T : IntFmt) (F : Fmt) (d a : BitVec 5) : Option FloatOp :=
  some ⟨{ xr := [a], xw := some d, f64 := isDouble F, rounds := true }, d, fun t =>
    asWord (ofIntFmt F (nextRounding t) (decodeIntFmt T ((getX t a).toNat % 2 ^ T.width)))⟩

/-- FPS, FMA and FCVT (R140 to R145). -/
def floatOf : Instr → Option FloatOp
  | .faddS d a b => float2 .fp32 d a b (addBits .fp32)
  | .fsubS d a b => float2 .fp32 d a b (subBits .fp32)
  | .fmulS d a b => float2 .fp32 d a b (mulBits .fp32)
  | .fdivS d a b => float2 .fp32 d a b (divBits .fp32)
  | .fsqrtS d a => float1 false .fp32 d a (sqrtBits .fp32)
  | .fminS d a b => floatSelect .fp32 d a b (minMaxNum .fp32 false)
  | .fmaxS d a b => floatSelect .fp32 d a b (minMaxNum .fp32 true)
  | .fsgnjS d a b => floatSelect .fp32 d a b fun x y => (x % fmtSign .fp32 + y / fmtSign .fp32 % 2 * fmtSign .fp32, 0)
  | .fsgnjnS d a b => floatSelect .fp32 d a b fun x y => (x % fmtSign .fp32 + (1 - y / fmtSign .fp32 % 2) * fmtSign .fp32, 0)
  | .fsgnjxS d a b => floatSelect .fp32 d a b fun x y =>
      (x % fmtSign .fp32 + (x / fmtSign .fp32 % 2 + y / fmtSign .fp32 % 2) % 2 * fmtSign .fp32, 0)
  | .fclassS d a => floatSelect .fp32 d a a fun x _ => (classMask .fp32 x, 0)
  | .fmaddS d a b c => float3 .fp32 false false d a b c
  | .fmsubS d a b c => float3 .fp32 false true d a b c
  | .fnmaddS d a b c => float3 .fp32 true true d a b c
  | .fnmsubS d a b c => float3 .fp32 true false d a b c
  | .faddD d a b => float2 .fp64 d a b (addBits .fp64)
  | .fsubD d a b => float2 .fp64 d a b (subBits .fp64)
  | .fmulD d a b => float2 .fp64 d a b (mulBits .fp64)
  | .fdivD d a b => float2 .fp64 d a b (divBits .fp64)
  | .fsqrtD d a => float1 true .fp64 d a (sqrtBits .fp64)
  | .fminD d a b => floatSelect .fp64 d a b (minMaxNum .fp64 false)
  | .fmaxD d a b => floatSelect .fp64 d a b (minMaxNum .fp64 true)
  | .fsgnjD d a b => floatSelect .fp64 d a b fun x y => (x % fmtSign .fp64 + y / fmtSign .fp64 % 2 * fmtSign .fp64, 0)
  | .fsgnjnD d a b => floatSelect .fp64 d a b fun x y => (x % fmtSign .fp64 + (1 - y / fmtSign .fp64 % 2) * fmtSign .fp64, 0)
  | .fsgnjxD d a b => floatSelect .fp64 d a b fun x y =>
      (x % fmtSign .fp64 + (x / fmtSign .fp64 % 2 + y / fmtSign .fp64 % 2) % 2 * fmtSign .fp64, 0)
  | .fclassD d a => floatSelect .fp64 d a a fun x _ => (classMask .fp64 x, 0)
  | .fmaddD d a b c => float3 .fp64 false false d a b c
  | .fmsubD d a b c => float3 .fp64 false true d a b c
  | .fnmaddD d a b c => float3 .fp64 true true d a b c
  | .fnmsubD d a b c => float3 .fp64 true false d a b c
  | .fcvtDS d a => float1 true .fp32 d a fun r x => convertFloat .fp32 .fp64 r false x
  | .fcvtSD d a => float1 true .fp64 d a fun r x => convertFloat .fp64 .fp32 r false x
  | .fcvtSH d a => float1 false .fp16 d a fun r x => convertFloat .fp16 .fp32 r false x
  | .fcvtHS d a => float1 false .fp32 d a fun r x => convertFloat .fp32 .fp16 r false x
  | .fcvtSB d a => float1 false .bf16 d a fun r x => convertFloat .bf16 .fp32 r false x
  | .fcvtBS d a => float1 false .fp32 d a fun r x => convertFloat .fp32 .bf16 r false x
  | .fcvtDH d a => float1 true .fp16 d a fun r x => convertFloat .fp16 .fp64 r false x
  | .fcvtHD d a => float1 true .fp64 d a fun r x => convertFloat .fp64 .fp16 r false x
  | .fcvtWS d a => floatToInt .fp32 ⟨32, true⟩ false d a
  | .fcvtWSSat d a => floatToInt .fp32 ⟨32, true⟩ true d a
  | .fcvtSW d a => intToFloat ⟨32, true⟩ .fp32 d a
  | .fcvtWuS d a => floatToInt .fp32 ⟨32, false⟩ false d a
  | .fcvtWuSSat d a => floatToInt .fp32 ⟨32, false⟩ true d a
  | .fcvtSWu d a => intToFloat ⟨32, false⟩ .fp32 d a
  | .fcvtLS d a => floatToInt .fp32 ⟨64, true⟩ false d a
  | .fcvtLSSat d a => floatToInt .fp32 ⟨64, true⟩ true d a
  | .fcvtSL d a => intToFloat ⟨64, true⟩ .fp32 d a
  | .fcvtLuS d a => floatToInt .fp32 ⟨64, false⟩ false d a
  | .fcvtLuSSat d a => floatToInt .fp32 ⟨64, false⟩ true d a
  | .fcvtSLu d a => intToFloat ⟨64, false⟩ .fp32 d a
  | .fcvtWD d a => floatToInt .fp64 ⟨32, true⟩ false d a
  | .fcvtWDSat d a => floatToInt .fp64 ⟨32, true⟩ true d a
  | .fcvtDW d a => intToFloat ⟨32, true⟩ .fp64 d a
  | .fcvtWuD d a => floatToInt .fp64 ⟨32, false⟩ false d a
  | .fcvtWuDSat d a => floatToInt .fp64 ⟨32, false⟩ true d a
  | .fcvtDWu d a => intToFloat ⟨32, false⟩ .fp64 d a
  | .fcvtLD d a => floatToInt .fp64 ⟨64, true⟩ false d a
  | .fcvtLDSat d a => floatToInt .fp64 ⟨64, true⟩ true d a
  | .fcvtDL d a => intToFloat ⟨64, true⟩ .fp64 d a
  | .fcvtLuD d a => floatToInt .fp64 ⟨64, false⟩ false d a
  | .fcvtLuDSat d a => floatToInt .fp64 ⟨64, false⟩ true d a
  | .fcvtDLu d a => intToFloat ⟨64, false⟩ .fp64 d a
  | _ => none

/-- The thread after a floating-point instruction of the table: its draw taken where it rounds, and its result written. -/
def floated (c : FloatOp) (t : Thread) : Thread :=
  setX (if c.uses.rounds then takeDraws t 1 else t) c.dest (c.value t).1

/-! ## Floating-point instructions -/

/-- R37, R91: under a reserved rounding mode an instruction that rounds traps BAD_RND and has no other effect. -/
def ReservedRounding : Prop :=
  ∀ (i : Instr) (c : FloatOp) (s : State), floatOf i = some c → c.uses.rounds = true →
    usesDeclared s c.uses = true → (c.uses.f64 = true → coreIndex s.cur.1 = 0) → (curThread s).csr.rnd = 7 →
    exec i s = .next (takeTrap s (curRef s) (curThread s).pc causeBadRnd (wordOf s.iword.toNat))

/-- R88: an FP64 instruction on a core without the F64 extension traps EXT_ABSENT in the message slot and in a trap handler;
elsewhere its thread migrates to the core that `f64Target` chooses, or traps EXT_ABSENT where there is none. -/
def DoubleElsewhere : Prop :=
  ∀ (i : Instr) (c : FloatOp) (s : State), floatOf i = some c → c.uses.f64 = true → coreIndex s.cur.1 ≠ 0 →
    usesDeclared s c.uses = true →
    let absent := takeTrap s (curRef s) (curThread s).pc causeExtAbsent (wordOf s.iword.toNat)
    ((inMsgSlot s = true ∨ (curThread s).csr.tm = true ∨ f64Target s = none) → exec i s = .next absent)
    ∧ (∀ k, inMsgSlot s = false → (curThread s).csr.tm = false → f64Target s = some k → canLeave (curThread s) = true →
      exec i s = .next (send (putThread s (parkThread (curThread s) (.migrate k true) 4)) (.migrant (curRef s) k)))

/-! ## Guards, as the rules give them -/

/-- An instruction that writes a guard: what it uses, the guard, the mask it writes and the flags it raises. -/
structure GuardOp where
  uses : Uses
  dest : BitVec 3
  value : Thread → BitVec 8 × FFlags

/-- The mask of a guard (R107). -/
def mask (t : Thread) (g : BitVec 3) : BitVec 8 := (getG t g).mask

/-- A compare's result combined with the guard by k: 0 set, 1 and, 2 or, 3 and-not (R112). -/
def combined (t : Thread) (g : BitVec 3) (k : BitVec 2) (m : BitVec 8) : BitVec 8 :=
  if k = 0 then m else if k = 1 then mask t g &&& m else if k = 2 then mask t g ||| m else mask t g &&& ~~~m

/-- A scalar condition as a mask: 0xFF or 0 (R112). -/
def truth (b : Bool) : BitVec 8 := if b then 0xFF else 0

/-- Two registers, and a register with an immediate (R113). -/
def compare2 (g : BitVec 3) (k : BitVec 2) (a b : BitVec 5) (c : Word → Word → Bool) : Option GuardOp :=
  some ⟨{ xr := [a, b], gs := g :: if k = 0 then [] else [g] }, g, fun t => (combined t g k (truth (c (getX t a) (getX t b))), 0)⟩
def compareI (g : BitVec 3) (k : BitVec 2) (a : BitVec 5) (i : BitVec 12) (c : Word → Word → Bool) : Option GuardOp :=
  some ⟨{ xr := [a], gs := g :: if k = 0 then [] else [g] }, g, fun t => (combined t g k (truth (c (getX t a) (i.signExtend 64))), 0)⟩

/-- Two floating values: the relation on decoded numbers, and NV for a signalling NaN, or for any NaN where `quiet` is
false (R113). -/
def compareF (F : Fmt) (quiet : Bool) (g : BitVec 3) (k : BitVec 2) (a b : BitVec 5) (c : Bool → Int → Bool) : Option GuardOp :=
  some ⟨{ xr := [a, b], gs := g :: (if k = 0 then [] else [g]), f64 := isDouble F }, g, fun t =>
    let p := decodeNum F (operand F t a)
    let q := decodeNum F (operand F t b)
    let nan := numIsNaN p || numIsNaN q
    (combined t g k (truth (c nan (cmpNum p q))), raiseIf (if quiet then numIsSNaN p || numIsSNaN q else nan) flagNV)⟩

/-- A mask operation on guards, on all eight bits (R114). -/
def guards2 (d a b : BitVec 3) (f : BitVec 8 → BitVec 8 → BitVec 8) : Option GuardOp :=
  some ⟨{ gs := [d, a, b] }, d, fun t => (f (mask t a) (mask t b), 0)⟩

/-- CMP, CMPI and the mask operations (R112 to R114). -/
def guardOf : Instr → Option GuardOp
  | .cmpEq g k a b => compare2 g k a b fun x y => x == y
  | .cmpNe g k a b => compare2 g k a b fun x y => x != y
  | .cmpLt g k a b => compare2 g k a b fun x y => decide (x.toInt < y.toInt)
  | .cmpGe g k a b => compare2 g k a b fun x y => decide (y.toInt ≤ x.toInt)
  | .cmpLtu g k a b => compare2 g k a b fun x y => decide (x.toNat < y.toNat)
  | .cmpGeu g k a b => compare2 g k a b fun x y => decide (y.toNat ≤ x.toNat)
  | .cmpTst g k a b => compare2 g k a b fun x y => x &&& y != 0
  | .cmpTstz g k a b => compare2 g k a b fun x y => x &&& y == 0
  | .cmpiEq g k a i => compareI g k a i fun x y => x == y
  | .cmpiNe g k a i => compareI g k a i fun x y => x != y
  | .cmpiLt g k a i => compareI g k a i fun x y => decide (x.toInt < y.toInt)
  | .cmpiGe g k a i => compareI g k a i fun x y => decide (y.toInt ≤ x.toInt)
  | .cmpiLtu g k a i => compareI g k a i fun x y => decide (x.toNat < y.toNat)
  | .cmpiGeu g k a i => compareI g k a i fun x y => decide (y.toNat ≤ x.toNat)
  | .cmpiTst g k a i => compareI g k a i fun x y => x &&& y != 0
  | .cmpiTstz g k a i => compareI g k a i fun x y => x &&& y == 0
  | .cmpFeqS g k a b => compareF .fp32 true g k a b fun nan c => !nan && c == 0
  | .cmpFltS g k a b => compareF .fp32 false g k a b fun nan c => !nan && decide (c < 0)
  | .cmpFleS g k a b => compareF .fp32 false g k a b fun nan c => !nan && decide (c ≤ 0)
  | .cmpFunS g k a b => compareF .fp32 true g k a b fun nan _ => nan
  | .cmpFeqD g k a b => compareF .fp64 true g k a b fun nan c => !nan && c == 0
  | .cmpFltD g k a b => compareF .fp64 false g k a b fun nan c => !nan && decide (c < 0)
  | .cmpFleD g k a b => compareF .fp64 false g k a b fun nan c => !nan && decide (c ≤ 0)
  | .cmpFunD g k a b => compareF .fp64 true g k a b fun nan _ => nan
  | .gand d a b => guards2 d a b fun x y => x &&& y
  | .gor d a b => guards2 d a b fun x y => x ||| y
  | .gxor d a b => guards2 d a b fun x y => x ^^^ y
  | .gandn d a b => guards2 d a b fun x y => x &&& ~~~y
  | .gnot d a => guards2 d a a fun x _ => ~~~x
  | .gset d a => some ⟨{ xr := [a], gs := [d] }, d, fun t => ((getX t a).setWidth 8, 0)⟩
  | _ => none

/-- The thread after its guard is written: RESOLVED, with the mask; `g7` keeps its own (R107). -/
def guarded (c : GuardOp) (t : Thread) : Thread := setG t c.dest (c.value t).1

/-! ## Guard instructions -/

/-- R112 to R114, R107: every instruction of the table completes where nothing stands before it and no flag that it raises is
enabled to trap: its guard is RESOLVED with the mask of its row, a write to `g7` is discarded, `FFLAGS` accrues its flags, the
pc moves by 4, and nothing else changes. -/
def GuardValue : Prop :=
  ∀ (i : Instr) (c : GuardOp) (s : State), guardOf i = some c → Runs s c.uses →
    Untrapped s (c.value (curThread s)).2 →
    exec i s = .next (flagged s 4 (guarded c (curThread s)) (c.value (curThread s)).2)

/-- R107: `g7` is always RESOLVED with mask 0xFF; every write to it, by an instruction or by an asynchronous producer, is
discarded. -/
def GuardSeven : Prop :=
  (∀ t : Thread, getG t 7 = ⟨false, 0xFF⟩)
  ∧ (∀ (t : Thread) (m : BitVec 8), setG t 7 m = t ∧ pendG t 7 = t)
  ∧ (∀ (t : Thread) (ok : Bool), getG (resolveG t 7 ok) 7 = ⟨false, 0xFF⟩)
  ∧ (∀ (t : Thread) (g h : BitVec 3) (m : BitVec 8), h ≠ g → getG (setG t g m) h = getG t h)

/-- R114: GWAIT of a RESOLVED guard has no effect but to move on. -/
def GuardWaitOver : Prop :=
  ∀ (a : BitVec 3) (s : State), (getG (curThread s) a).pending = false → exec (.gwait a) s = .next (moved s 4 (curThread s))

/-! ## Branches and jumps -/

/-- The conditions of BC (R113, R115). -/
def branchOf : Instr → Option (BitVec 5 × BitVec 5 × BitVec 12 × (Word → Word → Bool))
  | .bcEq a b o => some (a, b, o, fun x y => x == y)
  | .bcNe a b o => some (a, b, o, fun x y => x != y)
  | .bcLt a b o => some (a, b, o, fun x y => decide (x.toInt < y.toInt))
  | .bcGe a b o => some (a, b, o, fun x y => decide (y.toInt ≤ x.toInt))
  | .bcLtu a b o => some (a, b, o, fun x y => decide (x.toNat < y.toNat))
  | .bcGeu a b o => some (a, b, o, fun x y => decide (y.toNat ≤ x.toNat))
  | _ => none

/-- R115: BC continues at the pc plus twice its offset where its condition holds, and otherwise moves on by 4; nothing else
changes. -/
def BranchResult : Prop :=
  ∀ (i : Instr) (a b : BitVec 5) (o : BitVec 12) (c : Word → Word → Bool) (s : State), branchOf i = some (a, b, o, c) →
    Runs s { xr := [a, b] } →
    let t := curThread s
    exec i s = .next (if c (getX t a) (getX t b) then jumped s t (t.pc + o.signExtend 64 * 2) else moved s 4 t)

/-- R116 to R118: the jumps. JAL and JALR write the address of the next instruction, JALR forming its target first; PTB and
PTBR prepare a target register; BTA and CALLT continue at one, CALLT linking; a target has bit 0 clear. -/
def JumpResult : Prop :=
  ∀ (s : State) (d a : BitVec 5) (tb : BitVec 2) (o : BitVec 20) (i : BitVec 15),
    let t := curThread s
    (Runs s { xw := some d } → exec (.jal d o) s = .next (jumped s (setX t d (t.pc + 4)) (evenPc (t.pc + o.signExtend 64 * 2))))
    ∧ (Runs s { xr := [a], xw := some d } →
      exec (.jalr d a i) s = .next (jumped s (setX t d (t.pc + 4)) (evenPc (getX t a + i.signExtend 64))))
    ∧ exec (.ptb tb o) s = .next (moved s 4 (setTb t tb (evenPc (t.pc + o.signExtend 64 * 2))))
    ∧ (Runs s { xr := [a] } → exec (.ptbr tb a) s = .next (moved s 4 (setTb t tb (evenPc (getX t a)))))
    ∧ exec (.bta tb) s = .next (jumped s t (getTb t tb))
    ∧ (Runs s { xw := some d } → exec (.callt d tb) s = .next (jumped s (setX t d (t.pc + 4)) (getTb t tb)))

/-- R118, R82: BT and BTN, in both lengths, continue at a target register where mask bit 0 of a RESOLVED guard is 1, or 0, and
otherwise move on by their length. -/
def GuardedBranch : Prop :=
  ∀ (s : State) (tb : BitVec 2) (g : BitVec 3), (getG (curThread s) g).pending = false →
    let t := curThread s
    let on := (mask t g).getLsbD 0
    exec (.bt tb g) s = .next (if on then jumped s t (getTb t tb) else moved s 4 t)
    ∧ exec (.btn tb g) s = .next (if on then moved s 4 t else jumped s t (getTb t tb))
    ∧ exec (.btC tb g) s = .next (if on then jumped s t (getTb t tb) else moved s 2 t)
    ∧ exec (.btnC tb g) s = .next (if on then moved s 2 t else jumped s t (getTb t tb))

/-- R108, R118: on a PENDING guard the guarded branches park, to be issued again. -/
def BranchWaits : Prop :=
  ∀ (s : State) (tb : BitVec 2) (g : BitVec 3), inMsgSlot s = false → (getG (curThread s) g).pending = true →
    let waits (len : Nat) : Host.Outcome State Fault Refusal := .next (putThread s (parkThread (curThread s) .retry len))
    exec (.bt tb g) s = waits 4 ∧ exec (.btn tb g) s = waits 4 ∧ exec (.btC tb g) s = waits 2 ∧ exec (.btnC tb g) s = waits 2

/-- R115, R116, R118, R91: a branch or jump that names an undeclared register traps UNDECLARED_REG with no other effect. -/
def BranchUndeclared : Prop :=
  ∀ (s : State) (i : Instr) (d a b : BitVec 5) (tb : BitVec 2) (o : BitVec 12) (o' : BitVec 20) (n : BitVec 15)
    (c : Word → Word → Bool),
    let stop := Host.Outcome.next (takeTrap s (curRef s) (curThread s).pc causeUndeclaredReg (wordOf s.iword.toNat))
    (branchOf i = some (a, b, o, c) → usesDeclared s { xr := [a, b] } = false → exec i s = stop)
    ∧ (usesDeclared s { xw := some d } = false → exec (.jal d o') s = stop ∧ exec (.callt d tb) s = stop)
    ∧ (usesDeclared s { xr := [a], xw := some d } = false → exec (.jalr d a n) s = stop)
    ∧ (usesDeclared s { xr := [a] } = false → exec (.ptbr tb a) s = stop)

/-- R115 to R118: the words of the branches and jumps, with the fields from bit 0 up, and the words of their opcodes that trap. -/
def ControlWords : Prop :=
  ∀ (a b d : BitVec 5) (o : BitVec 12) (o' : BitVec 20) (n : BitVec 15) (tb zz : BitVec 2) (g zzz : BitVec 3) (fn : BitVec 10),
    let bc (cc : Nat) := decode (wordFrom [(1, 1), (0x0F, 6), field a, field b, (cc, 3), field o])
    let br (fs : List (Nat × Nat)) := decode (wordFrom ([(1, 1), (0x13, 6)] ++ fs))
    let zeros (p : Prop) [Decidable p] (i : Instr) : Except Illegal Instr := if p then .ok i else .error .field
    bc 0 = .ok (.bcEq a b o) ∧ bc 1 = .ok (.bcNe a b o) ∧ bc 2 = .ok (.bcLt a b o) ∧ bc 3 = .ok (.bcGe a b o)
    ∧ bc 4 = .ok (.bcLtu a b o) ∧ bc 5 = .ok (.bcGeu a b o) ∧ bc 6 = .error .func ∧ bc 7 = .error .func
    ∧ decode (wordFrom [(1, 1), (0x10, 6), field d, field o']) = .ok (.jal d o')
    ∧ decode (wordFrom [(1, 1), (0x11, 6), field d, field a, field n]) = .ok (.jalr d a n)
    ∧ decode (wordFrom [(1, 1), (0x12, 6), field tb, field zzz, field o']) = zeros (zzz = 0) (.ptb tb o')
    ∧ br [field tb, field zzz, field g, field zz, field b, (0, 10)] = zeros (zzz = 0 ∧ zz = 0 ∧ b = 0) (.bt tb g)
    ∧ br [field tb, field zzz, field g, field zz, field b, (1, 10)] = zeros (zzz = 0 ∧ zz = 0 ∧ b = 0) (.btn tb g)
    ∧ br [field tb, field zzz, field a, field b, (2, 10)] = zeros (zzz = 0 ∧ a = 0 ∧ b = 0) (.bta tb)
    ∧ br [field tb, field zzz, field a, field b, (3, 10)] = zeros (zzz = 0 ∧ b = 0) (.ptbr tb a)
    ∧ br [field d, field tb, field zzz, field b, (4, 10)] = zeros (zzz = 0 ∧ b = 0) (.callt d tb)
    ∧ (5 ≤ fn.toNat → br [field d, field a, field b, field fn] = .error .func)

/-! ## Vector instructions, as the rules give them -/

/-- An instruction that computes the lanes of one v register: its length, what it uses, its destination, the lane width, the
guard whose mask enables lanes (R173), whether its enabled lanes round under `RND` and take draws (R178), and a lane's value. -/
structure VecOp where
  len : Nat
  uses : Uses
  dest : BitVec 5
  width : Nat
  guard : BitVec 3
  draws : Bool
  lane : Thread → Nat → Rounding → Nat × FFlags

/-- Lane i of v[a]. -/
def laneOf (w : Nat) (t : Thread) (a : BitVec 5) (i : Nat) : Nat := (getV t a).toNat / 2 ^ (w * i) % 2 ^ w

/-- The lane width of a VINT type code: 32, 16 or 8 (R176). -/
def intWidth (t : BitVec 2) : Nat := if t = 0 then 32 else if t = 1 then 16 else 8

/-- A lane as an integer, and an integer's low bits as a lane (R172). -/
def asInt (w n : Nat) : Int := if n < 2 ^ (w - 1) then n else (n : Int) - 2 ^ w
def asLane (w : Nat) (n : Int) : Nat := (n % 2 ^ w).toNat

def intLane2 (len : Nat) (t : BitVec 2) (d a b : BitVec 5) (m : BitVec 3) (f : Nat → Nat → Nat → Nat) : Option VecOp :=
  some ⟨len, { vs := [d.toNat, a.toNat, b.toNat], gs := [m] }, d, intWidth t, m, false, fun th i _ =>
    (f (intWidth t) (laneOf (intWidth t) th a i) (laneOf (intWidth t) th b i), 0)⟩
def intLane1 (t : BitVec 2) (d a : BitVec 5) (m : BitVec 3) (f : Nat → Nat → Nat) : Option VecOp :=
  some ⟨4, { vs := [d.toNat, a.toNat], gs := [m] }, d, intWidth t, m, false, fun th i _ =>
    (f (intWidth t) (laneOf (intWidth t) th a i), 0)⟩
def fltLane2 (len : Nat) (F : Fmt) (draws : Bool) (d a b : BitVec 5) (m : BitVec 3) (f : Rounding → Nat → Nat → Nat × FFlags) :
    Option VecOp :=
  some ⟨len, { vs := [d.toNat, a.toNat, b.toNat], gs := [m], rounds := draws, f64 := isDouble F }, d, fmtWidth F, m, draws,
    fun th i r => f r (laneOf (fmtWidth F) th a i) (laneOf (fmtWidth F) th b i)⟩
def fltLane1 (F : Fmt) (draws : Bool) (d a : BitVec 5) (m : BitVec 3) (f : Rounding → Nat → Nat × FFlags) : Option VecOp :=
  some ⟨4, { vs := [d.toNat, a.toNat], gs := [m], rounds := draws, f64 := isDouble F }, d, fmtWidth F, m, draws,
    fun th i r => f r (laneOf (fmtWidth F) th a i)⟩
def fltLane3 (F : Fmt) (negProduct negAddend : Bool) (d a b c : BitVec 5) (m : BitVec 3) : Option VecOp :=
  some ⟨4, { vs := [d.toNat, a.toNat, b.toNat, c.toNat], gs := [m], rounds := true, f64 := isDouble F }, d, fmtWidth F, m, true,
    fun th i r => fmaBits F negProduct negAddend r (laneOf (fmtWidth F) th a i) (laneOf (fmtWidth F) th b i) (laneOf (fmtWidth F) th c i)⟩

/-- 32-bit lanes moved about (R182). -/
def moveLane (uses : Uses) (d : BitVec 5) (m : BitVec 3) (f : Thread → Nat → Nat) : Option VecOp :=
  some ⟨4, uses, d, 32, m, false, fun th i _ => (f th i, 0)⟩

/-- VINT, VFLT, VFMA, VX2 and the lane moves of VLANE (R176 to R180, R182), and the compact forms (R82). -/
def vecOf : Instr → Option VecOp
  | .vadd d a b m t => intLane2 4 t d a b m fun w p q => (p + q) % 2 ^ w
  | .vsub d a b m t => intLane2 4 t d a b m fun w p q => (p + 2 ^ w - q) % 2 ^ w
  | .vmul d a b m t => intLane2 4 t d a b m fun w p q => p * q % 2 ^ w
  | .vmulh d a b m t => intLane2 4 t d a b m fun w p q => asLane w (asInt w p * asInt w q / 2 ^ w)
  | .vmulhn d a b m t => intLane2 4 t d a b m fun w p q => p * q / 2 ^ w
  | .vand d a b m t => intLane2 4 t d a b m fun _ p q => p &&& q
  | .vor d a b m t => intLane2 4 t d a b m fun _ p q => p ||| q
  | .vxor d a b m t => intLane2 4 t d a b m fun _ p q => p ^^^ q
  | .vandn d a b m t => intLane2 4 t d a b m fun w p q => p &&& (2 ^ w - 1 - q)
  | .vshl d a b m t => intLane2 4 t d a b m fun w p q => p * 2 ^ (q % w) % 2 ^ w
  | .vshr d a b m t => intLane2 4 t d a b m fun w p q => p / 2 ^ (q % w)
  | .vsra d a b m t => intLane2 4 t d a b m fun w p q => asLane w (asInt w p / 2 ^ (q % w))
  | .vmin d a b m t => intLane2 4 t d a b m fun w p q => if asInt w q < asInt w p then q else p
  | .vmax d a b m t => intLane2 4 t d a b m fun w p q => if asInt w p < asInt w q then q else p
  | .vminn d a b m t => intLane2 4 t d a b m fun _ p q => Nat.min p q
  | .vmaxn d a b m t => intLane2 4 t d a b m fun _ p q => Nat.max p q
  | .vadds d a b m t => intLane2 4 t d a b m fun w p q => asLane w (max (-(2 ^ (w - 1))) (min (2 ^ (w - 1) - 1) (asInt w p + asInt w q)))
  | .vsubs d a b m t => intLane2 4 t d a b m fun w p q => asLane w (max (-(2 ^ (w - 1))) (min (2 ^ (w - 1) - 1) (asInt w p - asInt w q)))
  | .vabs d a m t => intLane1 t d a m fun w p => asLane w (asInt w p).natAbs
  | .vneg d a m t => intLane1 t d a m fun w p => (2 ^ w - p) % 2 ^ w
  | .vaddf d a b m p => fltLane2 4 (if p = 0 then .fp32 else .fp16) true d a b m (addBits (if p = 0 then .fp32 else .fp16))
  | .vsubf d a b m p => fltLane2 4 (if p = 0 then .fp32 else .fp16) true d a b m (subBits (if p = 0 then .fp32 else .fp16))
  | .vmulf d a b m p => fltLane2 4 (if p = 0 then .fp32 else .fp16) true d a b m (mulBits (if p = 0 then .fp32 else .fp16))
  | .vdivf d a b m p => fltLane2 4 (if p = 0 then .fp32 else .fp16) true d a b m (divBits (if p = 0 then .fp32 else .fp16))
  | .vminf d a b m p => fltLane2 4 (if p = 0 then .fp32 else .fp16) false d a b m fun _ => minMaxNum (if p = 0 then .fp32 else .fp16) false
  | .vmaxf d a b m p => fltLane2 4 (if p = 0 then .fp32 else .fp16) false d a b m fun _ => minMaxNum (if p = 0 then .fp32 else .fp16) true
  | .vabsf d a m p => fltLane1 (if p = 0 then .fp32 else .fp16) false d a m fun _ x => (x % fmtSign (if p = 0 then .fp32 else .fp16), 0)
  | .vnegf d a m p => fltLane1 (if p = 0 then .fp32 else .fp16) false d a m fun _ x => (signBits (if p = 0 then .fp32 else .fp16) 1 x x, 0)
  | .vsqrt d a m p => fltLane1 (if p = 0 then .fp32 else .fp16) true d a m (sqrtBits (if p = 0 then .fp32 else .fp16))
  | .vrcp d a m p => fltLane1 (if p = 0 then .fp32 else .fp16) true d a m (elemLane (if p = 0 then .fp32 else .fp16) rcpNum)
  | .vrsq d a m p => fltLane1 (if p = 0 then .fp32 else .fp16) true d a m (elemLane (if p = 0 then .fp32 else .fp16) rsqNum)
  | .vexp2 d a m p => fltLane1 (if p = 0 then .fp32 else .fp16) true d a m (elemLane (if p = 0 then .fp32 else .fp16) exp2Num)
  | .vlog2 d a m p => fltLane1 (if p = 0 then .fp32 else .fp16) true d a m (elemLane (if p = 0 then .fp32 else .fp16) log2Num)
  | .vsinpi d a m p => fltLane1 (if p = 0 then .fp32 else .fp16) true d a m (elemLane (if p = 0 then .fp32 else .fp16) sinpiNum)
  | .vcospi d a m p => fltLane1 (if p = 0 then .fp32 else .fp16) true d a m (elemLane (if p = 0 then .fp32 else .fp16) cospiNum)
  | .vfloor d a m p => fltLane1 (if p = 0 then .fp32 else .fp16) false d a m fun _ => integralLane (if p = 0 then .fp32 else .fp16) false rdn
  | .vceil d a m p => fltLane1 (if p = 0 then .fp32 else .fp16) false d a m fun _ => integralLane (if p = 0 then .fp32 else .fp16) false rup
  | .vtrunc d a m p => fltLane1 (if p = 0 then .fp32 else .fp16) false d a m fun _ => integralLane (if p = 0 then .fp32 else .fp16) false rtz
  | .vrint d a m p => fltLane1 (if p = 0 then .fp32 else .fp16) true d a m (integralLane (if p = 0 then .fp32 else .fp16) true)
  | .vclass d a m p => fltLane1 (if p = 0 then .fp32 else .fp16) false d a m fun _ x => (classMask (if p = 0 then .fp32 else .fp16) x, 0)
  | .vaddd d a b m => fltLane2 4 .fp64 true d a b m (addBits .fp64)
  | .vsubd d a b m => fltLane2 4 .fp64 true d a b m (subBits .fp64)
  | .vmuld d a b m => fltLane2 4 .fp64 true d a b m (mulBits .fp64)
  | .vdivd d a b m => fltLane2 4 .fp64 true d a b m (divBits .fp64)
  | .vmind d a b m => fltLane2 4 .fp64 false d a b m fun _ => minMaxNum .fp64 false
  | .vmaxd d a b m => fltLane2 4 .fp64 false d a b m fun _ => minMaxNum .fp64 true
  | .vsqrtd d a m => fltLane1 .fp64 true d a m (sqrtBits .fp64)
  | .vfmad d a b m => fltLane3 .fp64 false false d a b d m
  | .vfma d a b c m => fltLane3 .fp32 false false d a b c m
  | .vfms d a b c m => fltLane3 .fp32 false true d a b c m
  | .vfnma d a b c m => fltLane3 .fp32 true true d a b c m
  | .vfnms d a b c m => fltLane3 .fp32 true false d a b c m
  | .vfmah d a b c m => fltLane3 .fp16 false false d a b c m
  | .vdot4i d a b c m => some ⟨4, { vs := [d.toNat, a.toNat, b.toNat, c.toNat], gs := [m] }, d, 32, m, false, fun th i _ =>
      (asLane 32 (laneOf 32 th c i + ((List.range 4).map fun j =>
        asInt 8 (laneOf 8 th a (4 * i + j)) * asInt 8 (laneOf 8 th b (4 * i + j))).sum), 0)⟩
  | .vdot4n d a b c m => some ⟨4, { vs := [d.toNat, a.toNat, b.toNat, c.toNat], gs := [m] }, d, 32, m, false, fun th i _ =>
      (asLane 32 (laneOf 32 th c i + ((List.range 4).map fun j =>
        (laneOf 8 th a (4 * i + j) : Int) * laneOf 8 th b (4 * i + j)).sum), 0)⟩
  | .vdot2bf d a b c m => some ⟨4, { vs := [d.toNat, a.toNat, b.toNat, c.toNat], gs := [m], rounds := true }, d, 32, m, true, fun th i r =>
      let h (v : BitVec 5) (j : Nat) := decodeNum .bf16 (laneOf 16 th v j)
      let x := dot2Term r (decodeNum .fp32 (laneOf 32 th c i)) (h a (2 * i)) (h b (2 * i)) (h a (2 * i + 1)) (h b (2 * i + 1))
      roundWith .fp32 r (numExact x.1) x.2⟩
  | .vsel d a b m => moveLane { vs := [d.toNat, a.toNat, b.toNat], gs := [m] } d 7 fun th i =>
      if (mask th m).getLsbD i then laneOf 32 th a i else laneOf 32 th b i
  | .vbcast d a m => moveLane { xr := [a], vs := [d.toNat], gs := [m] } d m fun th _ => fieldOf (getX th a) 0 32
  | .vins d a b m => moveLane { xr := [a, b], vs := [d.toNat], gs := [m] } d m fun th i =>
      if i = fieldOf (getX th b) 0 3 then fieldOf (getX th a) 0 32 else laneOf 32 th d i
  | .vperm d a b m => moveLane { vs := [d.toNat, a.toNat, b.toNat], gs := [m] } d m fun th i => laneOf 32 th a (laneOf 32 th b i % 8)
  | .vshuf d a b m => moveLane { vs := [d.toNat, a.toNat, b.toNat], gs := [m] } d m fun th i =>
      if laneOf 32 th b i % 16 < 8 then laneOf 32 th a (laneOf 32 th b i % 16) else laneOf 32 th d (laneOf 32 th b i % 16 - 8)
  | .vmov d a m => moveLane { vs := [d.toNat, a.toNat], gs := [m] } d m fun th i => laneOf 32 th a i
  | .viota d a m => moveLane { xr := [a], vs := [d.toNat], gs := [m] } d m fun th i => fieldOf (getX th a + wordOf i) 0 32
  | .vmovC d a => some ⟨2, { vs := [d.toNat, a.toNat], gs := [7] }, d, 32, 7, false, fun th i _ => (laneOf 32 th a i, 0)⟩
  | .vaddC d a => intLane2 2 0 d d a 7 fun w p q => (p + q) % 2 ^ w
  | .vsubC d a => intLane2 2 0 d d a 7 fun w p q => (p + 2 ^ w - q) % 2 ^ w
  | .vandC d a => intLane2 2 0 d d a 7 fun _ p q => p &&& q
  | .vorC d a => intLane2 2 0 d d a 7 fun _ p q => p ||| q
  | .vxorC d a => intLane2 2 0 d d a 7 fun _ p q => p ^^^ q
  | .vaddfF32C d a => fltLane2 2 .fp32 true d d a 7 (addBits .fp32)
  | .vaddfF16C d a => fltLane2 2 .fp16 true d d a 7 (addBits .fp16)
  | .vmulfF32C d a => fltLane2 2 .fp32 true d d a 7 (mulBits .fp32)
  | .vmulfF16C d a => fltLane2 2 .fp16 true d d a 7 (mulBits .fp16)
  | _ => none

/-- The register's value, the flags and the number of draws: lanes in rising order, a disabled lane keeping its old bits. -/
def lanesOf (c : VecOp) (t : Thread) : Nat × FFlags × Nat :=
  foldLanes c.width (laneOn c.width (mask t c.guard)) (getV t c.dest) (fun i j => c.lane t i (roundingOf (rndOf t) j)) (256 / c.width)

/-- The thread after its v register is written and its draws are taken. -/
def vectored (c : VecOp) (t : Thread) : Thread :=
  setV (if c.draws then takeDraws t (lanesOf c t).2.2 else t) c.dest (BitVec.ofNat 256 (lanesOf c t).1)

/-! ## Vector instructions -/

/-- R184: VCVT converts n = 256 / max(source, destination width) elements, enabled by the mask bit of their place; the bits of
v[d] above them become zero; a conversion that involves a float rounds under `RND` and takes a draw for each enabled element. -/
def VectorConvert : Prop :=
  ∀ (d a : BitVec 5) (m : BitVec 3) (sat : BitVec 1) (dst src : BitVec 3) (s : State),
    let S := vfmtOf src
    let D := vfmtOf dst
    let float := vfmtFloat S || vfmtFloat D
    let n := 256 / max (vfmtWidth S) (vfmtWidth D)
    let t := curThread s
    let r := foldLanes (vfmtWidth D) (fun i => (mask t m).getLsbD (8 * i / n)) (getV t d)
      (fun i j => vconvert S D (sat == 1) (roundingOf (rndOf t) j) (laneOf (vfmtWidth S) t a i)) n
    Runs s { vs := [d.toNat, a.toNat], gs := [m], rounds := float } → Untrapped s r.2.1 →
    exec (.vcvt d a m sat dst src) s =
      .next (flagged s 4 (setV (if float then takeDraws t r.2.2 else t) d (BitVec.ofNat 256 r.1)) r.2.1)

/-- The conditions of VCMP on lanes of 32 bits, with the flags they raise (R181). -/
def laneTest : Instr → Option (BitVec 3 × BitVec 2 × BitVec 5 × BitVec 5 × BitVec 3 × (Nat → Nat → Bool × FFlags))
  | .vcmpEq g k a b m => some (g, k, a, b, m, fun x y => (intCond 0 (sextW (wordOf x) 32) (sextW (wordOf y) 32), 0))
  | .vcmpNe g k a b m => some (g, k, a, b, m, fun x y => (intCond 1 (sextW (wordOf x) 32) (sextW (wordOf y) 32), 0))
  | .vcmpLt g k a b m => some (g, k, a, b, m, fun x y => (intCond 2 (sextW (wordOf x) 32) (sextW (wordOf y) 32), 0))
  | .vcmpGe g k a b m => some (g, k, a, b, m, fun x y => (intCond 3 (sextW (wordOf x) 32) (sextW (wordOf y) 32), 0))
  | .vcmpLtu g k a b m => some (g, k, a, b, m, fun x y => (intCond 4 (sextW (wordOf x) 32) (sextW (wordOf y) 32), 0))
  | .vcmpGeu g k a b m => some (g, k, a, b, m, fun x y => (intCond 5 (sextW (wordOf x) 32) (sextW (wordOf y) 32), 0))
  | .vcmpFeq g k a b m => some (g, k, a, b, m, floatCond .fp32 0)
  | .vcmpFlt g k a b m => some (g, k, a, b, m, floatCond .fp32 1)
  | .vcmpFle g k a b m => some (g, k, a, b, m, floatCond .fp32 2)
  | .vcmpFun g k a b m => some (g, k, a, b, m, floatCond .fp32 3)
  | _ => none

/-- R181: VCMP writes a guard whose bit i is, for an enabled lane, the condition combined with the guard's old bit by k, and for
a disabled lane 0 under k = 0 and the old bit otherwise; it accrues the flags of the enabled lanes; nothing else changes. -/
def VectorCompare : Prop :=
  ∀ (i : Instr) (g : BitVec 3) (k : BitVec 2) (a b : BitVec 5) (m : BitVec 3) (c : Nat → Nat → Bool × FFlags) (s : State),
    laneTest i = some (g, k, a, b, m, c) → Runs s { vs := [a.toNat, b.toNat], gs := [m, g] } →
    let t := curThread s
    let test (l : Nat) := c (laneOf 32 t a l) (laneOf 32 t b l)
    let fl := ((List.range 8).filter fun l => (mask t m).getLsbD l).foldl (fun f l => f ||| (test l).2) 0
    Untrapped s fl →
    ∃ v : BitVec 8, exec i s = .next (flagged s 4 (setG t g v) fl)
      ∧ ∀ l < 8, v.getLsbD l =
          if (mask t m).getLsbD l then (combined t g k (truth (test l).1)).getLsbD l
          else if k = 0 then false else (mask t g).getLsbD l

/-- R182, R183: the vector instructions that write an x register. VEXT takes the lane that x[b] names, extended by sign;
VREDADDI adds the enabled lanes, each extended by sign; VREDMAXF and VREDMINF select over the enabled lanes from the lowest, a
NaN standing for the canonical one; VREDADDF adds the enabled lanes to −0 in rising order, rounding at each. -/
def VectorReduce : Prop :=
  ∀ (d a b : BitVec 5) (m : BitVec 3) (s : State),
    let t := curThread s
    let on := (List.range 8).filter fun i => (mask t m).getLsbD i
    let lanes := on.map (laneOf 32 t a)
    (Runs s { xr := [b], xw := some d, vs := [a.toNat] } →
      exec (.vext d a b) s = .next (moved s 4 (setX t d (sextW (wordOf (laneOf 32 t a (fieldOf (getX t b) 0 3))) 32))))
    ∧ (Runs s { xw := some d, vs := [a.toNat], gs := [m] } →
      exec (.vredaddi d a m) s = .next (moved s 4 (setX t d
        (lanes.foldl (fun n x => n + sextW (wordOf x) 32) 0))))
    ∧ (∀ isMax : Bool, Runs s { xw := some d, vs := [a.toNat], gs := [m] } →
      let fl := raiseIf (lanes.any fun x => numIsSNaN (decodeNum .fp32 x)) flagNV
      Untrapped s fl →
      exec (if isMax then .vredmaxf d a m else .vredminf d a m) s = .next (flagged s 4 (setX t d (wordOf (match lanes with
        | [] => fmtCanon .fp32
        | x :: r => r.foldl (fun acc y => (minMaxNum .fp32 isMax acc y).1)
            (if numIsNaN (decodeNum .fp32 x) then fmtCanon .fp32 else x)))) fl))
    ∧ (Runs s { xw := some d, vs := [a.toNat], gs := [m], rounds := true } →
      let r := lanes.foldl (fun (acc : Nat × FFlags × Nat) x =>
        let y := addBits .fp32 (roundingOf (rndOf t) acc.2.2) acc.1 x
        (y.1, acc.2.1 ||| y.2, acc.2.2 + 1)) (0x80000000, 0, 0)
      Untrapped s r.2.1 →
      exec (.vredaddf d a m) s = .next (flagged s 4 (setX (takeDraws t r.2.2) d (wordOf r.1)) r.2.1))

/-! ## CSRs -/

/-- The thread may access the CSR: its number is in the table, a write is to no read-only CSR, and `TVEC` and `DEADLINE` are
accessed in system mode (R89, R90, R127). -/
def CsrOpen (s : State) (n : Nat) (write : Bool) : Prop :=
  csrAssigned n = true ∧ (write = true → n < 0x020 ∨ 0x025 < n)
    ∧ ((n = 0x013 ∨ n = 0x030) → (curThread s).csr.sys = true)

/-- R125: CSRR reads; CSRW, CSRS and CSRC give x[d] the old value and write the operand, the OR with it, or the AND with its
complement, of which the CSR's writable fields take their bits; nothing else changes. -/
def CsrAccess : Prop :=
  ∀ (d a : BitVec 5) (c : BitVec 12) (s : State),
    let t := curThread s
    let n := c.toNat
    let old := csrRead s n
    let put (v : Word) := moved s 4 (setX { t with csr := csrWrite (inMsgSlot s) n v t.csr } d old)
    (CsrOpen s n false → Runs s { xw := some d } → exec (.csrr d c) s = .next (moved s 4 (setX t d old)))
    ∧ (CsrOpen s n true → Runs s { xr := [a], xw := some d } →
      exec (.csrw d a c) s = .next (put (getX t a))
      ∧ exec (.csrs d a c) s = .next (put (old ||| getX t a))
      ∧ exec (.csrc d a c) s = .next (put (old &&& ~~~(getX t a))))

/-- R127, R125, R188, R214, R416: the writable fields of a user slot's CSRs; STATUS.SYS can only be cleared; `TRAPCAUSE` takes a value up
to 0xBF, and never comes to hold one above it; a write of any other bit changes nothing. -/
def CsrFields : Prop :=
  ∀ (v : Word) (c : Csrs),
    csrWrite false 0x000 v c = { c with chain := v.getLsbD 1, sys := c.sys && v.getLsbD 2 }
    ∧ csrWrite false 0x001 v c = { c with rnd := v.setWidth 3 }
    ∧ csrWrite false 0x002 v c = { c with fflags := v.setWidth 5 }
    ∧ csrWrite false 0x003 v c = { c with ftrapen := v.setWidth 5 }
    ∧ csrWrite false 0x004 v c = { c with seed := v }
    ∧ csrWrite false 0x005 v c = { c with draw := v }
    ∧ csrWrite false 0x006 v c = { c with stamp := v }
    ∧ csrWrite false 0x007 v c = c
    ∧ csrWrite false 0x008 v c = { c with task := v.setWidth 32 }
    ∧ csrWrite false 0x009 v c = { c with timer := v }
    ∧ csrWrite false 0x00A v c = { c with copyst := (csrWrite false 0x00A v c).copyst }
    ∧ (∀ i < 64, (csrWrite false 0x00A v c).copyst.getLsbD i =
      if i < 32 ∨ i = 35 ∨ 56 ≤ i then v.getLsbD i else c.copyst.getLsbD i)
    ∧ csrWrite false 0x00B v c = { c with matst := (csrWrite false 0x00B v c).matst }
    ∧ (∀ i < 64, (csrWrite false 0x00B v c).matst.getLsbD i =
      if i < 8 ∨ 13 ≤ i ∧ i < 40 then v.getLsbD i else c.matst.getLsbD i)
    ∧ csrWrite false 0x00C v c = c
    ∧ csrWrite false 0x010 v c = { c with trappc := v }
    ∧ ((v.setWidth 8).toNat ≤ 0xBF → csrWrite false 0x011 v c = { c with trapcause := v.setWidth 8 })
    ∧ (c.trapcause.toNat ≤ 0xBF → (csrWrite false 0x011 v c).trapcause.toNat ≤ 0xBF)
    ∧ csrWrite false 0x012 v c = { c with trapval := v }
    ∧ csrWrite false 0x013 v c = { c with tvec := evenPc v }
    ∧ csrWrite false 0x014 v c = { c with tscratch := v }
    ∧ csrWrite false 0x030 v c = { c with deadline := v }
    ∧ csrWrite false 0x031 v c = { c with trailAtoms := v.getLsbD 2 }
    ∧ csrWrite false 0x032 v c = { c with apxctl := v.setWidth 17 }

/-- R127, R87, R357: what the CSRs of a user slot read: the field maps of `STATUS` and `TRAILCTL`, fields extended by zeros, and what is
read of the core and of the context. -/
def CsrReads : Prop :=
  ∀ (s : State) (x : Context), inMsgSlot s = false → getCtx? s (curCtx s) = some x →
    let c := (curThread s).csr
    let bits (l : List Bool) : Word := wordOf (wordFrom (l.map fun b => (b.toNat, 1)))
    csrRead s 0x000 = bits [c.tm, c.chain, c.sys, c.spec] ∧ csrRead s 0x001 = c.rnd.setWidth 64
    ∧ csrRead s 0x002 = c.fflags.setWidth 64 ∧ csrRead s 0x003 = c.ftrapen.setWidth 64 ∧ csrRead s 0x004 = c.seed
    ∧ csrRead s 0x005 = c.draw ∧ csrRead s 0x006 = c.stamp ∧ csrRead s 0x007 = c.specd.setWidth 64
    ∧ csrRead s 0x008 = c.task.setWidth 64 ∧ csrRead s 0x009 = c.timer ∧ csrRead s 0x00A = c.copyst ∧ csrRead s 0x00B = c.matst
    ∧ csrRead s 0x00C = c.amsrc.setWidth 64 ∧ csrRead s 0x010 = c.trappc ∧ csrRead s 0x011 = c.trapcause.setWidth 64 ∧ csrRead s 0x012 = c.trapval
    ∧ csrRead s 0x013 = c.tvec ∧ csrRead s 0x014 = c.tscratch
    ∧ csrRead s 0x020 = wordOf s.cycle ∧ csrRead s 0x021 = wordOf s.cur.2.val ∧ csrRead s 0x022 = wordOf (s.cur.1 % 2 ^ 20)
    ∧ csrRead s 0x023 = (if s.cur.1 % 16 = 0 then 1 else 0) ∧ csrRead s 0x024 = (getCore s s.cur.1).part.setWidth 64
    ∧ csrRead s 0x025 = wordOf (s.cur.1 / 2 ^ 20) ∧ csrRead s 0x030 = c.deadline
    ∧ csrRead s 0x031 = bits [x.trail.mode.testBit 0, x.trail.mode.testBit 1, c.trailAtoms, x.trail.full]
    ∧ csrRead s 0x032 = c.apxctl.setWidth 64

/-- R89, R91: an access to `TVEC` or `DEADLINE` in user mode traps PRIVILEGED and has no other effect. -/
def CsrPrivileged : Prop :=
  ∀ (d a : BitVec 5) (c : BitVec 12) (s : State), c = 0x013 ∨ c = 0x030 → (curThread s).csr.sys = false →
    let stop := Host.Outcome.next (takeTrap s (curRef s) (curThread s).pc causePrivileged (wordOf s.iword.toNat))
    exec (.csrr d c) s = stop ∧ exec (.csrw d a c) s = stop ∧ exec (.csrs d a c) s = stop ∧ exec (.csrc d a c) s = stop

/-- The numbers of the table of R127. -/
def csrTable : List Nat :=
  [0x000, 0x001, 0x002, 0x003, 0x004, 0x005, 0x006, 0x007, 0x008, 0x009, 0x00A, 0x00B, 0x00C, 0x010, 0x011, 0x012, 0x013, 0x014,
    0x020, 0x021, 0x022, 0x023, 0x024, 0x025, 0x030, 0x031, 0x032]

/-! ## Traps -/

/-- R415: TRAP n raises SYSCALL n with `TRAPVAL` x[a] and `TRAPPC` the next instruction; BRK raises BREAKPOINT at itself with
`TRAPVAL` 0; ERET returns: TM is clear, CHAIN is what was saved, the pc is `TRAPPC` with bit 0 clear; NOP moves on. -/
def SystemEffect : Prop :=
  ∀ (a : BitVec 5) (n : BitVec 4) (s : State),
    let t := curThread s
    (Runs s { xr := [a] } → exec (.trap a n) s =
      .next (takeTrap (moved s 4 t) (curRef s) (t.pc + 4) (causeSyscall n.toNat) (getX t a)))
    ∧ exec .brk s = .next (takeTrap s (curRef s) t.pc causeBreakpoint 0)
    ∧ (inMsgSlot s = false → t.csr.tm = true → exec .eret s = .next (putThread s { t with
        csr := { t.csr with tm := false, chain := t.savedChain }, pc := evenPc t.csr.trappc, phase := .run }))
    ∧ exec .nop s = .next (moved s 4 t)

/-- R415: ERET outside a trap handler traps NOT_IN_TRAP; in the message slot it is SLOT_FORBIDDEN. -/
def EretOutside : Prop :=
  ∀ s : State,
    (inMsgSlot s = false → (curThread s).csr.tm = false → exec .eret s =
      .next (takeTrap s (curRef s) (curThread s).pc causeNotInTrap (wordOf s.iword.toNat)))
    ∧ (inMsgSlot s = true → exec .eret s =
      .next (takeTrap s (curRef s) (curThread s).pc causeSlotForbidden (wordOf s.iword.toNat)))

/-- R89: a system-mode instruction in user mode traps PRIVILEGED before any other check of rows 4 to 8, with no effect. -/
def PrivilegedTrap : Prop :=
  ∀ (d a b : BitVec 5) (g : BitVec 3) (s : State), (curThread s).csr.sys = false →
    let stop := Host.Outcome.next (takeTrap s (curRef s) (curThread s).pc causePrivileged (wordOf s.iword.toNat))
    exec (.pwr d a) s = stop ∧ exec (.fbpop g a) s = stop ∧ exec (.replay a) s = stop ∧ exec (.tlbinv a b) s = stop
      ∧ exec (.pgpin d a) s = stop ∧ exec (.pgunpin d a) s = stop

/-! ## The segment table, power and fault service -/

/-- The state in which the current thread awaits the reply of the unit that has done in `s` what its instruction asks: it brings the
result for x[d], if there is one, and an acquire at `scope` (R101, R104; that a unit acts in the step that asks it is log 160). -/
def unitAsked (s : State) (d : Option (BitVec 5)) (scope : Nat) (v : Word) : State :=
  putThread (send s (.reply (curRef s) s.cur.1 (.ok (valBytes 8 v))))
    (parkThread (curThread s) (.reply (.unit (d.map (·.toNat)) scope) 0 0) 4)

/-- R258, R415: SEGLD loads an entry of the segment table that keeps R147, that grants the segment number, and, where it asks
system mode, has it, and parks for the table's reply; PWR sets or clears the gating mode, or neither, and reads the die's level and whether the engine is gated. -/
def SegmentResult : Prop :=
  ∀ (sg : BitVec 3) (d a : BitVec 5) (c : Context) (s : State), getCtx? s (curCtx s) = some c →
    let t := curThread s
    let i := (getX t a).toNat
    let entry := ctxSegtab c + 32 * i
    let grant : Word := wordOf (memNat s (entry + 16) 8)
    let desc : SegWord := BitVec.ofNat 128 (memNat s entry 16)
    (Runs s { xr := [a], noMsg := true } → i < ctxSegcnt c → memPoisoned s entry 32 = false → fieldOf grant 0 1 = 1 →
      fieldOf grant (8 + sg.toNat) 1 = 1 → (fieldOf grant 1 1 = 1 → t.csr.sys = true) → descriptorOk s (curCtx s) desc = true →
      exec (.segld sg a) s = .next (unitAsked (putThread s (setSeg t sg desc)) none 0 0))
    ∧ (Runs s { xr := [a], xw := some d, priv := true } → i ≤ 2 →
      let s' := modCore s s.cur.1 fun k => { k with gated := if i = 1 then true else if i = 2 then false else k.gated }
      exec (.pwr d a) s = .next (moved s' 4 (setX t d (wordOf ((getDie s (dieOf s s.cur.1)).level.toNat +
        if isGated (curCore s') then 16 else 0)))))

/-- R276 to R278: FBPOP of a delegating context takes the first record of its own from the die's buffer into its group of
registers and parks for the reply, with which it acquires at DEVICE scope; REPLAY empties the context's part of the pending set and wakes its accesses on the die;
TLBINV drops one page's translations and the cached lines of every frame it was found in, or the whole context's, and completes where no
access that a removed entry translated is still to be performed, else parks until those are, and for no later one. REPLAY and TLBINV are releases at DEVICE scope. -/
def FaultServiceResult : Prop :=
  ∀ (g : BitVec 3) (a b : BitVec 5) (die : Nat) (r : FaultRec) (s : State),
    let t := curThread s
    let ctx := curCtx s
    ((getX t a).toNat = die → die < 8 →
      (Runs s { xr := [a], xs := groupRegs g, priv := true, noMsg := true } → delegated s = true →
        (getDie s die).faults.find? (·.ctx == ctx) = some r →
        let rest := (getDie s die).faults.erase r
        let s' := settleCapacity (modDie s die fun x => { x with faults := rest }) die
        exec (.fbpop g a) s = .next (unitAsked (modCur s' fun t =>
          putGroup t g (faultWords r (rest.any (·.ctx == ctx)) ((getDie s die).dropped.contains ctx))) none 3 0))
      ∧ (Runs s { xr := [a], priv := true, noMsg := true } → t.unacked = 0 →
        exec (.replay a) s = .next (advance (replayFaults s ctx die) 4)))
    ∧ (Runs s { xr := [a, b], priv := true, noMsg := true } → t.unacked = 0 →
      let parks (s : State) (who : List Ref) : Host.Outcome State Fault Refusal :=
        .next (putThread s (parkThread (curThread s) (.flush who) 4))
      (∀ w who, getX t b = 1 → translatedWaits s ctx none = w :: who → exec (.tlbinv a b) s = parks (dropContext s ctx) (w :: who))
      ∧ (∀ w who, getX t b = 0 → (getX t a).toNat < 2 ^ 56 → translatedWaits s ctx (some (getX t a).toNat) = w :: who →
        exec (.tlbinv a b) s = parks (dropVa s ctx (getX t a).toNat) (w :: who))
      ∧ (getX t b = 1 → translatedWaits s ctx none = [] → exec (.tlbinv a b) s = .next (advance (dropContext s ctx) 4))
      ∧ (getX t b = 0 → (getX t a).toNat < 2 ^ 56 → translatedWaits s ctx (some (getX t a).toNat) = [] →
        exec (.tlbinv a b) s = .next (advance (dropVa s ctx (getX t a).toNat) 4)))

/-- R279: PGPIN of a RESIDENT page makes it PINNED with a count of 1, and one of a PINNED page adds 1 to its count; PGUNPIN
takes 1 off, and at 0 the page is RESIDENT again; x[d] receives the new count. -/
def PinCounts : Prop :=
  ∀ (d a : BitVec 5) (l : Leaf) (s : State),
    let t := curThread s
    let va := (getX t a).toNat
    Runs s { xr := [a], xw := some d, priv := true, noMsg := true } → va < 2 ^ 56 →
    (∀ c f, walk s (curCtx s) va = .error (c, f) → c ≠ causePtBad ∧ c ≠ causePoisoned) →
    rawLeaf s (curCtx s) va = some l → ptePins l.base < 255 →
    let count (n : Nat) (e : Word) := Host.Outcome.next (moved (memWrite s l.entry (leBytes 8 e.toNat)) 4 (setX t d (wordOf n)))
    (pteState l.base = stResident → exec (.pgpin d a) s = count 1 (setField (setPteState l.base stPinned false) 56 8 1))
    ∧ (pteState l.base = stPinned →
      exec (.pgpin d a) s = count (ptePins l.base + 1) (setField l.base 56 8 (ptePins l.base + 1))
      ∧ exec (.pgunpin d a) s = count (ptePins l.base - 1)
          (if ptePins l.base - 1 = 0 then setPteState (setField l.base 56 8 (ptePins l.base - 1)) stResident false
          else setField l.base 56 8 (ptePins l.base - 1)))

/-! ## Memory access -/

/-- The offset of an access passes the check of R148 for `z` bytes and the rights `need`: the rights are there, it lies within
LIMIT, within the scratchpad or the address space, and (but for forms without the alignment test) at a multiple of `z`; a
synchronising access of a GLOBAL segment has 8 bytes. -/
structure Passes (s : State) (sg : BitVec 3) (off : Word) (z need : Nat) (align : Bool) : Prop where
  rights : hasRights (segRights (getSeg (curThread s) sg)) need = true
  limit : off.toNat + z ≤ segLimit (getSeg (curThread s) sg)
  pool : segKind (getSeg (curThread s) sg) = kindLocal → segBase (getSeg (curThread s) sg) + off.toNat + z ≤ curSP s
  top : segKind (getSeg (curThread s) sg) = kindGlobal → segBase (getSeg (curThread s) sg) + off.toNat + z ≤ 2 ^ 56
  aligned : align = true → (segBase (getSeg (curThread s) sg) + off.toNat) % z = 0
  sync : hasRights need needS = true → segKind (getSeg (curThread s) sg) = kindGlobal → z = 8

/-- The address of an offset in a segment (R148). -/
def addressOf (s : State) (sg : BitVec 3) (off : Word) : Nat := segBase (getSeg (curThread s) sg) + off.toNat

/-- A plain load: its length, what it uses, its segment, offset and size, and what the bytes do to the thread (R152, R157). -/
structure LoadForm where
  len : Nat
  uses : Uses
  sg : BitVec 3
  off : Thread → Word
  size : Nat
  dest : ReplyTo
  put : List Byte → Thread → Thread

/-- The displacement of the L format: the signed immediate times the access size (R80). -/
def scaled {w : Nat} (i : BitVec w) (z : Nat) : Word := i.signExtend 64 * wordOf z

def loadX (d a : BitVec 5) (sg : BitVec 3) (i : BitVec 9) (z code : Nat) (f : List Byte → Word) : Option LoadForm :=
  some ⟨4, { xr := [a], xw := some d }, sg, fun t => getX t a + scaled i z, z, .load d.toNat code, fun bs t => setX t d (f bs)⟩

def loadV (d a : BitVec 5) (sg : BitVec 3) (i : BitVec 9) (z code : Nat) (f : List Byte → VReg) : Option LoadForm :=
  some ⟨4, { xr := [a], vs := [d.toNat] }, sg, fun t => getX t a + scaled i z, z, .vec d.toNat code, fun bs t => setV t d (f bs)⟩

/-- LD, LDD, LDV, LDVH and LDVB: a byte, halfword or word is extended by sign or by zeros; 16 bytes are the low half of a
register whose high half is 0; 4 bytes fill every lane of FP32. -/
def loadOf : Instr → Option LoadForm
  | .ldB d a sg i => loadX d a sg i 1 0 fun bs => (bytesVal 8 bs).signExtend 64
  | .ldBu d a sg i => loadX d a sg i 1 1 fun bs => bytesVal 64 bs
  | .ldH d a sg i => loadX d a sg i 2 2 fun bs => (bytesVal 16 bs).signExtend 64
  | .ldHu d a sg i => loadX d a sg i 2 3 fun bs => bytesVal 64 bs
  | .ldW d a sg i => loadX d a sg i 4 4 fun bs => (bytesVal 32 bs).signExtend 64
  | .ldWu d a sg i => loadX d a sg i 4 5 fun bs => bytesVal 64 bs
  | .ldD d a sg i => loadX d a sg i 8 6 fun bs => bytesVal 64 bs
  | .ldd d a => some ⟨2, { xr := [a], xw := some d }, 0, fun t => getX t a, 8, .load d.toNat 6, fun bs t =>
      setX t d (bytesVal 64 bs)⟩
  | .ldv d a sg i => loadV d a sg i 32 0 fun bs => bytesVal 256 bs
  | .ldvh d a sg i => loadV d a sg i 16 4 fun bs => bytesVal 256 bs
  | .ldvb d a sg i => loadV d a sg i 4 6 fun bs => bytesVal 256 (bs ++ bs ++ bs ++ bs ++ bs ++ bs ++ bs ++ bs)
  | _ => none

/-- R152, R157: a load through a LOCAL segment that passes the check, reads no poison, and has no earlier CORE access of its
thread to its own core before it, puts the bytes at the address into its destination, and changes nothing else, no byte of
memory included. -/
def LoadHere : Prop :=
  ∀ (i : Instr) (c : LoadForm) (s : State), loadOf i = some c → Runs s c.uses →
    let off := c.off (curThread s)
    let a := addressOf s c.sg off
    segKind (getSeg (curThread s) c.sg) = kindLocal → Passes s c.sg off c.size needR true → selfPending s = false →
    poolPoisoned (curCore s) a c.size = false →
    exec i s = .next (moved s c.len (c.put (poolBytes (curCore s) a c.size) (curThread s)))

/-- The state in which the current thread, whose access of main memory has been performed in `s`, awaits the reply with its bytes
(R101, R104). -/
def asking (s : State) (dest : ReplyTo) (sg : BitVec 3) (off : Word) (len : Nat) (bs : List Byte) : State :=
  putThread (send s (.reply (curRef s) s.cur.1 (.ok bs))) (parkThread (curThread s) (.reply dest sg.toNat off) len)

/-- The current context is not SAVED, and no reply to the current thread from its own core is on its way. -/
def NoReply (s : State) : Prop := ctxSaved s (curCtx s) = false ∧ ∀ q ∈ s.net, wayOf q ≠ [1, s.cur.1, s.cur.2.val, s.cur.1]

/-- The current thread as `t` once such a reply has completed its instruction: issuable from the next cycle, at the next instruction. -/
def answered (s : State) (len : Nat) (t : Thread) : State :=
  moved s len { t with parkedFrom := (curThread s).phase, wait := .none, parkLen := len, soon := true, popped := none }

/-- R152, R101, R104: a load through a CORE segment sends a message that asks the owner of the bytes, where the core's send port takes
it and no earlier posted STF.E or muster wait of the thread is still to be performed there (log 151), and parks until the reply; one through a GLOBAL segment parks until the bytes that its thread's view of memory gives at the address
have arrived, which then reach its destination. -/
def LoadElsewhere : Prop :=
  ∀ (i : Instr) (c : LoadForm) (s : State), loadOf i = some c → Runs s c.uses → inMsgSlot s = false →
    let d := getSeg (curThread s) c.sg
    let off := c.off (curThread s)
    let a := addressOf s c.sg off
    Passes s c.sg off c.size needR true →
    (segKind d = kindCore → portShut s (coreKey (curCtx s) (segTarget d)) = false →
      exec i s = .next (putThread (send s (.request (coreKey (curCtx s) (segTarget d))
        ⟨curRef s, .load a c.size⟩)) (parkThread (curThread s) (.reply c.dest c.sg.toNat off) c.len)))
    ∧ (segKind d = kindGlobal → ∀ s' l bs, viewRead s (curView s) a c.size accLoad = .ok (s', l, bs) →
      exec i s = .next (asking s' c.dest c.sg off c.len bs)
      ∧ (NoReply s' → exec (.reply s'.net.length) (asking s' c.dest c.sg off c.len bs) =
        .next (answered s' c.len (c.put bs (curThread s')))))

/-- A plain store: its length, what it uses, its segment, offset, and bytes (R152, R157). -/
structure StoreForm where
  len : Nat
  uses : Uses
  sg : BitVec 3
  off : Thread → Word
  bytes : Thread → List Byte

/-- ST, STD, STV and STVH. -/
def storeOf : Instr → Option StoreForm
  | .st d a sg w i => some ⟨4, { xr := [a, d] }, sg, fun t => getX t a + scaled i (2 ^ w.toNat), fun t =>
      valBytes (2 ^ w.toNat) (getX t d)⟩
  | .std d a => some ⟨2, { xr := [a, d] }, 0, fun t => getX t a, fun t => valBytes 8 (getX t d)⟩
  | .stv d a sg i => some ⟨4, { xr := [a], vs := [d.toNat] }, sg, fun t => getX t a + scaled i 32, fun t => valBytes 32 (getV t d)⟩
  | .stvh d a sg i => some ⟨4, { xr := [a], vs := [d.toNat] }, sg, fun t => getX t a + scaled i 16, fun t => valBytes 16 (getV t d)⟩
  | _ => none

/-- R152, R157, R121, R417: a store through a LOCAL segment writes its bytes at the address and moves on; it clears the poison of
a granule that it covers whole, sets the event flags of the core's other slots, and changes nothing else. -/
def StoreHere : Prop :=
  ∀ (i : Instr) (c : StoreForm) (s : State), storeOf i = some c → Runs s c.uses →
    let off := c.off (curThread s)
    let bs := c.bytes (curThread s)
    segKind (getSeg (curThread s) c.sg) = kindLocal → Passes s c.sg off bs.length needW true → selfPending s = false →
    exec i s = .next (moved (localStore s (addressOf s c.sg off) bs) c.len (curThread s))

/-- R152, R163: a store through a CORE segment posts its bytes to the owner, where the core's send port takes them and nothing of its
thread that it must follow is still to be performed there (log 151), and counts one write to be acknowledged; through a
GLOBAL segment it writes them in its thread's view of memory. -/
def StoreElsewhere : Prop :=
  ∀ (i : Instr) (c : StoreForm) (s : State), storeOf i = some c → Runs s c.uses →
    let t := curThread s
    let d := getSeg t c.sg
    let off := c.off t
    let bs := c.bytes t
    let a := addressOf s c.sg off
    Passes s c.sg off bs.length needW true →
    (segKind d = kindCore → t.unacked < 65535 → portShut s (coreKey (curCtx s) (segTarget d)) = false →
      exec i s = .next (send (moved s c.len { t with unacked := t.unacked + 1 })
        (.request (coreKey (curCtx s) (segTarget d)) ⟨curRef s, .store a bs⟩)))
    ∧ (segKind d = kindGlobal → ∀ s', viewWrite s (curView s) a accStore false bs = .ok s' → exec i s = .next (advance s' c.len))

/-! ## Full bits -/

/-- There is no write of the thread for a release to wait for: the owners have acknowledged every posted one (R231). -/
def Released (s : State) : Prop := (curThread s).unacked = 0

/-- The bytes of the current core's scratchpad at an address, and the core's number. -/
def hereBytes (s : State) (a z : Nat) : List Byte := poolBytes (curCore s) a z

/-- R153, R157, R230: LDS of a full granule loads its bytes and acquires at the segment's scope; LDS.C also clears the full bit;
LDVS asks both granules of its 32 bytes. What the bit then lets go is served. -/
def SyncLoadHere : Prop :=
  ∀ (d a : BitVec 5) (sg : BitVec 3) (z : BitVec 1) (im : BitVec 9) (s : State),
    let t := curThread s
    let n := if z = 1 then 8 else 4
    let off := getX t a + scaled im n
    let p := addressOf s sg off
    let ends (c : Core) (u : Thread) : Host.Outcome State Fault Refusal := .next
      (advance (acquireAt (settleBits (putThread (setCore s s.cur.1 c) u) s.cur.1) s.cur.1 (segScope (getSeg t sg))) 4)
    segKind (getSeg t sg) = kindLocal → selfPending s = false →
    (Runs s { xr := [a], xw := some d } → Passes s sg off n (needR ||| needS) true → isFull (curCore s) (p / 16) = true →
      poolPoisoned (curCore s) p n = false →
      let v : Word := if z = 1 then bytesVal 64 (hereBytes s p 8) else (bytesVal 32 (hereBytes s p 4)).signExtend 64
      exec (.ldsK d a sg z im) s = ends (curCore s) (setX t d v)
      ∧ exec (.ldsC d a sg z im) s = ends (setFull (curCore s) (p / 16) false) (setX t d v))
    ∧ (Runs s { xr := [a], vs := [d.toNat] } →
      let off := getX t a + scaled im 32
      let p := addressOf s sg off
      Passes s sg off 32 (needR ||| needS) true → isFull (curCore s) (p / 16) = true →
      isFull (curCore s) (p / 16 + 1) = true → poolPoisoned (curCore s) p 32 = false →
      exec (.ldvs d a sg im) s = ends (curCore s) (setV t d (bytesVal 256 (hereBytes s p 32))))

/-- R153, R157: LDS of an empty granule, and LDVS with an empty one among its two, park, with no effect, until it is full. -/
def SyncLoadWaits : Prop :=
  ∀ (d a : BitVec 5) (sg : BitVec 3) (z : BitVec 1) (im : BitVec 9) (s : State),
    let t := curThread s
    let n := if z = 1 then 8 else 4
    let off := getX t a + scaled im n
    let p := addressOf s sg off
    let parks : Host.Outcome State Fault Refusal := .next (putThread s (parkThread t .retry 4))
    segKind (getSeg t sg) = kindLocal → inMsgSlot s = false →
    (Runs s { xr := [a], xw := some d } → Passes s sg off n (needR ||| needS) true → isFull (curCore s) (p / 16) = false →
      exec (.ldsK d a sg z im) s = parks ∧ exec (.ldsC d a sg z im) s = parks)
    ∧ (Runs s { xr := [a], vs := [d.toNat] } →
      let off := getX t a + scaled im 32
      let p := addressOf s sg off
      Passes s sg off 32 (needR ||| needS) true → isFull (curCore s) (p / 16) = false ∨ isFull (curCore s) (p / 16 + 1) = false →
      exec (.ldvs d a sg im) s = parks)

/-- R154, R157, R231: STF and STVF write their bytes and set the full bits of the granules they touch, where no release
has to wait; STF.E does so to an empty granule. -/
def SyncStoreHere : Prop :=
  ∀ (d a : BitVec 5) (sg : BitVec 3) (z : BitVec 1) (im : BitVec 9) (s : State),
    let t := curThread s
    let n := if z = 1 then 8 else 4
    let off := getX t a + scaled im n
    let p := addressOf s sg off
    let ends (c : Core) : Host.Outcome State Fault Refusal := .next
      (advance (settleBits (modCur (setCore s s.cur.1 c) id) s.cur.1) 4)
    segKind (getSeg t sg) = kindLocal → selfPending s = false → Released s →
    (Runs s { xr := [a, d] } → Passes s sg off n (needW ||| needS) true →
      let c := setFull (poolStore (curCore s) s.cur.2.val p (valBytes n (getX t d))) (p / 16) true
      exec (.stf d a sg z im) s = ends c
      ∧ (isFull (curCore s) (p / 16) = false → exec (.stfE d a sg z im) s = ends c))
    ∧ (Runs s { xr := [a], vs := [d.toNat] } →
      let off := getX t a + scaled im 32
      let p := addressOf s sg off
      Passes s sg off 32 (needW ||| needS) true →
      exec (.stvf d a sg im) s = ends (setFull (setFull (poolStore (curCore s) s.cur.2.val p (valBytes 32 (getV t d)))
        (p / 16) true) (p / 16 + 1) true))

/-- R156: FESET and FECLR set and clear the full bit of the granule that holds the address, FESET as a release; FETEST reads it
as 1 or 0, and acquires where it is 1; FEWAIT acquires where it is 1. -/
def FullBitResult : Prop :=
  ∀ (d a : BitVec 5) (sg : BitVec 3) (s : State),
    let t := curThread s
    let off := getX t a
    let g := addressOf s sg off / 16
    let ends (c : Core) (u : Thread) := settleBits (putThread (setCore s s.cur.1 c) u) s.cur.1
    let acquired (x : State) := acquireAt x s.cur.1 (segScope (getSeg t sg))
    segKind (getSeg t sg) = kindLocal → selfPending s = false →
    (Runs s { xr := [a] } → Passes s sg off 16 (needW ||| needS) false →
      (Released s → exec (.feset a sg) s = .next (advance (ends (setFull (curCore s) g true) t) 4))
      ∧ exec (.feclr a sg) s = .next (advance (ends (setFull (curCore s) g false) t) 4))
    ∧ (Passes s sg off 16 (needR ||| needS) false →
      (Runs s { xr := [a], xw := some d } →
        (isFull (curCore s) g = true →
          exec (.fetest d a sg) s = .next (advance (acquired (ends (curCore s) (setX t d 1))) 4))
        ∧ (isFull (curCore s) g = false →
          exec (.fetest d a sg) s = .next (advance (ends (curCore s) (setX t d 0)) 4)))
      ∧ (Runs s { xr := [a] } → isFull (curCore s) g = true →
        exec (.fewait a sg) s = .next (advance (acquired (ends (curCore s) t)) 4)))

/-! ## Formatted pages -/

/-- The elements that a load of a formatted page gives `n` lanes of format D: each is decoded, scaled, and rounded once under
the thread's rounding, one draw a lane (R160). -/
def elementLanes (s : State) (D : Fmt) (n : Nat) (l : Leaf) (bs : List Byte) (scale : Nat) : List (Nat × FFlags) :=
  let F := pteFmt l.fmt
  let t := curThread s
  (List.range n).map fun k =>
    let e := scaledElem F (elemNum F (codebook s (curCtx s) (pteCb l.fmt)) (elemAt F (leNat bs) k)) scale
    let r := round D (roundingOf (rndOf t) k) false (numExact e.1)
    (r.1, e.2 ||| r.2)

/-! ## Atomics -/

/-- An atomic: what it uses, its destination, address register, size, scope and order (0 RLX, 1 ACQ, 2 REL, 3 AR), its operand,
what memory receives from old and operand, what x[d] receives from old, and the flags (R240 to R243). -/
structure AtomForm where
  uses : Uses
  d : BitVec 5
  a : BitVec 5
  z : Nat
  scope : Nat
  order : Nat
  operand : Thread → Nat
  next : Thread → Nat → Nat → Option Nat
  value : Nat → Word
  flags : Nat → Nat → FFlags

def atom8 (d a b c : BitVec 5) (r : BitVec 2) (f : Nat → Nat → Nat) : Option AtomForm :=
  some ⟨{ xr := [a, b], xw := some d }, d, a, 8, c.toNat, r.toNat, fun t => (getX t b).toNat % 2 ^ 64, fun _ x y => some (f x y),
    wordOf, fun _ _ => 0⟩

def atom4 (d a b c : BitVec 5) (r : BitVec 2) (f : Nat → Nat → Nat) : Option AtomForm :=
  some ⟨{ xr := [a, b], xw := some d }, d, a, 4, c.toNat, r.toNat, fun t => (getX t b).toNat % 2 ^ 32, fun _ x y => some (f x y),
    fun n => sextW (wordOf n) 32, fun _ _ => 0⟩

/-- The floating minimum and maximum of R242: the table of what memory receives, and NV for a signalling NaN. -/
def atomF (F : Fmt) (isMax : Bool) (d a b c : BitVec 5) (r : BitVec 2) : Option AtomForm :=
  let z := fmtWidth F / 8
  let better (x y : FVal) : Bool := if isMax then numBelow x y else numBelow y x
  some ⟨{ xr := [a, b], xw := some d }, d, a, z, c.toNat, r.toNat, fun t => (getX t b).toNat % 2 ^ fmtWidth F,
    fun _ x y =>
      let p := decodeNum F x
      let q := decodeNum F y
      if numIsNaN p && numIsNaN q then some (fmtCanon F)
      else if numIsNaN p then some y
      else if numIsNaN q then none
      else if better p q then some y else none,
    wordOf, fun x y => if numIsSNaN (decodeNum F x) || numIsSNaN (decodeNum F y) then flagNV else 0⟩

/-- ATOM, ATOMW and ATOMX: the operations of R241. -/
def atomOf : Instr → Option AtomForm
  | .atomAdd d a b c r => atom8 d a b c r fun x y => (x + y) % 2 ^ 64
  | .atomAnd d a b c r => atom8 d a b c r fun x y => x &&& y
  | .atomOr d a b c r => atom8 d a b c r fun x y => x ||| y
  | .atomXor d a b c r => atom8 d a b c r fun x y => x ^^^ y
  | .atomXchg d a b c r => atom8 d a b c r fun _ y => y
  | .atomMin d a b c r => atom8 d a b c r fun x y => if asInt 64 y < asInt 64 x then y else x
  | .atomMax d a b c r => atom8 d a b c r fun x y => if asInt 64 x < asInt 64 y then y else x
  | .atomCas d a b c r => some ⟨{ xr := [a, regNo (2 * b.toNat)], xw := some d, xs := [2 * b.toNat + 1] }, d, a, 8, c.toNat, r.toNat,
      fun t => (getX t (regNo (2 * b.toNat))).toNat % 2 ^ 64,
      fun t x y => if x = y then some ((getX t (regNo (2 * b.toNat + 1))).toNat % 2 ^ 64) else none, wordOf, fun _ _ => 0⟩
  | .atomwAdd d a b c r => atom4 d a b c r fun x y => (x + y) % 2 ^ 32
  | .atomwAnd d a b c r => atom4 d a b c r fun x y => x &&& y
  | .atomwOr d a b c r => atom4 d a b c r fun x y => x ||| y
  | .atomwXor d a b c r => atom4 d a b c r fun x y => x ^^^ y
  | .atomwXchg d a b c r => atom4 d a b c r fun _ y => y
  | .atomwMin d a b c r => atom4 d a b c r fun x y => if asInt 32 y < asInt 32 x then y else x
  | .atomwMax d a b c r => atom4 d a b c r fun x y => if asInt 32 x < asInt 32 y then y else x
  | .atomwCas d a b c r => some ⟨{ xr := [a, regNo (2 * b.toNat)], xw := some d, xs := [2 * b.toNat + 1] }, d, a, 4, c.toNat, r.toNat,
      fun t => (getX t (regNo (2 * b.toNat))).toNat % 2 ^ 32,
      fun t x y => if x = y then some ((getX t (regNo (2 * b.toNat + 1))).toNat % 2 ^ 32) else none,
      fun n => sextW (wordOf n) 32, fun _ _ => 0⟩
  | .atomxMinu d a b c r => atom8 d a b c r Nat.min
  | .atomxMaxu d a b c r => atom8 d a b c r Nat.max
  | .atomxFminS d a b c r => atomF .fp32 false d a b c r
  | .atomxFmaxS d a b c r => atomF .fp32 true d a b c r
  | .atomxFminD d a b c r => atomF .fp64 false d a b c r
  | .atomxFmaxD d a b c r => atomF .fp64 true d a b c r
  | _ => none

/-- An address word names the place `a` in a segment of a kind: bits 60 to 56 are 0, and its offset passes the check for `z`
bytes and the right A (R238, R239). -/
structure Addresses (s : State) (word : Word) (z kind a : Nat) : Prop where
  zeros : fieldOf word 56 5 = 0
  kind : segKind (getSeg (curThread s) (BitVec.ofNat 3 (fieldOf word 61 3))) = kind
  check : Passes s (BitVec.ofNat 3 (fieldOf word 61 3)) (wordOf (fieldOf word 0 56)) z needA true
  place : a = addressOf s (BitVec.ofNat 3 (fieldOf word 61 3)) (wordOf (fieldOf word 0 56))

/-- Whether the order of an atomic acquires, and releases. -/
def AtomForm.acquires (c : AtomForm) : Bool := c.order = 1 || c.order = 3
def AtomForm.releases (c : AtomForm) : Bool := c.order = 2 || c.order = 3

/-- R241 to R243: an atomic on its core's own scratchpad is performed in its issue cycle: x[d] receives the old value, memory the
new one where the operation writes, NV is raised where R242 says so, and an acquire order acquires at the scope; with a release
order every earlier write of the thread is performed. -/
def AtomicValue : Prop :=
  ∀ (i : Instr) (c : AtomForm) (s : State) (p : Nat), atomOf i = some c → Runs s c.uses →
    let t := curThread s
    let v := c.operand t
    let old := leNat (poolBytes (curCore s) p c.z)
    scopeDefined s (curCtx s) c.scope = true → (c.releases = true → t.unacked = 0) →
    Addresses s (getX t c.a) c.z kindLocal p → selfPending s = false → poolPoisoned (curCore s) p c.z = false →
    Untrapped s (c.flags old v) →
    let s' := match c.next t old v with
      | some n => localStore s p (leBytes c.z n)
      | none => s
    let s' := acquireAt s' s.cur.1 (if c.acquires then c.scope else 0)
    exec i s = .next (flagged s' 4 (setX t c.d (c.value old)) (c.flags old v))

/-- What an atomic does at its place in main memory: `s₁` is the state once its address has been translated, `s₂` the one in which it is
performed. -/
def AtomicEnds (i : Instr) (c : AtomForm) (s s₁ s₂ : State) (q : AtomPlace) : Prop :=
  let v := c.operand (curThread s)
  let home := (isDevice s₁ q.pa && scopeWide s₁ s₁.cur.1 c.scope) || isHost q.pa
  let read := if home then (s₂, memBytes s₂ q.pa c.z) else cachedRead s₂ s₂.cur.1 q.pa c.z
  let old := leNat read.2
  let s₃ := match c.next (curThread s) old v with
    | some n => homeWrite read.1 read.1.cur.1 q.pa (leBytes c.z n)
    | none => read.1
  let s₄ := atomSettle (if home then refreshLine s₃ s₃.cur.1 q.pa else s₃) q
  ∃ (sg : BitVec 3) (sext : Bool),
    let asks := asking s₄ (.atom c.d.toNat c.z sext (if c.acquires then c.scope else 0)) sg q.p.off 4
      (leBytes c.z old ++ [(c.flags old v).setWidth 8])
    let s₅ := acquireAt s₄ s₄.cur.1 (if c.acquires then c.scope else 0)
    exec i s = .next asks ∧ (NoReply s₄ → Untrapped s₄ (c.flags old v) → exec (.reply s₄.net.length) asks =
      .next (modCur (answered s₅ 4 (setX (curThread s₄) c.d (c.value old)))
        fun t => { t with csr := { t.csr with fflags := t.csr.fflags ||| c.flags old v } }))

/-- An atomic has its place `q` in main memory once translated in `s₁`, and nothing stands before it. -/
structure AtomicAt (s s₁ : State) (c : AtomForm) (q : AtomPlace) : Prop where
  runs : Runs s c.uses
  scope : scopeDefined s (curCtx s) c.scope = true
  released : c.releases = true → (curThread s₁).unacked = 0
  place : atomPlace s (getX (curThread s) c.a) c.z = .ok (s₁, q)
  kind : q.p.kind = kindGlobal
  user : inMsgSlot s₁ = false

/-- R226, R241 to R243, R101: an atomic on device memory at a scope within its cluster reads and writes its place through the
cluster's cache once translation has passed; at a wider scope, or on host memory, it does so at the home slice, and its cluster's
cached line takes the new value. Its thread parks until the reply brings x[d] the old value, with NV where R242 says so; an acquire
order acquires then. The thread records no atomics in the Trail here, or the context has none, or the atomic is not one of device memory
at its home slice. -/
def AtomicDevice : Prop :=
  ∀ (i : Instr) (c : AtomForm) (s s₁ : State) (x : Context) (q : AtomPlace), atomOf i = some c → AtomicAt s s₁ c q →
    memPoisoned s₁ q.pa c.z = false → getCtx? s₁ (curCtx s₁) = some x →
    ((curThread s₁).csr.trailAtoms = false ∨ x.trail.mode = 0 ∨ isDevice s₁ q.pa = false ∨ scopeWide s₁ s₁.cur.1 c.scope = false) →
    AtomicEnds i c s s₁ s₁ q

/-- R359 to R361, R358: with ATOMS = 1, an atomic on device memory that goes to its home slice appends the entry of its VA, its place in
the order of its 8-byte word, its `STAMP` and its slot's count, in record mode, and is then performed; where there is no room the Trail is
FULL, and it parks, or traps TRAIL_EXHAUSTED with the VA where there is no page to give. In replay mode it consumes the entry with its VA,
`STAMP` and count and is performed where the entry's position is the word's next, parks where it is not, and traps REPLAY_DIVERGED with
the VA, the context halted, where there is no such entry. -/
def AtomicTrail : Prop :=
  ∀ (i : Instr) (c : AtomForm) (s s₁ : State) (x : Context) (q : AtomPlace), atomOf i = some c → AtomicAt s s₁ c q →
    (curThread s₁).csr.trailAtoms = true → getCtx? s₁ (curCtx s₁) = some x → isDevice s₁ q.pa = true →
    scopeWide s₁ s₁.cur.1 c.scope = true →
    let t := curThread s₁
    let ctx := curCtx s₁
    let seq := mapGet x.trail.positions (q.pa / 8) 0
    let entry (seq : BitVec 16) : BitVec 128 := BitVec.ofNat 128 (wordFrom [field t.recorded, (t.csr.stamp.toNat % 2 ^ 32, 32), field seq,
      (0, 7), (q.p.addr / 8 % 2 ^ 53, 53), (2, 4)])
    let counted (s : State) : State := modCur (modTrail s ctx fun tr =>
      { tr with positions := mapSet tr.positions (q.pa / 8) (seq + 1) }) fun t => { t with recorded := t.recorded + 1 }
    let parks (s : State) : Host.Outcome State Fault Refusal := .next (putThread s (parkThread (curThread s) .retry 4))
    let full := recordStatus (modTrail s₁ ctx fun tr => { tr with full := true }) (curRef s₁).core (refThread s₁ (curRef s₁)).ltag statusTrailFull
    let matching (n : Nat) : Prop := ∃ e, x.trail.index[n]? = some e ∧ n ∉ x.trail.consumed ∧ ∃ p : BitVec 16, e &&& ~~~(127#128 <<< 64) = entry p
    (x.trail.mode = 1 →
      (∀ s₂, trailAppend s₁ ctx x.trail.pages (entry seq) = some s₂ → memPoisoned s₁ q.pa c.z = false →
        AtomicEnds i c s s₁ (counted s₂) q)
      ∧ (trailAppend s₁ ctx x.trail.pages (entry seq) = none →
        exec i s = if x.trail.exhausted then .next (takeTrap full (curRef full) (curThread full).pc causeTrailExhausted (wordOf q.p.addr))
          else parks full))
    ∧ (x.trail.mode = 2 →
      (∀ n, matching n → (∀ m, m < n → ¬ matching m) →
        (fieldOf (x.trail.index.getD n 0) 48 16 = seq.toNat → memPoisoned s₁ q.pa c.z = false →
          AtomicEnds i c s s₁ (counted (modTrail s₁ ctx fun tr => { tr with consumed := n :: tr.consumed })) q)
        ∧ (fieldOf (x.trail.index.getD n 0) 48 16 ≠ seq.toNat → exec i s = parks s₁))
      ∧ ((∀ n, ¬ matching n) →
        let halted := haltContext s₁ ctx causeReplayDiverged
        exec i s = .next (takeTrap halted (curRef halted) (curThread halted).pc causeReplayDiverged (wordOf q.p.addr))))

/-- R239: the scope of an atomic must be defined, else BAD_SCOPE; then bits 60 to 56 of the address word must be 0, else
ATOM_OPERAND; neither has another effect. -/
def AtomicTraps : Prop :=
  ∀ (i : Instr) (c : AtomForm) (s : State), atomOf i = some c → Runs s c.uses →
    let word := getX (curThread s) c.a
    let stop (cause : BitVec 8) (v : Word) := Host.Outcome.next (takeTrap s (curRef s) (curThread s).pc cause v)
    (scopeDefined s (curCtx s) c.scope = false → exec i s = stop causeBadScope (wordOf c.scope))
    ∧ (scopeDefined s (curCtx s) c.scope = true → fieldOf word 56 5 ≠ 0 → exec i s = stop causeAtomOperand word)

/-! ## Exact cells -/

/-- The fields of an exact cell (R47): VAL, and ANCHOR; OVF, NAN, PINF and NINF stand from bit 208 up. -/
def valOf (c : BitVec 256) : Int := (c.extractLsb' 0 192).toInt
def anchorOf (c : BitVec 256) : Int := (c.extractLsb' 192 16).toInt

/-- ToCell of R48: an addend's integer at the weight of a cell with the anchor `anchor`, and the flags that it sets (NAN is bit 1,
PINF bit 2, NINF bit 3). -/
def toCell (anchor : Int) : FVal → Int × BitVec 4
  | .nan _ => (0, 2)
  | .inf neg => (0, if neg then 8 else 4)
  | .zero _ => (0, 0)
  | .fin neg m e => (⌊(if neg then -(m : ℚ) else m) * 2 ^ (e + (160 - anchor))⌋, 0)

/-- CellAdd of R48, of the integer `n` and the flags of an addend: the reserved bits become zero. -/
def cellSum (c : BitVec 256) (n : Int) (flags : BitVec 4) : BitVec 256 :=
  let sum := valOf c + n
  let ovf : BitVec 4 := if n < -2 ^ 191 ∨ 2 ^ 191 ≤ n ∨ sum < -2 ^ 191 ∨ 2 ^ 191 ≤ sum then 1 else 0
  0#44 ++ (c.extractLsb' 208 4 ||| flags ||| ovf) ++ c.extractLsb' 192 16 ++ BitVec.ofInt 192 sum

/-- CellRead of R49: the first row that applies. -/
def cellReads (F : Fmt) (r : Rounding) (c : BitVec 256) : Nat × FFlags :=
  let canon := if F = .fp32 then 0x7FC00000 else 0x7FF8000000000000
  let infinity := if F = .fp32 then 0x7F800000 else 0x7FF0000000000000
  let sign := if F = .fp32 then 0x80000000 else 0x8000000000000000
  if c.getLsbD 209 then (canon, 0)
  else if c.getLsbD 210 ∧ c.getLsbD 211 then (canon, flagNV)
  else if c.getLsbD 210 then (infinity, 0)
  else if c.getLsbD 211 then (sign + infinity, 0)
  else if c.getLsbD 208 then (canon, flagNV)
  else round F r false (numExact (intNum (valOf c) (anchorOf c - 160) false))

/-- R48, R49, R244 to R246: on a cell of the core's own scratchpad, XSET empties it and sets its anchor; XADD adds a value or a block, a
signalling NaN raising NV; XRD reads it, rounded under `RND` with one draw (+0 where the value is zero: the model's choice, log 121); XMAXE raises an empty cell's anchor and returns the
old one, with bit 16 set where the cell was not empty. -/
def CellHere : Prop :=
  ∀ (d a b c : BitVec 5) (s : State) (p : Nat),
    let t := curThread s
    let cell : BitVec 256 := bytesVal 256 (poolBytes (curCore s) p 32)
    let x := getX t b
    let write (v : BitVec 256) := localStore s p (valBytes 32 v)
    let single := decodeNum .fp32 (x.toNat % 2 ^ 32)
    let double := decodeNum .fp64 (x.toNat % 2 ^ 64)
    let nv (v : FVal) : FFlags := if numIsSNaN v then flagNV else 0
    let plus (v : FVal) := cellSum cell (toCell (anchorOf cell) v).1 (toCell (anchorOf cell) v).2
    Addresses s (getX t a) 32 kindLocal p → selfPending s = false →
    (Runs s { xr := [a, b] } → exec (.xset a b) s = .next (moved (write (mkCell 0 (x.setWidth 16).toInt 0)) 4 t))
    ∧ (poolPoisoned (curCore s) p 32 = false →
      (Runs s { xr := [a, b] } →
        (Untrapped s (nv single) → exec (.xaddS a b) s = .next (flagged (write (plus single)) 4 t (nv single)))
        ∧ (Untrapped s (nv double) → exec (.xaddD a b) s = .next (flagged (write (plus double)) 4 t (nv double))))
      ∧ (Runs s { xr := [a, b, c] } →
        exec (.xaddB a b c) s = .next (moved (write (cellSum cell
          ⌊(x.toInt : ℚ) * 2 ^ (((getX t c).setWidth 16).toInt - anchorOf cell + 160)⌋ 0)) 4 t))
      ∧ (Runs s { xr := [a], xw := some d, rounds := true } → ∀ F : Fmt, F = .fp32 ∨ F = .fp64 →
        let r := cellReads F (nextRounding t) cell
        Untrapped s r.2 → exec (if F = .fp32 then .xrdS d a else .xrdD d a) s =
          .next (flagged s 4 (setX (takeDraws t 1) d (wordOf r.1)) r.2))
      ∧ (Runs s { xr := [a, b], xw := some d } →
        let empty := cellVal cell = 0 ∧ cellFlags cell = 0
        let e := (x.setWidth 16).toInt
        exec (.xmaxe d a b) s = .next (moved (write (if empty then mkCell 0 (max (cellAnchor cell) e) 0 else cell)) 4
          (setX t d (wordOf (fieldOf cell 192 16 + if empty then 0 else 2 ^ 16))))))

/-- R244 to R246, R274, R101: on a cell of main memory, XSET and XADD write the cell of their operation at the home slice and go on; XRD
and XMAXE park until the reply brings the cell that was read, or the old anchor with bit 16 set where the cell was not empty, and XMAXE
writes the raised one. Each collapses a duplicated page. A poisoned cell, which XADD cannot add to, is noted in the core's status word. -/
def CellMemory : Prop :=
  ∀ (d a b c : BitVec 5) (s s₁ : State) (q : AtomPlace),
    let t := curThread s
    let x := getX t b
    let cell : BitVec 256 := bytesVal 256 (memBytes s₁ q.pa 32)
    let put (v : BitVec 256) : State := atomSettle (refreshLine (homeWrite s₁ s₁.cur.1 q.pa (valBytes 32 v)) s₁.cur.1 q.pa) q
    let plus (v : FVal) := cellSum cell (toCell (anchorOf cell) v).1 (toCell (anchorOf cell) v).2
    let nv (v : FVal) : FFlags := if numIsSNaN v then flagNV else 0
    let single := decodeNum .fp32 (x.toNat % 2 ^ 32)
    let double := decodeNum .fp64 (x.toNat % 2 ^ 64)
    let ends (s : State) (f : FFlags) : Host.Outcome State Fault Refusal := .next (flagged s 4 (curThread s) f)
    let asks (s : State) (dest : ReplyTo) (bs : List Byte) : Host.Outcome State Fault Refusal := .next (putThread
      (send s (.reply (curRef s) s.cur.1 (.ok bs))) (parkThread (curThread s) (.reply dest q.p.sg q.p.off) 4))
    atomPlace s (getX t a) 32 = .ok (s₁, q) → q.p.kind = kindGlobal →
    (Runs s { xr := [a, b] } → exec (.xset a b) s = ends (put (mkCell 0 (x.setWidth 16).toInt 0)) 0)
    ∧ (memPoisoned s₁ q.pa 32 = false →
      (Runs s { xr := [a, b] } →
        (Untrapped (put (plus single)) (nv single) → exec (.xaddS a b) s = ends (put (plus single)) (nv single))
        ∧ (Untrapped (put (plus double)) (nv double) → exec (.xaddD a b) s = ends (put (plus double)) (nv double)))
      ∧ (Runs s { xr := [a, b, c] } → exec (.xaddB a b c) s = ends (put (cellSum cell
          ⌊(x.toInt : ℚ) * 2 ^ (((getX t c).setWidth 16).toInt - anchorOf cell + 160)⌋ 0)) 0)
      ∧ (inMsgSlot s₁ = false →
        (Runs s { xr := [a], xw := some d, rounds := true } →
          let s₂ := atomSettle (refreshLine s₁ s₁.cur.1 q.pa) q
          exec (.xrdS d a) s = asks s₂ (.cell d.toNat false) (valBytes 32 cell)
          ∧ exec (.xrdD d a) s = asks s₂ (.cell d.toNat true) (valBytes 32 cell))
        ∧ (Runs s { xr := [a, b], xw := some d } →
          let empty := cellVal cell = 0 ∧ cellFlags cell = 0
          let e := (x.setWidth 16).toInt
          exec (.xmaxe d a b) s = asks (put (if empty then mkCell 0 (max (cellAnchor cell) e) 0 else cell)) (.maxe d.toNat)
            (valBytes 8 (wordOf (fieldOf cell 192 16 + if empty then 0 else 2 ^ 16))))))
    ∧ (memPoisoned s₁ q.pa 32 = true → Runs s { xr := [a, b, c] } → exec (.xaddB a b c) s = ends (recordCoreStatus s₁ s₁.cur.1 statusRwref) 0)

/-! ## Accesses through a CORE segment -/

/-- An access that an instruction sends to the owner of a scratchpad: what it uses and asks first, its segment and offset, its size and
the rights it needs, whether it must be aligned, whether it is a release, the request with the place it names, the flags that it raises,
and what its answer is for; none for one that is posted. -/
structure CoreForm where
  uses : Uses
  ready : State → Prop := fun _ => True
  at_ : Thread → BitVec 3 × Word
  size : Nat
  need : Nat
  align : Bool := true
  rel : Bool := false
  req : Thread → Nat → Request
  flags : Thread → FFlags := fun _ => 0
  answer : Option ReplyTo := none

/-- The segment and offset of an address word (R238). -/
def wordPlace (a : BitVec 5) (t : Thread) : BitVec 3 × Word :=
  (BitVec.ofNat 3 (fieldOf (getX t a) 61 3), wordOf (fieldOf (getX t a) 0 56))

/-- Bits 60 to 56 of an address word are 0, and the scope is defined (R238, R239). -/
def wordReady (a : BitVec 5) (scope : Nat) (s : State) : Prop :=
  fieldOf (getX (curThread s) a) 56 5 = 0 ∧ scopeDefined s (curCtx s) scope = true

/-- The number of each operation of R241 in a request. -/
def atomNumber : Instr → Nat
  | .atomAdd .. | .atomwAdd .. => 0
  | .atomAnd .. | .atomwAnd .. => 1
  | .atomOr .. | .atomwOr .. => 2
  | .atomXor .. | .atomwXor .. => 3
  | .atomXchg .. | .atomwXchg .. => 4
  | .atomMin .. | .atomwMin .. => 5
  | .atomMax .. | .atomwMax .. => 6
  | .atomCas .. | .atomwCas .. => 7
  | .atomxMinu .. => 8
  | .atomxMaxu .. => 9
  | .atomxFminS .. => 10
  | .atomxFmaxS .. => 11
  | .atomxFminD .. => 12
  | .atomxFmaxD .. => 13
  | _ => 14

/-- What CAS compares, and writes: the second register of its pair. -/
def casNew (t : Thread) : Instr → Nat
  | .atomCas _ _ b _ _ => (getX t (regNo (2 * b.toNat + 1))).toNat % 2 ^ 64
  | .atomwCas _ _ b _ _ => (getX t (regNo (2 * b.toNat + 1))).toNat % 2 ^ 32
  | _ => 0

/-- An atomic as a request; ATOMW alone extends its result by sign. -/
def coreAtom (i : Instr) (c : AtomForm) : CoreForm :=
  { uses := c.uses, ready := wordReady c.a c.scope, at_ := wordPlace c.a, size := c.z, need := needA, rel := c.releases
    req := fun t p => .atomic p (atomNumber i) c.z (wordOf (c.operand t)) (wordOf (casNew t i))
    answer := some (.atom c.d.toNat c.z (c.z == 4 && atomNumber i < 8) (if c.acquires then c.scope else 0)) }

/-- A synchronising access by an immediate offset, a full-bit access at its granule, and a cell's. -/
def coreSync (uses : Uses) (sg : BitVec 3) (off : Thread → Word) (z need : Nat) (rel : Bool) (req : Thread → Nat → Request)
    (answer : Option ReplyTo) : Option CoreForm :=
  some { uses := uses, at_ := fun t => (sg, off t), size := z, need := need ||| needS, rel := rel, req := req, answer := answer }
def coreBit (uses : Uses) (sg : BitVec 3) (a : BitVec 5) (need op : Nat) (answer : Option ReplyTo) : Option CoreForm :=
  some { uses := uses, at_ := fun t => (sg, getX t a), size := 16, need := need ||| needS, align := false, rel := op == 0
         req := fun _ p => .fe (p / 16 * 16) op, answer := answer }
def coreCell (uses : Uses) (a : BitVec 5) (op : Nat) (b e : Thread → Word) (flags : Thread → FFlags) (answer : Option ReplyTo) :
    Option CoreForm :=
  some { uses := uses, ready := fun s => fieldOf (getX (curThread s) a) 56 5 = 0, at_ := wordPlace a, size := 32, need := needA
         req := fun t p => .cell p op (b t) (e t), flags := flags, answer := answer }

/-- A muster instruction of an open gate, whose operand holds to R319. -/
def coreMuster (uses : Uses) (a : BitVec 5) (g : BitVec 3) (n : BitVec 1) (need op guard : Nat) (rel : Bool) (v : Thread → Word)
    (ok : State → Word → Prop) (answer : Option ReplyTo) : Option CoreForm :=
  some { uses := uses, at_ := wordPlace a, size := 16, need := need, rel := rel, answer := answer
         ready := fun s => fieldOf (getX (curThread s) a) 56 5 = 0 ∧ gateOpen (curThread s) g n = true ∧ ok s (v (curThread s))
         req := fun t p => .muster op p (v t) guard }

/-- The synchronising loads and stores, FE, the atomics, XCELL and the musters of guard 7, by the requests that they are. -/
def coreOf (i : Instr) : Option CoreForm :=
  let size (z : BitVec 1) : Nat := if z = 1 then 8 else 4
  let off {w : Nat} (a : BitVec 5) (im : BitVec w) (z : Nat) (t : Thread) : Word := getX t a + scaled im z
  let nan (F : Fmt) (b : BitVec 5) (t : Thread) : FFlags :=
    if numIsSNaN (decodeNum F ((getX t b).toNat % 2 ^ fmtWidth F)) then flagNV else 0
  let zero (_ : Thread) : Word := 0
  let quiet (_ : Thread) : FFlags := 0
  let word (t : Thread) (a : BitVec 5) := getX t a
  match i with
  | .ldsK d a sg z im => coreSync { xr := [a], xw := some d } sg (off a im (size z)) (size z) needR false
      (fun _ p => .syncLoad p (size z) false) (some (.sync d.toNat (size z)))
  | .ldsC d a sg z im => coreSync { xr := [a], xw := some d } sg (off a im (size z)) (size z) needR false
      (fun _ p => .syncLoad p (size z) true) (some (.sync d.toNat (size z)))
  | .ldvs d a sg im => coreSync { xr := [a], vs := [d.toNat] } sg (off a im 32) 32 needR false
      (fun _ p => .syncLoad p 32 false) (some (.vec d.toNat 2))
  | .stf d a sg z im => coreSync { xr := [a, d] } sg (off a im (size z)) (size z) needW true
      (fun t p => .fill p (valBytes (size z) (getX t d)) false) none
  | .stfE d a sg z im => coreSync { xr := [a, d] } sg (off a im (size z)) (size z) needW true
      (fun t p => .fill p (valBytes (size z) (getX t d)) true) none
  | .stvf d a sg im => coreSync { xr := [a], vs := [d.toNat] } sg (off a im 32) 32 needW true
      (fun t p => .fill p (valBytes 32 (getV t d)) false) none
  | .feset a sg => coreBit { xr := [a] } sg a needW 0 none
  | .feclr a sg => coreBit { xr := [a] } sg a needW 1 none
  | .fetest d a sg => coreBit { xr := [a], xw := some d } sg a needR 2 (some (.fetest d.toNat))
  | .fewait a sg => coreBit { xr := [a] } sg a needR 3 (some .bare)
  | .xset a b => coreCell { xr := [a, b] } a 0 (word · b) zero quiet none
  | .xaddS a b => coreCell { xr := [a, b] } a 1 (word · b) zero (nan .fp32 b) none
  | .xaddD a b => coreCell { xr := [a, b] } a 2 (word · b) zero (nan .fp64 b) none
  | .xaddB a b c => coreCell { xr := [a, b, c] } a 3 (word · b) (word · c) quiet none
  | .xrdS d a => coreCell { xr := [a], xw := some d, rounds := true } a 4 zero zero quiet (some (.cell d.toNat false))
  | .xrdD d a => coreCell { xr := [a], xw := some d, rounds := true } a 5 zero zero quiet (some (.cell d.toNat true))
  | .xmaxe d a b => coreCell { xr := [a, b], xw := some d } a 6 (word · b) zero quiet (some (.maxe d.toNat))
  | .marrive a b g n => coreMuster { xr := [a, b], gs := [g] } a g n needA 1 7 true (word · b) (fun _ _ => True) none
  | .mdebt a b g n => coreMuster { xr := [a, b], gs := [g] } a g n needA 4 7 true (word · b) (fun _ _ => True) none
  | i => (atomOf i).map (coreAtom i)

/-- The message that such an instruction sends to the core that its segment names. -/
def coreAsk (s : State) (c : CoreForm) : Packet :=
  let p := c.at_ (curThread s)
  .request (coreKey (curCtx s) (segTarget (getSeg (curThread s) p.1))) ⟨curRef s, c.req (curThread s) (addressOf s p.1 p.2)⟩

/-- It passes its checks, the core's send port takes its message, and no STF.E or muster wait of its thread that has completed is still to be
performed at the same core (R149, R163, R231, R152, R223; the last is log 151). -/
structure CoreAt (s : State) (c : CoreForm) : Prop where
  runs : Runs s c.uses
  ready : c.ready s
  kind : segKind (getSeg (curThread s) (c.at_ (curThread s)).1) = kindCore
  check : Passes s (c.at_ (curThread s)).1 (c.at_ (curThread s)).2 c.size c.need c.align
  released : c.rel = true → (curThread s).unacked = 0
  port : portShut s (coreKey (curCtx s) (segTarget (getSeg (curThread s) (c.at_ (curThread s)).1))) = false

/-- R149, R152 to R157, R163, R244, R319, R101: an access of the table through a CORE segment that passes its checks is a message to the
core that the segment names. One with an answer parks until it arrives; a posted one goes on, with one more write to be acknowledged. -/
def CoreIssue : Prop :=
  ∀ (i : Instr) (c : CoreForm) (s : State), coreOf i = some c → CoreAt s c →
    let t := curThread s
    let p := c.at_ t
    (∀ r, c.answer = some r → inMsgSlot s = false →
      exec i s = .next (putThread (send s (coreAsk s c)) (parkThread t (.reply r p.1.toNat p.2) 4)))
    ∧ (c.answer = none → t.unacked < 65535 → Untrapped s (c.flags t) →
      exec i s = .next (send (flagged s 4 { t with unacked := t.unacked + 1 } (c.flags t)) (coreAsk s c)))

/-- R319, R317, R101: through a CORE segment, MINIT parks until the muster is written; MWAIT and MSYNC of guard 7 park until their
answer, and with another guard they go on, the guard PENDING and one more wait in flight. -/
def CoreMuster : Prop :=
  ∀ (d : BitVec 3) (a b : BitVec 5) (g : BitVec 3) (n : BitVec 1) (s : State),
    let t := curThread s
    let word := getX t a
    let v := getX t b
    let form (uses : Uses) (need op guard : Nat) (v : Word) (r : ReplyTo) : CoreForm :=
      { uses := uses, ready := fun s => fieldOf word 56 5 = 0 ∧ gateOpen (curThread s) g n = true, at_ := wordPlace a, size := 16
        need := need, rel := op ≠ 2, req := fun _ p => .muster op p v guard, answer := some r }
    let parks (c : CoreForm) (r : ReplyTo) : Host.Outcome State Fault Refusal :=
      .next (putThread (send s (coreAsk s c)) (parkThread t (.reply r (wordPlace a t).1.toNat (wordPlace a t).2) 4))
    inMsgSlot s = false →
    (let c := form { xr := [a, b], gs := [g] } (needW + needA) 0 7 v (.minit word);
      CoreAt s c → fieldOf v 0 16 ≠ 0 → fieldOf v 21 11 = 0 → scopeDefined s (curCtx s) (fieldOf v 16 5) = true →
      exec (.minit a b g n) s = parks c (.minit word))
    ∧ (∀ (sync : Bool),
      let i : Instr := if sync then .msync d a g n else .mwait d a b g n
      let c := form { xr := if sync then [a] else [a, b], gs := [g, d], noMsg := true } (needA + needS) (if sync then 3 else 2) d.toNat
        (if sync then 0 else v) (.muster word)
      CoreAt s c → (sync = false → v.toNat ≤ 1) →
      (d = 7 → exec i s = parks c (.muster word))
      ∧ (d ≠ 7 → t.asyncWaits < 4 → exec i s =
        .next (moved (send s (coreAsk s c)) 4 { pendG t d with asyncWaits := t.asyncWaits + 1 })))

/-! ## Fences and active messages -/

/-- R232, R231: a fence of a defined scope completes once every earlier write of a releasing one is performed; an acquiring one
invalidates the clean lines of the cluster's cache where its scope reaches beyond the cluster. -/
def FenceResult : Prop :=
  ∀ (c : BitVec 5) (s : State), Runs s {} →
    let t := curThread s
    (scopeDefined s (curCtx s) c.toNat = true →
      exec (.fenceAcq c) s = .next (moved (acquireAt s s.cur.1 c.toNat) 4 t)
      ∧ (c = 0 ∨ t.unacked = 0 → exec (.fenceRel c) s = .next (moved s 4 t)
        ∧ exec (.fenceAr c) s = .next (moved (acquireAt s s.cur.1 c.toNat) 4 t))
      ∧ (c ≠ 0 → t.unacked ≠ 0 → inMsgSlot s = false → exec (.fenceRel c) s = .next (putThread s (parkThread t .retry 4))))
    ∧ (scopeDefined s (curCtx s) c.toNat = false →
      exec (.fenceAcq c) s = .next (takeTrap s (curRef s) t.pc causeBadScope (wordOf c.toNat)))

/-- R168, R165, R163: with an open gate, where the core's send port takes it and no earlier write of the thread is still to be
performed, AMSEND sends its pair to a core of the grid with the handler's address; RFETCH does so and
parks until the handler's answer; AMRET answers an RFETCH with x[a], and frees the message slot. -/
def MessageResult : Prop :=
  ∀ (d a : BitVec 5) (b : BitVec 4) (g : BitVec 3) (n : BitVec 1) (k : Nat) (s : State),
    let t := curThread s
    let first := regNo (2 * b.toNat)
    let second := [2 * b.toNat + 1]
    let payload (reply : Bool) : Request :=
      .user (evenPc (getX t d)) (getX t (regNo (2 * b.toNat))) (getX t (regNo (2 * b.toNat + 1))) reply
    let free (u : Thread) : Thread := { u with phase := .idle, current := none, issues := 0 }
    gateOpen t g n = true → t.unacked = 0 →
    (namedCore s (getX t a) = some k → portFull s s.cur.1 = false →
      (Runs s { xr := [d, a, first], xs := second, gs := [g] } →
        exec (.amsend d a b g n) s = .next (send (moved s 4 t) (.request k ⟨curRef s, payload false⟩)))
      ∧ (Runs s { xr := [d, a, first], xw := some d, xs := second, gs := [g], noMsg := true } → inMsgSlot s = false →
        exec (.rfetch d a b g n) s = .next (putThread (send s (.request k ⟨curRef s, payload true⟩))
          (parkThread t (.reply (.rfetch d.toNat) 0 0) 4))))
    ∧ (Runs s { xr := [a], gs := [g], onlyMsg := true } → ∀ m, t.current = some m →
      exec (.amret a g n) s = .next (modThread (match m.req with
        | .user _ _ _ true => send s (.reply m.src s.cur.1 (.ok (valBytes 8 (getX t a))))
        | _ => s) s.cur.1 15 free))

/-! ## The engines of a core -/

/-- A gate as it is sampled when a command is queued: it waits for a PENDING guard; else lane 0 of the mask, against the `!` bit,
lets the command go or drops it (R109). -/
def sampled (t : Thread) (g : BitVec 3) (n : BitVec 1) : Gate :=
  if (getG t g).pending then .await g.toNat (n == 1) else if (getG t g).mask.getLsbD 0 ≠ (n == 1) then .go else .drop

/-- A guard becomes PENDING; `g7` does not (R107, R192). -/
def awaiting (t : Thread) (d : Option (BitVec 3)) : Thread :=
  match d with
  | some d => if d = 7 then t else { t with g := t.g.set d.toNat ⟨true, (getG t d).mask⟩ d.isLt }
  | none => t

/-- A matrix instruction that queues a command: what it uses, the command, its gate, its result guard, the draws it takes, and
the condition on its operands (R191, R196 to R199). -/
structure MatForm where
  uses : Uses
  op : Thread → MatOp
  g : BitVec 3
  n : BitVec 1
  guard : Option (BitVec 3)
  draws : Nat
  ok : State → Prop

/-- MLDA and MLDB: OFF in x[a]; ROWS and PITCH in x[b]; eight row indices in v[d]; the format and codebook slot of `MATST`. -/
def latchForm (isB : Bool) (d a b : BitVec 5) (g : BitVec 3) (n : BitVec 1) : MatForm :=
  let fmt (t : Thread) : Nat := fieldOf t.csr.matst (if isB then 21 else 18) 3
  let rows (t : Thread) : Nat := fieldOf (getX t b) 0 16
  let pitch (t : Thread) : Nat := fieldOf (getX t b) 16 16
  let idx (t : Thread) : List Nat := (List.range 8).map fun k => fieldOf (getV t d) (32 * k) 32
  { uses := { xr := [a, b], vs := [d.toNat], acc := some 0, noMsg := true, mat := true }
    op := fun t => .load isB (getX t a).toNat (rows t) (pitch t) (idx t) (fmt t) (fieldOf t.csr.matst (if isB then 32 else 24) 8)
    g := g, n := n, guard := none, draws := 0
    ok := fun s =>
      let t := curThread s
      let off := (getX t a).toNat
      fmt t ≤ 4 ∧ off % 16 = 0 ∧ off < 2 ^ 16 ∧ rows t ≠ 0 ∧ pitch t % 16 = 0 ∧ rowBytes (fmt t) ≤ pitch t
        ∧ fieldOf (getX t b) 32 32 = 0 ∧ (∀ k ∈ idx t, k < rows t)
        ∧ off + rows t * pitch t + (if fmt t = 0 then 0 else 2 * rows t) ≤ curSP s }

/-- A drain: the word, its target, and `RND`, `SEED` and `DRAW` as captured; it takes 64 draws (R199). -/
def drainForm (uses : Uses) (d : BitVec 3) (a : BitVec 2) (word : Thread → Word) (target : Thread → Option Nat) (g : BitVec 3)
    (n : BitVec 1) (ok : State → Prop) : MatForm :=
  { uses := uses
    op := fun t => .drain d.toNat a.toNat (word t) (target t) t.csr.rnd t.csr.seed t.csr.draw
    g := g, n := n, guard := some d, draws := 64
    ok := fun s => drainOk (word (curThread s)) = true ∧ ok s }

/-- The commands of the matrix queue, of an instruction in a context. -/
def matOf (ctx : Nat) : Instr → Option MatForm
  | .mzero d g n => some ⟨{ acc := some d.toNat, noMsg := true, mat := true }, fun _ => .zero d.toNat, g, n, none, 0, fun _ => True⟩
  | .mlda d a b g n => some (latchForm false d a b g n)
  | .mldb d a b g n => some (latchForm true d a b g n)
  | .mma d g n => some ⟨{ acc := some d.toNat, noMsg := true, mat := true }, fun _ => .mma d.toNat, g, n, none, 0, fun _ => True⟩
  | .mgang d a g n => some ⟨{ xr := [a], acc := some d.toNat, noMsg := true, mat := true },
      fun t => .gang d.toNat (fieldOf (getX t a) 0 8) (fieldOf (getX t a) 8 1 = 1), g, n, none, 0,
      fun s => (getX (curThread s) a).toNat < 2 ^ 9⟩
  | .mdrain d a b g n => some (drainForm { xr := [b], acc := some a.toNat, rounds := true, noMsg := true, mat := true } d a
      (fun t => getX t b) (fun _ => none) g n fun s => drainEnd (getX (curThread s) b) ≤ curSP s)
  | .mdrainr d a b g n =>
    let k (t : Thread) : Word := getX t (regNo (2 * b.toNat + 1))
    some (drainForm { xr := [regNo (2 * b.toNat)], xs := [2 * b.toNat + 1], acc := some a.toNat, rounds := true, noMsg := true, mat := true } d a
      (fun t => getX t (regNo (2 * b.toNat))) (fun t => some (coreKey ctx (k t).toNat)) g n fun s =>
        (k (curThread s)).toNat < 2 ^ 20 ∧ ∃ c, getCtx? s ctx = some c ∧ inGrid c (k (curThread s)).toNat = true)
  | _ => none

/-- R191 to R193, R109: where its slot's matrix queue holds fewer than two commands, its result guard is not PENDING, and every write
that its thread has posted is performed, a matrix instruction queues its command with its gate as sampled, sets its result guard
PENDING, and moves on. -/
def MatQueued : Prop :=
  ∀ (i : Instr) (c : MatForm) (s : State), matOf (curCtx s) i = some c → Runs s c.uses → c.ok s →
    let t := curThread s
    t.matq.length < 2 → (∀ d, c.guard = some d → (getG t d).pending = false) → t.unacked = 0 →
    let q : MatCmd := ⟨c.op t, sampled t c.g c.n, t.csr.specd, .none, false, false, 0, false⟩
    let t' := awaiting { t with matq := t.matq ++ [q] } c.guard
    exec i s = .next (moved s 4 (if c.draws = 0 then t' else takeDraws t' c.draws))

/-- R191, R193: a matrix instruction whose queue is full, whose result guard is PENDING, or whose thread has a posted write that is
still to be performed, parks until that is over. -/
def MatIssueWaits : Prop :=
  ∀ (i : Instr) (c : MatForm) (s : State), matOf (curCtx s) i = some c → Runs s c.uses → c.ok s →
    (2 ≤ (curThread s).matq.length ∨ (∃ d, c.guard = some d ∧ (getG (curThread s) d).pending = true) ∨ (curThread s).unacked ≠ 0) →
    exec i s = .next (putThread s (parkThread (curThread s) .retry 4))

/-- What a matrix instruction uses. -/
def matUses (ctx : Nat) : Instr → Option Uses
  | .mldcb a b g _ => some { xr := [a, b], gs := [g], noMsg := true, mat := true }
  | .mfmt a => some { xr := [a], noMsg := true, mat := true }
  | .mstat d => some { xw := some d, noMsg := true, mat := true }
  | i => (matOf ctx i).map (·.uses)

/-- R191, R91: in the message slot every matrix instruction traps SLOT_FORBIDDEN, whatever accumulator it names (the model's reading of
R191 beside R95, log 29), unless an x or v register that it names is not declared, which is UNDECLARED_REG, or it rounds under a reserved
mode, which is BAD_RND. -/
def MatForbidden : Prop :=
  ∀ (i : Instr) (u : Uses) (s : State), inMsgSlot s = true → matUses (curCtx s) i = some u →
    let traps (c : BitVec 8) : Prop := exec i s = .next (takeTrap s (curRef s) (curThread s).pc c (wordOf s.iword.toNat))
    let named : Bool := u.xr.all (fun r => decide (r.toNat < 16)) && u.xw.all (fun r => decide (r.toNat < 16))
      && u.xs.all (fun r => decide (r < 16)) && u.vs.all (fun r => decide (r < 4))
    let reserved : Prop := u.rounds = true ∧ (curThread s).csr.rnd = 7
    (named = true → ¬ reserved → traps causeSlotForbidden)
    ∧ (named = false → traps causeUndeclaredReg)
    ∧ (named = true → reserved → traps causeBadRnd)

/-- R192 to R199: the next head that the matrix engine of a core serves, if its gate lets it go, leaves its queue and is
performed: MZERO clears its accumulator; MLDA and MLDB load their latch from the scratchpad; MMA adds the product of the latches,
where no power leave is wanting, else asks for it, and performs once its leave is granted or its engine's grant still runs; MDRAIN of a sound accumulator writes its granules, filling them, and resolves its guard true,
and of a spoilt one notes the cause and resolves it false. A command whose gate turned against it is discarded, and the guard of a drain
resolves false; that it leaves the engine's round-robin pointer where it was is the model's reading (log 46). -/
def MatSteps : Prop :=
  ∀ (core i : Nat) (q : MatCmd) (s : State), matNext s core = some i → matHead (getCore s core) i = some q →
    let r : Ref := ⟨core, i⟩
    let t := refThread s r
    (q.gate ≠ .drop →
      (∀ a, q.op = .zero a → exec (.mzeroExec core) s = .next (servedMat s r fun t => setAcc t a Acc.zero))
      ∧ (∀ off rows pitch idx fmt cb, q.op = .load false off rows pitch idx fmt cb → exec (.mldaExec core) s =
        .next (servedMat s r fun t => { t with latchA := loadLatch s core off rows pitch idx fmt cb }))
      ∧ (∀ off rows pitch idx fmt cb, q.op = .load true off rows pitch idx fmt cb → exec (.mldbExec core) s =
        .next (servedMat s r fun t => { t with latchB := loadLatch s core off rows pitch idx fmt cb }))
      ∧ (∀ a, q.op = .mma a →
        (t.latchA.fmt ≠ 4 → t.latchB.fmt ≠ 4 → exec (.mmaExec core) s = .next (servedMat s r fun t =>
          let m := mmaStep t.latchA t.latchB (getAcc t a)
          matFlags (setAcc t a m.1) m.2))
        ∧ ((t.latchA.fmt = 4 ∨ t.latchB.fmt = 4) → q.leave = .none → (getCore s core).cb4Leave = false →
          exec (.mmaExec core) s = .next (askLeave (modMatHead s r fun q => { q with leave := .asked }) r 0))
        ∧ ((t.latchA.fmt = 4 ∨ t.latchB.fmt = 4) →
          q.leave = .granted ∨ (getCore s core).cb4Leave = true ∧ (∃ k, (getCore s core).lastCb4 = some k ∧ s.cycle ≤ k + 16) →
          exec (.mmaExec core) s = .next (modCore (servedMat s r fun t =>
            let m := mmaStep t.latchA t.latchB (getAcc t a)
            matFlags (setAcc t a m.1) m.2) core fun c => { c with lastCb4 := some s.cycle })))
      ∧ (∀ g a w rnd seed draw, q.op = .drain g a w none rnd seed draw →
        let acc := getAcc t a
        let es := drainElems acc w rnd seed draw
        (acc.tag = 0 → exec (.mdrainExec core) s = .next (endDrain
          ((drainGranules es w).foldl (fun s p => engineWrite s core (bytesAt p.1 p.2) [p.1 / 16]) s) r q none))
        ∧ (acc.tag ≠ 0 → exec (.mdrainExec core) s =
          .next (servedMat (modRef s r fun t => { t with drainScope := widerScope s core t.drainScope 0 }) r fun t =>
            resolveG (matCause t acc.tag) (guardNo g) false)))
      ∧ (∀ g a w target rnd seed draw p, q.op = .drain g a w (some target) rnd seed draw → (getAcc t a).tag = 0 →
        let gs := drainGranules (drainElems (getAcc t a) w rnd seed draw) w
        gs[q.pos]? = some p →
        exec (.mdrainrExec core) s = .next (modMatHead
          (send s (.drain r target p.1 p.2 (drainEnd w) (q.pos == 0) (q.pos + 1 = gs.length))) r
          fun q => { q with pos := q.pos + 1, sent := q.pos + 1 = gs.length })))
    ∧ (q.gate = .drop →
      let gone := modRef s r fun t => { t with matq := t.matq.tail }
      (∀ a, q.op = .zero a → exec (.mzeroExec core) s = .next gone)
      ∧ (∀ b off rows pitch idx fmt cb, q.op = .load b off rows pitch idx fmt cb →
        exec (if b then .mldbExec core else .mldaExec core) s = .next gone)
      ∧ (∀ a, q.op = .mma a → exec (.mmaExec core) s = .next gone)
      ∧ (∀ a tag share, q.op = .gang a tag share → gangReady s core = false → exec (.mgangExec core) s = .next gone)
      ∧ (∀ g a w target rnd seed draw, q.op = .drain g a w target rnd seed draw →
        exec (if target.isNone then .mdrainExec core else .mdrainrExec core) s =
          .next (modRef gone r fun t => resolveG t (guardNo g) false)))

/-- R198, R201, R422: an engine offers its first MGANG; with four equal tags in the row the barrier is met: the four are ready, and the
leader asks for leave; a ready gang performs as one step, each member on its own accumulator. A cluster's oldest request is granted where the
budget of its die's level admits it; a cb4 grant ends after 16 cycles without use. -/
def GangSteps : Prop :=
  ∀ (core i : Nat) (s : State),
    let lead := core / 4 * 4
    let cl := clusterOf core
    let row := [lead, lead + 1, lead + 2, lead + 3]
    let offered := modMatHead s ⟨core, i⟩ fun q => { q with offered := true }
    let tagOf (s : State) (k : Nat) : Option Nat := (gangOffer (getCore s k)).bind fun p => match p.2.op with
      | .gang _ tag _ => some tag
      | _ => none
    let met : Prop := ∃ tag, ∀ k ∈ row, tagOf offered k = some tag
    (engineRuns s core = true → matBusy (getCore s core) = none → gangOffer (getCore s core) = none →
      gangHead (getCore s core) = some i →
      (¬ met → exec (.mgangBarrier core) s = .next offered)
      ∧ (met →
        let ready := row.foldl (fun s k => match gangOffer (getCore s k) with
          | some (j, _) => modMatHead s ⟨k, j⟩ fun q => { q with ready := true }
          | none => s) offered
        ∀ j q, gangOffer (getCore ready lead) = some (j, q) → exec (.mgangBarrier core) s =
          .next (askLeave (modMatHead ready ⟨lead, j⟩ fun q => { q with leave := .asked }) ⟨lead, j⟩ 16)))
    ∧ (gangReady s core = true → ∀ j q, gangOffer (getCore s lead) = some (j, q) →
      let a := (refThread s ⟨lead, j⟩).latchA
      exec (.mgangExec core) s = .next (dropLeave (row.foldl (fun s k =>
        match gangOffer (getCore s k) with
        | some (i, q) => servedMat s ⟨k, i⟩ (gangOn a (k == lead) q)
        | none => s) s) ⟨lead, j⟩ 16))
    ∧ (∀ r rest, (getCluster s cl).leaveAsked = r :: rest → (getCluster s cl).leaveHeld.length < leaveBudget s cl →
      ∃ t, exec (.leaveGrant cl) s = .next t ∧ (getCluster t cl).leaveAsked = rest
        ∧ (getCluster t cl).leaveHeld = (getCluster s cl).leaveHeld ++ [r])
    ∧ (∀ k, (getCore s core).cb4Leave = true → (getCore s core).lastCb4 = some k → k + 16 < s.cycle →
      ((List.range 16).any fun i => match matHead (getCore s core) i with
        | some q => q.leave == .granted && !isGang q
        | none => false) = false →
      exec (.cb4LeaveEnd core) s = .next (endCb4 s core))

/-! ## Copies -/

/-- A copy address: bits 59 to 56, and 60, are 0, and the range of `len` bytes passes the check of its segment (R204, R205). -/
structure CopyAt (s : State) (w : Word) (len need : Nat) : Prop where
  zeros : fieldOf w 56 4 = 0
  dir : fieldOf w 60 1 = 0
  check : Passes s (BitVec.ofNat 3 (fieldOf w 61 3)) (wordOf (fieldOf w 0 56)) len need false

/-- The end that such an address captures. -/
def captured (s : State) (w : Word) : CopyEnd := ⟨getSeg (curThread s) (BitVec.ofNat 3 (fieldOf w 61 3)), fieldOf w 0 56⟩

/-- What the engine does with a started command at its head, its state being `s` with the head taken: it asks the owner of the source's
scratchpad for the next chunk's bytes, or moves the chunk, or stops as the chunk says; then it settles (R149, R207, R213, R215). That it
asks by one source message of its own kind, with a number that the answer brings back, is the model's choice (log 128). -/
def ChunkMoved (s : State) (r : Ref) (q : CopyCmd) (t : State) : Prop :=
  let p := copyPlan s r q
  let n := min 256 (p.total - q.pos)
  let tag := (getCore s r.core).sourceAsks + 1
  (∀ owner, q.asks r.core = some owner → q.fetch = none →
    t = modCopyHead (send (modCore s r.core fun c => { c with sourceAsks := tag })
      (.request owner ⟨r, .source (sourceRuns (p.pieces q.pos n n)) (p.srcPool.elim 0 (·.2)) tag⟩)) r
      fun q => { q with fetch := some none, asked := tag })
  ∧ (q.asks r.core = none ∨ (∃ bs, q.fetch = some (some bs)) →
    (∀ s', chunkOf s r q p = .ok s' → t = settleCopy s' r) ∧ (∀ e, chunkOf s r q p = .error e → t = stopCopy s r e))

/-- R207 to R210, R217: the command that a head becomes as it starts, with the state, and what stops it at once: a CPYM takes its
targets; a CPYH of a live reference pins its buffer, within whose size its bytes must lie, without a message where the buffer is on another core
(the model's choice, log 138); a CPYT reads its descriptor. -/
def CopyStarts (s : State) (r : Ref) (q : CopyCmd) (s' : State) (q' : CopyCmd) (e : Option CopyStop) : Prop :=
  let started := { q with started := true }
  match q.op with
  | .plain _ _ _ => s' = s ∧ q' = started ∧ e = none
  | .multi w src _ => s' = s ∧ q' = { started with op := .multi w src (castTargets s r.core w) } ∧ e = none
  | .handle ref _ _ boff => (liveHandle s (ctxOf r.core) ref = none ∧ s' = s ∧ q' = started ∧ e = some (.fail causeHandleStale))
    ∨ ∃ k j h, liveHandle s (ctxOf r.core) ref = some (k, j, h) ∧ s' = setHandle s k j { h with pins := h.pins + 1 }
      ∧ q' = { started with pinned := true } ∧ e = if boff + q.len > h.size then some (.fail causeCopyOperand) else none
  | .tensor desc bytes _ _ => s' = s ∧ (q', e) = startTensor s r started desc bytes
  | .wait _ => False

/-- R310, R312, R313: PJOIN enters a party that its thread is not in, in the cluster's table, then at the home slice, and gives the rank
there, or of one that it is in the rank it has, and acquires at DEVICE scope; PLEAVE leaves one that it is in, as a release at DEVICE scope; PSIZE, PRANK and PMASK read the
size, the thread's rank or all ones, and the cores of its cluster that have members. -/
def PartyEffect : Prop :=
  ∀ (d a : BitVec 5) (s : State),
    let t := curThread s
    let p := (getX t a).toNat
    p < 4096 →
    (Runs s { xr := [a], xw := some d, noMsg := true } →
      (partyRank t p = none → t.parties.length < 4 →
        ((mapGet? (getCluster s (clusterOf s.cur.1)).parties p).isSome = true ∨
          (getCluster s (clusterOf s.cur.1)).parties.length < 64) →
        let j := partyJoin (partyEnter s s.cur.1 p) (curCtx s) p
        exec (.pjoin d a) s = .next (advance (acquireAt (modCur j.1 fun t =>
          { setX t d (j.2.setWidth 64) with parties := t.parties ++ [(p, j.2.toNat)] }) s.cur.1 3) 4))
      ∧ (∀ r, partyRank t p = some r → exec (.pjoin d a) s = .next (moved (acquireAt s s.cur.1 3) 4 (setX t d (wordOf r)))
        ∧ exec (.prank d a) s = .next (moved s 4 (setX t d (wordOf r))))
      ∧ (partyRank t p = none → exec (.prank d a) s = .next (moved s 4 (setX t d (BitVec.allOnes 64))))
      ∧ exec (.psize d a) s = .next (moved s 4 (setX t d (wordOf (partyRec s (curCtx s) p).size)))
      ∧ exec (.pmask d a) s = .next (moved s 4 (setX t d (wordOf ((List.range 16).foldl (fun m k =>
          if (partyCounts s s.cur.1 p).getD k 0 > 0 then m + 2 ^ k else m) 0)))))
    ∧ (Runs s { xr := [a], noMsg := true } → (partyRank t p).isSome = true → t.unacked = 0 →
      exec (.pleave a) s = .next (advance (leaveParty s (curRef s) p) 4))

/-- R310: the k-th join of a party gets rank k from 0 on while the party has a member, and its size counts the members. -/
def PartyRank : Prop :=
  ∀ (s : State) (ctx p : Nat) (c : Context), getCtx? s ctx = some c →
    let r := partyRec s ctx p
    let j := partyJoin s ctx p
    (partyRec j.1 ctx p).size = (if r.size = 0 then 1 else r.size + 1)
    ∧ j.2 = (if r.size = 0 then 0 else r.joins) ∧ (partyRec j.1 ctx p).joins = j.2 + 1

/-- A muster instruction of an open gate has its muster at `p` in the current core's scratchpad (R319). -/
structure MusterAt (s : State) (word : Word) (need p : Nat) (g : BitVec 3) (n : BitVec 1) : Prop where
  gate : gateOpen (curThread s) g n = true
  zeros : fieldOf word 56 5 = 0
  kind : segKind (getSeg (curThread s) (BitVec.ofNat 3 (fieldOf word 61 3))) = kindLocal
  check : Passes s (BitVec.ofNat 3 (fieldOf word 61 3)) (wordOf (fieldOf word 0 56)) 16 need true
  place : p = addressOf s (BitVec.ofNat 3 (fieldOf word 61 3)) (wordOf (fieldOf word 0 56))
  order : selfPending s = false
  released : (curThread s).unacked = 0

/-- R317: an arrival or a change of the debt of a muster without fault: the last arrival with no debt left completes the phase; one
at EXPECTED, or past it where a store has left ARRIVED there (the model's reading, log 42), or a debt outside 32 bits, is a fault
completion, which leaves ARRIVED and DEBT. A faulted muster stays as it is. -/
def MusterRule : Prop :=
  ∀ (m : Muster) (arrive : Bool) (v : Int),
    let m' := musterChange m arrive v
    let debt := m.debt + v
    let arrived := m.arrived + if arrive then 1 else 0
    (m.fault = true → m' = m)
    ∧ (m.fault = false → (arrive = true ∧ m.expected ≤ m.arrived ∨ debt < -2 ^ 31 ∨ 2 ^ 31 ≤ debt) →
      m' = { m with fault := true, phase := !m.phase })
    ∧ (m.fault = false → (arrive = true → m.arrived < m.expected) → -2 ^ 31 ≤ debt → debt < 2 ^ 31 →
      m' = if arrived = m.expected ∧ debt = 0 then { m with arrived := 0, debt := 0, phase := !m.phase }
        else { m with arrived := arrived, debt := debt })

/-- R315 to R319: through a LOCAL segment, MINIT writes a muster on which no thread waits; MARRIVE and MDEBT change it and let its
waits be examined; MWAIT and MSYNC of guard 7 go on where their phase has passed, and park while the owner holds them; with another
guard they go on at once, the guard PENDING until the answer, or resolved by it where the phase has passed. -/
def MusterEffect : Prop :=
  ∀ (d : BitVec 3) (a b : BitVec 5) (g : BitVec 3) (n : BitVec 1) (p : Nat) (s : State),
    let t := curThread s
    let word := getX t a
    let v := getX t b
    let core := s.cur.1
    let slot := s.cur.2.val
    let sound := poolPoisoned (curCore s) p 16 = false
    (Runs s { xr := [a, b], gs := [g] } →
      (MusterAt s word (needW + needA) p g n → fieldOf v 0 16 ≠ 0 → fieldOf v 21 11 = 0 →
        scopeDefined s (curCtx s) (fieldOf v 16 5) = true → (curCore s).deferred.any (waitsOn p) = false →
        exec (.minit a b g n) s = .next (advance (modCore s core fun c => poolStore c slot p (valBytes 16 (musterBits
          ⟨fieldOf v 0 16, 0, (BitVec.ofNat 32 (fieldOf v 32 32)).toInt, false, false, fieldOf v 16 5⟩))) 4))
      ∧ (MusterAt s word needA p g n → sound →
        exec (.marrive a b g n) s = .next (advance (musterUpdate s core slot p fun m => musterChange m true (v.setWidth 32).toInt) 4)
        ∧ exec (.mdebt a b g n) s =
          .next (advance (musterUpdate s core slot p fun m => musterChange m false (v.setWidth 32).toInt) 4)))
    ∧ (∀ (sync : Bool), Runs s { xr := if sync then [a] else [a, b], gs := [g, d], noMsg := true } →
      MusterAt s word (needA + needS) p g n → sound → (sync = false → v.toNat ≤ 1) → ∀ s₂ : State,
      let i : Instr := if sync then .msync d a g n else .mwait d a b g n
      let op := if sync then 3 else 2
      let v' := if sync then 0 else v
      (d = 7 →
        (∀ scope, musterStep s core slot (curRef s) op p v' 7 true = (s₂, .answered true scope) →
          exec i s = .next (advance (acquireAt s₂ s₂.cur.1 scope) 4))
        ∧ (musterStep s core slot (curRef s) op p v' 7 true = (s₂, .held) → inMsgSlot s₂ = false →
          exec i s = .next (putThread s₂ (parkThread (curThread s₂) (.reply (.muster word) 0 0) 4))))
      ∧ (d ≠ 7 → t.asyncWaits < 4 →
        (∀ ok scope, musterStep (putThread s (pendG t d)) core slot (curRef s) op p v' d.toNat true = (s₂, .answered ok scope) →
          exec i s = .next (advance (modCur (acquireAt s₂ s₂.cur.1 scope) fun t => resolveG t d ok) 4))
        ∧ (musterStep (putThread s (pendG t d)) core slot (curRef s) op p v' d.toNat true = (s₂, .held) →
          exec i s = .next (advance (modCur s₂ fun t => { t with asyncWaits := t.asyncWaits + 1 }) 4))))

/-! ## Pairs -/

/-- The fields of a taskset descriptor that TOPEN reads (R349): `f o n` is the number in `n` bytes at offset `o`. -/
def tasksetField (bs : List Byte) (o n : Nat) : Nat := leNat ((bs.drop o).take n)
def tasksetSelf (bs : List Byte) : Bool := tasksetField bs 30 1 % 2 = 1
def tasksetB (bs : List Byte) : Nat := if tasksetSelf bs then tasksetField bs 0 8 else tasksetField bs 16 8
def tasksetCountB (bs : List Byte) : Nat := if tasksetSelf bs then tasksetField bs 8 4 else tasksetField bs 24 4

/-- A descriptor that TOPEN takes. -/
structure TasksetOk (s : State) (bs : List Byte) : Prop where
  baseA : tasksetField bs 0 8 % 64 = 0
  countA : 1 ≤ tasksetField bs 8 4
  cap : 1 ≤ tasksetField bs 14 2 ∧ tasksetField bs 14 2 ≤ 2048
  baseB : tasksetB bs % 64 = 0
  zeros : tasksetField bs 28 2 / 2 ^ 12 % 8 = 0 ∧ tasksetField bs 30 1 < 2 ∧ tasksetField bs 31 1 = 0 ∧ tasksetField bs 48 16 = 0
  roots : tasksetField bs 32 4 < tasksetField bs 8 4 ∧ tasksetField bs 36 4 < tasksetCountB bs
  trees : inTree s (curCtx s) (tasksetField bs 0 8) (tasksetField bs 8 4) = true
    ∧ inTree s (curCtx s) (tasksetB bs) (tasksetCountB bs) = true
  theta : fieldOf (curThread s).csr.apxctl 0 8 ≤ fieldOf (curThread s).csr.apxctl 8 8

/-- R349: TOPEN of a sound descriptor with a free entry opens a traversal of the next generation in its cluster, stores the root
pair there, and gives the handle. -/
def PairOpen : Prop :=
  ∀ (d a : BitVec 5) (g : BitVec 3) (n : BitVec 1) (index : Nat) (rest : List Nat) (s : State),
    let t := curThread s
    let off := (getX t a).toNat
    let bs := poolBytes (curCore s) off 64
    let k := curCluster s
    let cl := getCluster s k
    let f := tasksetField bs
    Runs s { xr := [a], xw := some d, gs := [g], noMsg := true } → gateOpen t g n = true → off % 16 = 0 → off < 2 ^ 16 →
    off + 64 ≤ curSP s → t.unacked = 0 → selfPending s = false → poolPoisoned (curCore s) off 64 = false → TasksetOk s bs →
    freeEntries cl = index :: rest → cl.pairs.length < 2048 →
    tagRoom (getCore s (firstCore k)) (liveLaunch s (curRef s)) = true →
    let gen := (mapGet cl.gens index 0 + 1) % 4096
    let h : Word := wordOf (packedOf (firstCore k) * 2 ^ 16 + gen * 16 + index)
    let trav : Traversal :=
      { nodeA := wordOf (f 0 8), countA := f 8 4, nodeB := wordOf (tasksetB bs), countB := tasksetCountB bs
        self := tasksetSelf bs, tkey := BitVec.ofNat 16 (f 12 2), cap := f 14 2, party := f 28 2 % 4096
        steal := f 28 2 / 2 ^ 15 = 1, apx := t.csr.apxctl, ltag := t.ltag, launch := liveLaunch s (curRef s)
        members := [], ended := false }
    let root : Pair :=
      { a := BitVec.ofNat 32 (f 32 4), b := BitVec.ofNat 32 (f 36 4), self := trav.self && f 32 4 == f 36 4, depth := 0
        stamp := t.csr.stamp, user := wordOf (f 40 8), handle := h }
    let s₁ := modCluster s k fun c => { c with
      gens := mapSet c.gens index gen, traversals := mapSet c.traversals index trav, members := c.members ++ [⟨h, index, 0⟩] }
    exec (.topen d a g n) s = .next (advance (modCur (storePair s₁ (curCtx s) k trav root) fun t => setX t d h) 4)

/-- R350 to R352, R344, R346, R108: of a live traversal, FORKP stores the pair of two nodes of its trees where the cluster's store and
the CAP have room; its guard is PENDING until the Hamper's answer comes, true, or false where there was no room; TAKEP ends the held pair and takes the newest record of its
own Hamper; PDONE ends the held pair, as a release at DEVICE scope. -/
def PairTake : Prop :=
  ∀ (d g e : BitVec 3) (a : BitVec 5) (b : BitVec 4) (n : BitVec 1) (trav : Traversal) (p : Pair) (rest : List Pair) (s : State),
    let t := curThread s
    let h := getX t a
    let word := getX t (regNo (2 * b.toNat))
    let k := curCluster s
    let na := fieldOf word 0 32
    let nb := fieldOf word 32 32
    let answer (s' : State) (ok : Bool) : Host.Outcome State Fault Refusal :=
      .next (advance (send (modCur s' fun t => pendG t d) (.answer (curRef s) s.cur.1 (8 + d.toNat) ok 1)) 4)
    gateOpen t g n = true → t.unacked = 0 →
    (fieldOf h 36 28 = 0 → travLive s (curCtx s) h = some trav → memberRoom s (curCtx s) k h = true →
      Runs s { xr := [a, regNo (2 * b.toNat)], xs := [2 * b.toNat + 1], gs := [g, d], noMsg := true } → na < trav.countA → nb < trav.countB →
      let stored := ((getCluster s k).pairs.filter (·.handle == h)).length
      (stored < trav.cap → (getCluster s k).pairs.length < 2048 → tagRoom (getCore s (firstCore k)) trav.launch = true →
        let made : Pair :=
          { a := BitVec.ofNat 32 na, b := BitVec.ofNat 32 nb, self := trav.self && na == nb
            depth := Nat.min 255 ((match t.held with
              | some p => p.depth
              | none => 0) + 1)
            stamp := t.csr.stamp, user := getX t (regNo (2 * b.toNat + 1)), handle := h }
        exec (.forkp d a b g n) s = answer (storePair s (curCtx s) k trav made) true)
      ∧ ((trav.cap ≤ stored ∨ 2048 ≤ (getCluster s k).pairs.length) →
        exec (.forkp d a b g n) s = answer s false))
    ∧ (Runs s { xr := [a], xs := groupRegs d, gs := [g, e], noMsg := true } → fieldOf h 36 28 = 0 →
      let s₁ := endHeld s (curRef s)
      travLive s₁ (curCtx s) h = some trav → memberRoom s₁ (curCtx s) k h = true →
      let s₂ := modCluster s₁ k fun c => setTravCount c h (travCount c h)
      newestPair (getCluster s₂ k) h = some (p, rest) →
      exec (.takep d a e g n) s = .next (advance (modCur
        (recordUnitDone (modCluster s₂ k fun c => { c with pairs := rest }) k trav) fun t =>
        resolveG (putWords { t with held := some p } (4 * d.toNat) (pairWords p)) e true) 4))
    ∧ (Runs s { gs := [g], noMsg := true } → t.held = some p →
      exec (.pdone g n) s = .next (advance (endHeld s (curRef s)) 4))

/-- R353, R354: PTEST of two sound nodes of a live traversal gives the class of the pair, and the guard whether it is FAR; PNODE
copies a sound node into eight registers. -/
def PairNodes : Prop :=
  ∀ (d g : BitVec 3) (q : BitVec 2) (a c : BitVec 5) (b : BitVec 4) (n : BitVec 1) (trav : Traversal) (s s₁ s₂ s₃ : State)
    (l₁ l₂ : Leaf) (bs₁ bs₂ : List Byte) (k : Nat),
    let t := curThread s
    let h := getX t a
    let word := getX t (regNo (2 * b.toNat))
    let na := fieldOf word 0 32
    let nb := fieldOf word 32 32
    gateOpen t g n = true → fieldOf h 36 28 = 0 → travLive s (curCtx s) h = some trav →
    (Runs s { xr := [a, regNo (2 * b.toNat)], xs := [2 * b.toNat + 1], gs := [g, d], noMsg := true } → na < trav.countA → nb < trav.countB →
      viewRead s (curView s) (trav.nodeA.toNat + 64 * na) 64 accLoad = .ok (s₁, l₁, bs₁) →
      nodeBad (bytesVal 512 bs₁) trav.countA = false →
      viewRead s₁ (curView s₁) (trav.nodeB.toNat + 64 * nb) 64 accLoad = .ok (s₂, l₂, bs₂) →
      nodeBad (bytesVal 512 bs₂) trav.countB = false →
      testPair s₂ trav (trav.self && na == nb) na nb (bytesVal 512 bs₁) (bytesVal 512 bs₂) = .ok (s₃, k) →
      exec (.ptest d a b g n) s = .next (moved s₃ 4
        (setG (setX (curThread s₃) (regNo (2 * b.toNat + 1)) (wordOf k)) d (if k = 1 then 0xFF else 0))))
    ∧ (Runs s { xr := [a, c], xs := (List.range 8).map (· + 8 * q.toNat), gs := [g], noMsg := true } →
      let w := getX t c
      let i := fieldOf w 0 32
      fieldOf w 33 31 = 0 → fieldOf w 32 1 = 0 → i < trav.countA →
      viewRead s (curView s) (trav.nodeA.toNat + 64 * i) 64 accLoad = .ok (s₁, l₁, bs₁) →
      nodeBad (bytesVal 512 bs₁) trav.countA = false →
      exec (.pnode q a c g n) s = .next (moved s₁ 4 (putWords (curThread s₁) (8 * q.toNat)
        ((List.range 8).map fun j => wordOf (fieldOf (bytesVal 512 bs₁) (64 * j) 64)))))

/-! ## Revisions -/

/-- R371: FORK of a thread that may fork, with a free entry and a free slot, starts a child there: at x[a], with the STAMP x[b], in a
new revision whose parent is the thread's, with `x[d]` = 0 and its other x registers the thread's; the parent receives the handle. -/
def RevFork : Prop :=
  ∀ (d a b : BitVec 5) (index : Nat) (slot : Ref) (s s₁ : State),
    let t := curThread s
    let home := clusterOf s.cur.1
    let cl := getCluster s home
    Runs s { xr := [a, b], xw := some d, noMsg := true } → t.depth < 15 → t.unacked = 0 →
    ((List.range 256).find? fun i => (mapGet? cl.revs i).isNone) = some index → forkSlot s = some slot →
    ((cl.forkers.takeWhile (· != curRef s)).any (forkWaits s)) = false → readyCore s slot.core t.launch = some s₁ →
    (slot.core ≠ s₁.cur.1 ∨ slotOf slot.slot ≠ s₁.cur.2) →
    let gen := if mapGet cl.revGens index 0 = 255 then 1 else mapGet cl.revGens index 0 + 1
    ∃ u, exec (.fork d a b) s = .next u
      ∧ (refThread u slot).pc = evenPc (getX t a) ∧ (refThread u slot).csr.stamp = getX t b ∧ (refThread u slot).phase = .run
      ∧ (refThread u slot).rev = some ⟨home, index⟩
      ∧ getX (refThread u slot) d = 0 ∧ (∀ e, e ≠ d → getX (refThread u slot) e = getX t e)
      ∧ (∃ v, mapGet? (getCluster u home).revs index = some v ∧ v.parent = t.rev ∧ v.phase = .running ∧ v.child = slot ∧ v.versions = [])
      ∧ getX (getThread u s₁.cur.1 s₁.cur.2) d = wordOf (packedOf (firstCore home) * 2 ^ 16 + gen * 2 ^ 8 + index)

/-- R372 to R374: JOIN of a child that has ended merges or discards it and gives 0 or 1, and waits for one that runs; JOINALL of a
thread without children gives the counts of its slot; RDECL declares a region of a context without revisions; RSTAT of handle 0
counts the context's revisions and spilled pages, and of a live one asks for its state and granules; it parks for the reply. -/
def RevJoin : Prop :=
  ∀ (d a b : BitVec 5) (r : RevRef) (e : Rev) (k : Nat) (c : Context) (s s₁ : State),
    let t := curThread s
    let h := getX t a
    let w := getX t b
    (Runs s { xr := [a], xw := some d, noMsg := true } → fieldOf h 36 28 = 0 →
      (revOf s h = some (r, e) → (t.children.any fun c => c.ref == r && c.gen == fieldOf h 8 8) = true →
        (e.phase ≠ .running → mergeRev s r e = .ok (s₁, k) → exec (.join d a) s = .next (moved s₁ 4 (setX (curThread s₁) d (wordOf k))))
        ∧ (e.phase = .running → inMsgSlot s = false → exec (.join d a) s = .next (putThread s (parkThread t .retry 4))))
      ∧ (h = 0 → exec (.rstat d a) s = .next (unitAsked s (some d) 0 (wordOf
          ((storeSpill s (curCtx s) [] + 1023) / 1024 * 2 ^ 32 + (ctxRevs s (curCtx s)).length))))
      ∧ (fieldOf h 8 8 ≠ 0 → revOf s h = some (r, e) →
        let held := (e.versions.length + e.ancestors.length) * 2 ^ 32
        (e.phase = .running → exec (.rstat d a) s = .next (unitAsked s (some d) 0 (wordOf (held + 1))))
        ∧ (e.phase = .done → exec (.rstat d a) s = .next (unitAsked s (some d) 0 (wordOf (held + 2))))
        ∧ (e.phase = .halted → exec (.rstat d a) s = .next (unitAsked s (some d) 0 (wordOf (held + 3))))))
    ∧ (Runs s { xw := some d, noMsg := true } → t.children = [] → exec (.joinall d) s = .next (moved s 4
        { setX t d (wordOf (t.joinMerged + t.joinDropped * 2 ^ 32)) with joinMerged := 0, joinDropped := 0 }))
    ∧ (Runs s { xr := [a, b], xw := some d, noMsg := true } → getCtx? s (curCtx s) = some c → h.toNat % 64 = 0 →
      fieldOf w 0 48 % 64 = 0 → fieldOf w 0 48 ≠ 0 → fieldOf w 48 4 ≤ 12 → fieldOf w 52 12 = 0 → h.toNat + fieldOf w 0 48 ≤ 2 ^ 56 →
      (∀ x ∈ c.regions, x.base + x.size ≤ h.toNat ∨ h.toNat + fieldOf w 0 48 ≤ x.base) → c.regions.length < 64 →
      ctxRevs s (curCtx s) = [] → t.unacked = 0 →
      exec (.rdecl d a b) s = .next (moved (setCtx s (curCtx s)
          { c with regions := c.regions ++ [⟨h.toNat, fieldOf w 0 48, fieldOf w 48 4⟩] }) 4 (setX t d (wordOf c.regions.length))))

/-- Element `i` of a granule, of `w` bits. -/
def elem (w i : Nat) (v : BitVec 512) : BitVec w := v.extractLsb' (w * i) w

/-- R366: an exact cell's merge, of the parent's, the child's and the ancestor's cells. -/
def cellMerged (p c a : BitVec 256) : BitVec 256 :=
  if anchorOf p = anchorOf c ∧ anchorOf c = anchorOf a then
    let sum := valOf p + valOf c - valOf a
    let ovf : BitVec 4 := if sum < -2 ^ 191 ∨ 2 ^ 191 ≤ sum then 1 else 0
    0#44 ++ (p.extractLsb' 208 4 ||| c.extractLsb' 208 4 ||| ovf) ++ p.extractLsb' 192 16 ++ BitVec.ofInt 192 sum
  else p ||| 1#256 <<< 209

/-- R365, R366: the merged value of a granule that the child wrote, by its region's type, element by element: `wrote` says that the
parent wrote it since the fork, and `sc` and `sp` are the stamps of the child's and the parent's writers. -/
def MergeValues : Prop :=
  ∀ (p c a : BitVec 512) (wrote : Bool) (sc sp : Word) (i : Nat),
    let m (type : Nat) := mergeGranule type p c a wrote sc sp
    m 0 = c ∧ m 1 = (if wrote then p else c)
    ∧ (i < 8 → elem 64 i (m 2) = elem 64 i p + elem 64 i c - elem 64 i a
      ∧ elem 64 i (m 5) = (if (elem 64 i c).toInt < (elem 64 i p).toInt then elem 64 i c else elem 64 i p)
      ∧ elem 64 i (m 6) = (if (elem 64 i p).toInt < (elem 64 i c).toInt then elem 64 i c else elem 64 i p))
    ∧ (i < 16 → elem 32 i (m 3) = elem 32 i p + elem 32 i c - elem 32 i a
      ∧ (elem 32 i (m 7)).toNat = (minMaxNum .fp32 false (elem 32 i p).toNat (elem 32 i c).toNat).1
      ∧ (elem 32 i (m 8)).toNat = (minMaxNum .fp32 true (elem 32 i p).toNat (elem 32 i c).toNat).1)
    ∧ (i < 2 → elem 256 i (m 4) = cellMerged (elem 256 i p) (elem 256 i c) (elem 256 i a))
    ∧ (i < 64 → elem 8 i (m 9) = elem 8 i p ||| (elem 8 i c &&& ~~~(elem 8 i a))
      ∧ elem 8 i (m 10) = elem 8 i p &&& ~~~(elem 8 i a &&& ~~~(elem 8 i c))
      ∧ elem 8 i (m 11) = elem 8 i p ^^^ elem 8 i a ^^^ elem 8 i c)
    ∧ m 12 = (if sp < sc ∨ wrote = false then c else p)

/-- R366: the merged VAL of a cell is the same for either order in which two children are merged. -/
def CellMergeOrder : Prop :=
  ∀ p x a y b : BitVec 256, valOf (cellMerged (cellMerged p x a) y b) = valOf (cellMerged (cellMerged p y b) x a)

/-- R365: the merges of sums, of bits set, of bits cleared and of bits toggled do not depend on the order in which two children are
merged. -/
def GranuleMergeOrder : Prop :=
  ∀ (type : Nat) (p x a y b : BitVec 512) (w v : Bool) (sx sy sp : Word),
    type = 2 ∨ type = 3 ∨ type = 9 ∨ type = 10 ∨ type = 11 →
    mergeGranule type (mergeGranule type p x a w sx sp) y b v sy sp = mergeGranule type (mergeGranule type p y b v sy sp) x a w sx sp

/-! ## Tasks and threads -/

/-- R120 to R122, R291: YIELD gives away the next home cycle; WFE clears a set event flag, and waits for a clear one; MIGRATE to the
own core does nothing, and to another core that runs the same kernel asks for a slot there, once the thread has no work of the engines,
no PENDING guard and no write on its way; TIMER gives x[d] the timer's old
value and then sets the timer to x[a] (R5: with d = a, to that old value). -/
def ThreadControl : Prop :=
  ∀ (d a : BitVec 5) (c : Context) (s : State), getCtx? s (curCtx s) = some c →
    let t := curThread s
    let v := getX t a
    (Runs s { noMsg := true } → exec .yield s = .next (moved s 4 { t with yielded := true })
      ∧ (t.event = true → exec .wfe s = .next (moved s 4 { t with event := false }))
      ∧ (t.event = false → inMsgSlot s = false → exec .wfe s = .next (putThread s (parkThread t .event 4))))
    ∧ (Runs s { xr := [a], noMsg := true } → v.toNat < 2 ^ 20 → inGrid c v.toNat = true → ∀ k, k = coreKey (curCtx s) v.toNat →
      kernelFits s s.cur.1 k = true →
      (k = s.cur.1 → exec (.migrate a) s = .next (moved s 4 t))
      ∧ (k ≠ s.cur.1 → canLeave t = true → inMsgSlot s = false → exec (.migrate a) s =
        .next (send (putThread s (parkThread t (.migrate k false) 4)) (.migrant (curRef s) k)))
      ∧ (k ≠ s.cur.1 → canLeave t = false → inMsgSlot s = false → exec (.migrate a) s =
        .next (putThread s (parkThread t (.leave k false) 4))))
    ∧ (Runs s { xr := [a], xw := some d, noMsg := true } → exec (.timer d a) s = .next (moved s 4
        { setX t d t.csr.timer with csr := { t.csr with timer := if d = a then t.csr.timer else v }, timerTrap := false }))

/-- R291, R287: TSEND sends its pair to a task, as a release at DEVICE scope; TRECV takes the oldest message or bounce into four
registers, or waits, or gives the words of an empty queue; RQPUSH appends to a priority of the core's ready queue, and RQPOP takes the
oldest id of the highest, and then appends the entries that wait to be woken; SLEEP enters the sleep table, and waits while the ready queue is empty. -/
def TaskQueues : Prop :=
  ∀ (d : BitVec 3) (e a b : BitVec 5) (h : BitVec 4) (s : State),
    let t := curThread s
    let va := getX t a
    let vb := getX t b
    let words (m : TaskMsg) : List Word := [m.lo, m.hi, wordOf (m.task.toNat + m.status * 2 ^ 32), wordOf (packedOf m.sender.core)]
    let none_ : List Word := [0, 0, wordOf (0xFF * 2 ^ 32), 0]
    (Runs s { xr := [a, regNo (2 * h.toNat)], xs := [2 * h.toNat + 1] } → va.toNat < 2 ^ 32 → t.unacked = 0 →
      portFull s s.cur.1 = false →
      exec (.tsend a h) s = .next (send (moved s 4 t) (.task (curRef s)
        ⟨getX t (regNo (2 * h.toNat)), getX t (regNo (2 * h.toNat + 1)), va.setWidth 32, curRef s, t.number, 0, 0⟩)))
    ∧ (Runs s { xs := groupRegs d, noMsg := true } →
      (∀ m rest, t.mailbox = m :: rest → ∀ f : BitVec 5, f ≠ 2 → exec (.trecv d f) s =
        .next (advance (askForward (acquireAt (putThread s (putGroup { t with mailbox := rest } d (words m))) s.cur.1 3) (curRef s)) 4))
      ∧ (t.mailbox = [] → inMsgSlot s = false → exec (.trecv d 0) s = .next (putThread s (parkThread t .retry 4))
        ∧ exec (.trecv d 1) s = .next (moved s 4 (putGroup t d none_)))
      ∧ (∀ m rest, t.bounces = m :: rest → exec (.trecv d 2) s = .next (moved s 4 (putGroup { t with bounces := rest } d (words m))))
      ∧ (t.bounces = [] → exec (.trecv d 2) s = .next (moved s 4 (putGroup t d none_))))
    ∧ (Runs s { xr := [a, b], noMsg := true } → va.toNat < 2 ^ 32 → vb.toNat < 4 →
      (∀ c, readyPush (curCore s) (va.setWidth 32) vb.toNat = (c, true) →
        exec (.rqpush a b) s = .next (advance (setCore s s.cur.1 c) 4))
      ∧ ((t.mailbox.any (·.task == va.setWidth 32)) = false → ((curCore s).sleepers.any (·.task == va.setWidth 32)) = false →
        (curCore s).sleepers.length < 16 →
        let asleep := setCore s s.cur.1 { curCore s with sleepers := (curCore s).sleepers ++ [⟨va.setWidth 32, vb.toNat, false⟩] }
        ((readyEmpty (curCore s) = false ∨ t.timerTrap = true) → exec (.sleep a b) s = .next (moved asleep 4 t))
        ∧ (readyEmpty (curCore s) = true → t.timerTrap = false → inMsgSlot s = false →
          exec (.sleep a b) s = .next (putThread asleep (parkThread t .sleep 4)))))
    ∧ (Runs s { xw := some e, noMsg := true } →
      (popReady (curCore s) = none →
        let s' := setCore s s.cur.1 (drainWoken (curCore s))
        exec (.rqpop e) s = .next (moved s' 4 (setX (curThread s') e (BitVec.allOnes 64))))
      ∧ (∀ p id c, popReady (curCore s) = some (p, id, c) →
        let s' := setCore s s.cur.1 (drainWoken c)
        exec (.rqpop e) s = .next (moved s' 4 (setX (curThread s') e (wordOf (id.toNat + p * 2 ^ 32))))))

/-- R306: LAUNCH copies a record of 64 bytes into the device launch queue, where it has room, and waits for the launch's id, which comes as Hjelec reads the record (the model's reading, log 32); DONE of
a thread with nothing outstanding and no children retires it. -/
def TaskLaunch : Prop :=
  ∀ (d a : BitVec 5) (p : Nat) (s : State),
    let t := curThread s
    let word := getX t a
    let sg : BitVec 3 := BitVec.ofNat 3 (fieldOf word 61 3)
    (Runs s { xr := [a], xw := some d, noMsg := true } → inMsgSlot s = false → fieldOf word 56 5 = 0 →
      segKind (getSeg t sg) = kindLocal → Passes s sg (wordOf (fieldOf word 0 56)) 64 needR true →
      p = addressOf s sg (wordOf (fieldOf word 0 56)) → ringRoom s (curCtx s) = true → t.unacked = 0 → selfPending s = false →
      poolPoisoned (curCore s) p 64 = false →
      exec (.launch d a) s = .next (putThread (ringPush s (curRef s) (poolBytes (curCore s) p 64)) (parkThread t (.launch d.toNat) 4)))
    ∧ (Runs s { noMsg := true } → t.matq = [] → t.copyq = [] → guardsResolved t = true → t.children = [] → t.unacked = 0 →
      exec .done s = .next (retireThread s (curRef s)))

/-! ## Messages on their way -/

/-- The packet at place `msg` of the net is `p`, its context is not SAVED (R253), and none sent before it takes the same way, so that it
may arrive (R164). -/
structure Arrives (s : State) (msg : Nat) (p : Packet) : Prop where
  here : s.net[msg]? = some p
  first : ∀ q ∈ s.net.take msg, wayOf q ≠ wayOf p
  saved : ctxSaved s (packetCtx p) = false

/-- The state without that packet. -/
def without (s : State) (msg : Nat) : State := { s with net := s.net.eraseIdx msg }

/-- R101, R104, R329, R386: the unit's reply completes the instruction that asked it: x[d] receives a result, and what acquires does
so at its scope. -/
def UnitAnswers : Prop :=
  ∀ (s : State) (d : Option (BitVec 5)) (scope : Nat) (v : Word), NoReply s → (curThread s).csr.chain = false →
    let t := curThread s
    exec (.reply s.net.length) (unitAsked s d scope v) = .next (answered (acquireAt s s.cur.1 scope) 4 (match d with
      | some d => setX t d v
      | none => t))

/-! ## Sequences -/

/-- R377, R386: the operand word names a sound descriptor, which lies at the PA `d` and is known to the home slice by `va`; `s'` is the
state in which its instruction goes on. -/
def SeqAt (s : State) (word : Word) (s' : State) (va d : Nat) : Prop :=
  ∃ s₁ v, seqPlace s word 256 = .ok (s₁, v, d) ∧ va = seqKey s₁ (curCtx s₁) v
    ∧ seqOk (payLeaves s₁ (curCtx s₁)) (curCtx s₁) d = true
    ∧ s' = noteSequence (payLeaves s₁ (curCtx s₁)) (curCtx s₁) va d

/-- R387: SPECOPEN of an idle descriptor opens its window for x[b] drafts with its thread as a member of tag 0; SPECENTER makes its
thread one without a tag, where there are fewer than sixteen; SPECTAG sets the tag of a member, or with 0xFF ends its membership,
as a release; SPECCOMMIT and SPECABORT of an open window do so and leave the guard PENDING for the commit of k drafts, or of none. -/
def SpecWindows : Prop :=
  ∀ (g : BitVec 3) (a b : BitVec 5) (va d : Nat) (s s' : State),
    let t := curThread s
    let word := getX t a
    let n := getX t b
    let member (s : State) (tag : BitVec 8) (wgen : BitVec 32) : Thread :=
      let t := curThread s
      { t with window := some ⟨word, va, wgen⟩, csr := { t.csr with specd := tag, spec := true } }
    (SeqAt s word s' va d → t.csr.spec = false →
      (Runs s { xr := [a, b], noMsg := true } → n ≠ 0 → n.toNat ≤ Nat.min 16 (seqRing s' d) → seqWstate s' d = 0 →
        let home := clusterOf s'.cur.1
        let w : SpecWindow :=
          { kv := (seqKvbase s' d, seqKvsize s' d), recur := (seqRecbase s' d, 17 * seqRsize s' d), scope := seqScope s' d
            whome := home, drafts := [], commit := none, owed := 0, wgen := seqWgen s' d }
        let own := settleVa s' (curCtx s') (some s'.cur.1) va
        let u := setWindow (seqPut (seqPut (seqPut (seqPut own d 81 1 1) d 82 1 n.toNat) d 83 1 1) d 88 4 (packedOf (firstCore home)))
          (curCtx s') va (some w)
        exec (.specopen a b) s = .next (unitAsked (putThread u (member u 0 (seqWgen u d))) none 0 0))
      ∧ (Runs s { xr := [a], noMsg := true } → seqWstate s' d = 1 → seqMembers s' d ≠ 16 →
        let u := seqPut (settleVa s' (curCtx s') (some s'.cur.1) va) d 83 1 (seqMembers s' d + 1)
        exec (.specenter a) s = .next (unitAsked (putThread u (member u 0xFF (seqWgen u d))) none 0 0)))
    ∧ (∀ m, t.window = some m → Runs s { xr := [a], noMsg := true } →
      (word = 0xFF → t.unacked = 0 → exec (.spectag a) s = .next (unitAsked (leaveWindow s (curRef s)) none 0 0))
      ∧ (word ≠ 0xFF → herePa s (curCtx s) m.desc = some d → word.toNat < seqNdraft s d →
        exec (.spectag a) s = .next (unitAsked (putThread s { t with csr := { t.csr with specd := word.setWidth 8 } }) none 0 0)))
    ∧ (SeqAt s word s' va d → isMember (curThread s') va = true → seqWstate s' d = 1 → (curThread s').unacked = 0 →
      let begun := seqPut (settleVa s' (curCtx s') (some s'.cur.1) va) d 81 1 2
      ∀ w, getWindow? begun (curCtx s') va = some w →
      let asked (k : Nat) := Host.Outcome.next (unitAsked (modCur (leaveWindow (setWindow begun (curCtx s') va
        (some { w with commit := some (curRef s', g.toNat, k) })) (curRef s')) fun t => pendG t g) none 0 0)
      (Runs s { xr := [a, b], gs := [g], noMsg := true } → n.toNat ≤ seqNdraft s' d → exec (.speccommit g a b) s = asked n.toNat)
      ∧ (Runs s { xr := [a], gs := [g], noMsg := true } → exec (.specabort g a) s = asked 0))

/-- R388, R389: KVPOS of a live position outside a member's drafts gives the address of its row and an acquire; KVADV of an idle
descriptor writes the generation of each new position and advances the length. KVPOS acquires with the
reply; its pair and guard stand written while it is parked (log 160). -/
def SpecPositions : Prop :=
  ∀ (g : BitVec 3) (a c : BitVec 5) (b : BitVec 4) (va d : Nat) (s s' s₂ : State),
    let word := getX (curThread s) a
    SeqAt s word s' va d →
    let S := seqSink s' d
    let W := seqRing s' d
    let len := seqLen s' d
    (Runs s { xr := [a, regNo (2 * b.toNat)], xs := [2 * b.toNat + 1], gs := [g], noMsg := true } →
      let v := getX (curThread s) (regNo (2 * b.toNat))
      let p := fieldOf v 0 48
      let slot := posSlot S W p
      let index := slot / 2 ^ seqLog2bp s' d
      fieldOf v 49 15 = 0 → memberTag (curThread s') va = none → p < len →
      touchAll s' ((if S ≤ p then [(seqGenva s' d + 4 * slot, 4)] else []) ++ [(seqBlklist s' d + 4 * index, 4)]) = .ok s₂ →
      (p < S ∨ genOk s₂ (curCtx s') d p = true) →
      let block := vaGet s₂ (curCtx s') (seqBlklist s₂ d + 4 * index) 4
      let bp := 2 ^ seqLog2bp s₂ d
      let rb := seqRb s₂ d
      block ≠ noBlock → block < seqKvsize s₂ d / (bp * rb) →
      exec (.kvpos g a b) s = .next (unitAsked (modCur s₂ fun t => setG (setX t (regNo (2 * b.toNat + 1))
        (wordOf (seqKvbase s₂ d + block * bp * rb + slot % bp * rb))) g 0xFF) none (seqScope s₂ d) 0))
    ∧ (Runs s { xr := [a, c], noMsg := true } →
      let n := (getX (curThread s) c).toNat
      let ps := (List.range n).map (· + len)
      n ≠ 0 → n ≤ W → seqWstate s' d = 0 → (curThread s').unacked = 0 →
      touchAll s' (ps.map fun p => (seqGenva s' d + 4 * posSlot S W p, 4)) = .ok s₂ →
      let u := ps.foldl (fun s p => vaPut32 s (curCtx s) (some s.cur.1) (seqGenva s d + 4 * posSlot S W p) (posGen S W p + 1)) s₂
      exec (.kvadv a c) s = .next (unitAsked (seqPut (settleVa u (curCtx u) (some u.cur.1) va) d 72 8 (len + n)) none 0 0))

/-- R390, R378: BALLOC takes the top block of the pool, within the KV region, with a count of 1, or gives all ones where the pool
is empty. With an index, outside a window, the block replaces that entry of the block list, whose old block is freed; by a member with a tag it
becomes tentative. BFREE of a block in use takes one off its count, and pushes it when none is left. -/
def SpecBlocks : Prop :=
  ∀ (e a b : BitVec 5) (va d j tag : Nat) (s s' s₂ s₃ s₄ s₅ s₆ : State),
    let v := getX (curThread s) b
    let i := fieldOf v 0 16
    let p := seqPool s' d
    let ctx := curCtx s'
    SeqAt s (getX (curThread s) a) s' va d → p % 64 = 0 → touchAll s' [(p, 64)] = .ok s₂ → vaGet s₂ (curCtx s₂) (p + 24) 40 = 0 →
    let top (s : State) : Nat := poolStack s ctx p + 4 * (poolTop s ctx p - 1)
    let blocks (s : State) : Nat := seqKvsize s d / (2 ^ seqLog2bp s d * seqRb s d)
    let takes (s s₃ s₄ : State) (n : Nat) : Prop := poolTop s ctx p ≠ 0 ∧ touchAll s [(top s, 4)] = .ok s₃
      ∧ vaGet s₃ ctx (top s) 4 < n ∧ touchAll s₃ [(poolCounts s₃ ctx p + 4 * vaGet s₃ ctx (top s) 4, 4)] = .ok s₄
    let r := poolTake s₄ p
    let gives (u : State) : Host.Outcome State Fault Refusal := .next (unitAsked u (some e) 0 (wordOf r.2))
    (Runs s { xr := [a, b], xw := some e, noMsg := true } → fieldOf v 16 48 = 0 →
      (i = 0xFFFF → memberTag (curThread s') va = none →
        (poolTop s₂ ctx p = 0 → exec (.balloc e a b) s = .next (unitAsked s₂ (some e) 0 (BitVec.allOnes 64)))
        ∧ (takes s₂ s₃ s₄ (blocks s₂) → exec (.balloc e a b) s = gives r.1))
      ∧ (i ≠ 0xFFFF → i < seqIndices s' d →
        (memberTag (curThread s') va = none → seqWstate s' d = 0 →
          let at_ := seqBlklist s₂ d + 4 * i
          let old := vaGet s₅ ctx at_ 4
          touchAll s₂ [(at_, 4)] = .ok s₅ →
          touchAll s₅ (if old = noBlock then [] else [(poolCounts s₅ ctx p + 4 * old, 4)]) = .ok s₆ →
          (old ≠ noBlock → old < blocks s₅ ∧ old < poolNblk s₅ ctx p ∧ poolCount s₆ ctx p old ≠ 0) →
          takes s₆ s₃ s₄ (blocks s₅) →
          let u := vaPut32 r.1 ctx (some r.1.cur.1) at_ r.2
          exec (.balloc e a b) s = gives (if old = noBlock then u else poolFree u ctx (some u.cur.1) p old))
        ∧ (memberTag (curThread s') va = some tag → ((List.range 16).find? fun j => !tentValid (seqTent s' d j)) = some j →
          takes s₂ s₃ s₄ (blocks s₂) →
          exec (.balloc e a b) s = gives (seqPut (settleVa r.1 ctx (some r.1.cur.1) va) d (96 + 8 * j) 8
            (r.2 + i * 2 ^ 32 + tag * 2 ^ 48 + 2 ^ 63)))))
    ∧ (Runs s { xr := [a, b], noMsg := true } → v.toNat < poolNblk s₂ ctx p →
      touchAll s₂ [(poolCounts s₂ ctx p + 4 * v.toNat, 4)] = .ok s₃ → poolCount s₃ ctx p v.toNat ≠ 0 →
      touchAll s₃ (if poolCount s₃ ctx p v.toNat = 1 then [(poolStack s₃ ctx p + 4 * poolTop s₃ ctx p, 4)] else []) = .ok s₄ →
      exec (.bfree a b) s = .next (unitAsked (poolFree s₄ ctx (some s₄.cur.1) p v.toNat) none 0 0))

/-- R392, R393: PXLOOK gives the four words of a key's live entry, or zeros, and acquires with the reply; PXINS gives its candidate to
the home slice and leaves its guard PENDING; of a Trail that is replayed, the one whose STAMP is recorded for its key wins and consumes the
entry, and the others lose. -/
def PrefixIssue : Prop :=
  ∀ (g : BitVec 3) (a c : BitVec 5) (b : BitVec 4) (va h : Nat) (s s₁ s₂ : State),
    let t := curThread s
    let ctx := curCtx s₂
    (Runs s { xr := [a, regNo (2 * b.toNat)], xs := groupRegs g ++ [2 * b.toNat + 1], noMsg := true } →
      let hash := (getX t (regNo (2 * b.toNat))).toNat
      let len := getX t (regNo (2 * b.toNat + 1))
      fieldOf len 32 32 = 0 → seqPlace s (getX t a) 64 = .ok (s₁, va, h) → pxOk s₁ h = true → pxTouch s₁ h hash 0 8 = .ok s₂ →
      let words := match pxFind s₂ ctx h hash len.toNat with
        | some va => (List.range 4).map fun i => wordOf (vaGet s₂ ctx (va + 8 * i) 8)
        | none => [0, 0, 0, 0]
      exec (.pxlook g a b) s = .next (unitAsked (modCur s₂ fun t => putGroup t g words) none 3 0))
    ∧ (Runs s { xr := [a, c], gs := [g], noMsg := true } → ∀ s₀ bs dest x, prefixCandidate s (getX t c) = .ok (s₀, bs, dest) →
      let hash := leNat (bs.take 8)
      let len := leNat ((bs.drop 8).take 4)
      let given (s : State) (wins : Option Bool) : Host.Outcome State Fault Refusal := .next (unitAsked (modCur
        (modCtx s (curCtx s) fun c => { c with prefixWaits := c.prefixWaits ++ [⟨curRef s, g.toNat, va, bs, dest, t.csr.stamp, wins⟩] })
        fun t => pendG { t with fetched := none } g) none 0 0)
      seqPlace s₀ (getX t a) 64 = .ok (s₁, va, h) → pxOk s₁ h = true → pxTouch s₁ h hash 0 8 = .ok s₂ →
      (curThread s₂).unacked = 0 → getCtx? s₂ ctx = some x →
      (x.trail.mode ≠ 2 → exec (.pxins g a c) s = given s₂ none)
      ∧ (x.trail.mode = 2 → prefixReplay x.trail hash len t.csr.stamp = some none → exec (.pxins g a c) s = given s₂ (some false))
      ∧ (∀ i, x.trail.mode = 2 → prefixReplay x.trail hash len t.csr.stamp = some (some i) → exec (.pxins g a c) s =
        given (modTrail s₂ ctx fun tr => { tr with consumed := i :: tr.consumed }) (some true)))

/-- R393: the home slice writes the candidate of a key that no entry holds as a live entry, and resolves its guard true; of a key that
one holds it writes that entry into the buffer, and with eight entries taken a state of 0, and resolves it false. A loser of a replay waits for the entry of its key, a winner writes over a live one (log 62), and every candidate waits for a page that its
probe visits and that is away. -/
def PrefixServed : Prop :=
  ∀ (s : State) (ctx h : Nat) (x : Context) (w : PrefixWait), getCtx? s ctx = some x →
    let hash := leNat (w.bytes.take 8)
    let len := leNat ((w.bytes.drop 8).take 4)
    let done (s : State) (ok : Bool) : State :=
      acquireAt (modRef (modCtx s ctx fun c => { c with prefixWaits := c.prefixWaits.erase w }) w.who fun t =>
        resolveG t (guardNo w.guard) ok) w.who.core 3
    (herePa s ctx w.header = none → prefixStep s ctx w = none)
    ∧ (herePa s ctx w.header = some h → pxHere s ctx h hash 0 8 = false → prefixStep s ctx w = none)
    ∧ (herePa s ctx w.header = some h → corePlaced s w.who.core = true → pxHere s ctx h hash 0 8 = true →
      (∀ va, (pxFind s ctx h hash len = none ∨ w.wins = some true) → w.wins ≠ some false → pxRoom s ctx h hash = some va →
        x.trail.mode ≠ 1 →
        prefixStep s ctx w = some (done (vaPut s ctx (some w.who.core) va (w.bytes.set 14 1)) true))
      ∧ (∀ va s', pxFind s ctx h hash len = some va → w.wins ≠ some true →
        candidateWrite s w.who w.dest 0 (leBytes 32 (vaGet s ctx va 32)) = some s' → prefixStep s ctx w = some (done s' false))
      ∧ (∀ s', pxFind s ctx h hash len = none → w.wins = none → pxRoom s ctx h hash = none →
        candidateWrite s w.who w.dest 14 [0] = some s' → prefixStep s ctx w = some (done s' false))
      ∧ (pxFind s ctx h hash len = none → w.wins = some false → prefixStep s ctx w = none))

/-- R22, R149, R406: an operand of EMITP or a candidate of PXINS in another core's scratchpad is asked for by a message, where the send
port takes one and no earlier posted STF.E or muster wait of the thread is still to be performed there (log 151); one of EMITP in main memory is read. Either way the thread parks. -/
def OperandAsked : Prop :=
  ∀ (a c : BitVec 5) (d g : BitVec 3) (n : BitVec 1) (f : Frame) (s : State),
    let t := curThread s
    let asked (v : Word) (z : Nat) : Host.Outcome State Fault Refusal :=
      let sg : BitVec 3 := BitVec.ofNat 3 (fieldOf v 61 3)
      let off := wordOf (fieldOf v 0 56)
      .next (putThread (send s (.request (coreKey (curCtx s) (segTarget (getSeg t sg))) ⟨curRef s, .load (addressOf s sg off) z⟩))
        (parkThread t (.reply .operand sg.toNat off) 4))
    let remote (v : Word) (z need : Nat) (align : Bool) : Prop :=
      let sg : BitVec 3 := BitVec.ofNat 3 (fieldOf v 61 3)
      portShut s (coreKey (curCtx s) (segTarget (getSeg t sg))) = false ∧ fieldOf v 56 5 = 0 ∧ segKind (getSeg t sg) = kindCore ∧ Passes s sg (wordOf (fieldOf v 0 56)) z need align
    t.fetched = none →
    (Runs s { xr := [a], gs := [g], noMsg := true } → gateOpen t g n = true → getFrame? s (curCtx s) = some f → f.phase = .opened →
      remote (getX t a) 128 needR false → addressOf s (BitVec.ofNat 3 (fieldOf (getX t a) 61 3)) (wordOf (fieldOf (getX t a) 0 56)) % 64 = 0 →
      exec (.emitp a g n) s = asked (getX t a) 128)
    ∧ (Runs s { xr := [a], gs := [g], noMsg := true } → gateOpen t g n = true → getFrame? s (curCtx s) = some f → f.phase = .opened →
      let v := getX t a
      let sg : BitVec 3 := BitVec.ofNat 3 (fieldOf v 61 3)
      let off := wordOf (fieldOf v 0 56)
      let va := addressOf s sg off
      fieldOf v 56 5 = 0 → segKind (getSeg t sg) = kindGlobal → Passes s sg off 128 needR false → va % 64 = 0 →
      ∀ s₁ s₂ l₁ l₂ lo hi, viewRead s (curView s) va 64 accLoad = .ok (s₁, l₁, lo) →
      viewRead s₁ (curView s₁) (va + 64) 64 accLoad = .ok (s₂, l₂, hi) →
      exec (.emitp a g n) s = .next (asking s₂ .operand sg off 4 (lo ++ hi)))
    ∧ (Runs s { xr := [a, c], gs := [d], noMsg := true } → remote (getX t c) 32 (needR + needW) true →
      exec (.pxins d a c) s = asked (getX t c) 32)

/-- R104: the reply gives the thread the bytes, and wakes it to issue again, when they are its operand. -/
def OperandGiven : Prop :=
  ∀ (msg src sg : Nat) (off : Word) (r : Ref) (bs : List Byte) (s : State), Arrives s msg (.reply r src (.ok bs)) →
    (refThread s r).phase = .parked → (refThread s r).wait = .reply .operand sg off →
    exec (.reply msg) s = .next (modRef (without s msg) r fun t =>
      { unpop t with fetched := some bs, phase := t.parkedFrom, wait := .retry, soon := true })
    ∧ (∀ (s : State) (v : Word), (curThread s).fetched = some bs →
      let sg : BitVec 3 := BitVec.ofNat 3 (fieldOf v 61 3)
      let off := wordOf (fieldOf v 0 56)
      fieldOf v 56 5 = 0 →
      (segKind (getSeg (curThread s) sg) = kindCore ∨ segKind (getSeg (curThread s) sg) = kindGlobal → Passes s sg off 128 needR false →
        addressOf s sg off % 64 = 0 → primOperand s v = .ok (s, bs))
      ∧ (segKind (getSeg (curThread s) sg) = kindCore → Passes s sg off 32 (needR + needW) true →
        prefixCandidate s v = .ok (s, bs, ⟨getSeg (curThread s) sg, fieldOf v 0 56⟩)))

/-! ## The link unit -/

/-- R330 to R334: with an open gate RCVPOST posts a window over pinned pages, or withdraws one, as a release at DEVICE scope; TSARM
arms a send from a descriptor in the scratchpad and gives its id; TSCAN reads an arm, and frees a failed one; CTRRD reads a counter
and acquires with the reply; CTRADD adds to one as a release. Each parks for the unit's reply. -/
def LinkIssue : Prop :=
  ∀ (d a c : BitVec 5) (b : BitVec 4) (g : BitVec 3) (n : BitVec 1) (x : Context) (s : State), getCtx? s (curCtx s) = some x →
    let t := curThread s
    let va := getX t a
    let ctx := curCtx s
    gateOpen t g n = true → t.unacked = 0 →
    (Runs s { xr := [a, regNo (2 * b.toNat)], xs := [2 * b.toNat + 1], gs := [g], noMsg := true } →
      let w := fieldOf va 0 8
      let addr := getX t (regNo (2 * b.toNat))
      let len := getX t (regNo (2 * b.toNat + 1))
      let sg : BitVec 3 := BitVec.ofNat 3 (fieldOf addr 61 3)
      let old := match getPost? s ctx w with
        | some x => x.pages
        | none => []
      fieldOf va 16 48 = 0 → fieldOf len 32 32 = 0 →
      (len = 0 → exec (.rcvpost a b g n) s = .next (unitAsked (unpinAll (setPost s ctx w none) ctx old) none 0 0))
      ∧ (len ≠ 0 → fieldOf addr 56 5 = 0 → Passes s sg (wordOf (fieldOf addr 0 56)) len.toNat needW false →
        segKind (getSeg t sg) = kindGlobal → addressOf s sg (wordOf (fieldOf addr 0 56)) % 64 = 0 → ∀ s' pages pieces,
        pinRange s ctx (addressOf s sg (wordOf (fieldOf addr 0 56))) len.toNat [] [] (len.toNat / 65536 + 2) = .ok (s', pages, pieces) →
        exec (.rcvpost a b g n) s =
          .next (unitAsked (unpinAll (setPost s' ctx w (some ⟨pieces, len.toNat, fieldOf va 8 8, pages⟩)) ctx old) none 0 0)))
    ∧ (Runs s { xr := [a], xw := some d, gs := [g], noMsg := true } →
      (∀ i, va.toNat % 16 = 0 → va.toNat + 32 ≤ curSP s → selfPending s = false → poolPoisoned (curCore s) va.toNat 32 = false →
        let bs := poolBytes (curCore s) va.toNat 32
        let f (o n : Nat) : Nat := leNat ((bs.drop o).take n)
        let src : Word := wordOf (f 0 8)
        let sg : BitVec 3 := BitVec.ofNat 3 (fieldOf src 61 3)
        1 ≤ f 8 4 → f 8 4 ≤ 2 ^ 31 → f 18 1 < 64 → f 22 2 = 0 → fieldOf src 56 5 = 0 →
        Passes s sg (wordOf (fieldOf src 0 56)) (f 8 4) needR false → segKind (getSeg t sg) ≠ kindCore →
        ((List.range 256).find? fun i => (mapGet? x.arms i).isNone) = some i →
        let gen : BitVec 8 := mapGet x.armGens i 0 + 1
        let arm : Arm :=
          { gen := gen, state := armArmed, reason := 0, src := ⟨getSeg t sg, fieldOf src 0 56⟩, ctxCore := s.cur.1, slot := s.cur.2.val, held := false
            sys := t.csr.sys, len := f 8 4, doff := f 12 4, rctx := BitVec.ofNat 16 (f 16 2), dev := f 18 1
            win := f 19 1, tctr := f 20 1, sctr := f 21 1, thresh := wordOf (f 24 8), accepted := 0, packets := [] }
        exec (.tsarm d a g n) s = .next (unitAsked
          (fireArms (setArm (setCtx s ctx { x with armGens := mapSet x.armGens i gen }) ctx i (some arm)) ctx)
          (some d) 0 (wordOf (i + gen.toNat * 256))))
      ∧ (∀ arm, getArm? s ctx (fieldOf va 0 8) = some arm → va.toNat / 256 = arm.gen.toNat →
        let s' := if arm.state = armFailed then setArm s ctx (fieldOf va 0 8) none else s
        exec (.tscan d a g n) s = .next (unitAsked s' (some d) 0 (armWord arm)))
      ∧ (getArm? s ctx (fieldOf va 0 8) = none → exec (.tscan d a g n) s = .next (unitAsked s (some d) 0 0))
      ∧ (va.toNat < 256 → exec (.ctrrd d a g n) s = .next (unitAsked s (some d) 3 (mapGet x.counters va.toNat 0))))
    ∧ (Runs s { xr := [a, c], gs := [g], noMsg := true } → va.toNat < 256 →
      exec (.ctradd a c g n) s = .next (unitAsked (counterAdd s ctx va.toNat (getX t c)) none 0 0))

/-! ## The raster units -/

/-- R400, R403, R406: in an open frame, EMITP of a sound record that is not below its floor, as a release at DEVICE scope, sends it to its
owners and publishes the watermarks;
SEQWM raises the thread's floor, and SEQWM.HOLD its die's hold; LIFT lifts every hold; CLOSE begins to close the frame and leaves its
guard PENDING. -/
def RasterGeometry : Prop :=
  ∀ (d : BitVec 3) (a : BitVec 5) (g : BitVec 3) (n : BitVec 1) (f : Frame) (s : State),
    let t := curThread s
    let v := getX t a
    let ctx := curCtx s
    let here := dieOf s s.cur.1
    gateOpen t g n = true → getFrame? s ctx = some f → f.phase = .opened →
    (Runs s { xr := [a], gs := [g], noMsg := true } →
      (∀ s₁ bs, primOperand s v = .ok (s₁, bs) →
        let rec_ : PrimRec := bytesVal 1024 bs
        let die := geometryDie s₁
        let owners := primOwners f rec_
        primOk rec_ (frameNstate f) = true → belowFloor s₁ f (primSeq rec_) = false →
        (∀ x, mapGet? f.geo die = some x → x.binner.length < 64) → (curThread s₁).unacked = 0 →
        let sent := owners.foldl (fun s r => send s (.prim (curCtx s₁) die r rec_)) s₁
        let queued := if owners.isEmpty then sent else modFrame sent (curCtx s₁) fun f =>
          match mapGet? f.geo die with
          | some x => { f with geo := mapSet f.geo die { x with binner := x.binner ++ [rec_] } }
          | none => f
        let floor : Word := if primSeq rec_ = BitVec.allOnes 64 then primSeq rec_ else primSeq rec_ + 1
        exec (.emitp a g n) s =
          .next (advance (publishWatermarks (modCur queued fun t =>
            { t with geo := some (floor, die), fetched := none }) (curCtx s₁)) 4))
      ∧ (belowFloor s f v = false → exec (.seqwm a g n) s = .next (advance (publishWatermarks
          (putThread s { t with geo := some (v, geometryDie s) }) ctx) 4))
      ∧ (∀ x, mapGet? f.geo here = some x → v.ult x.hold = false → exec (.seqwmHold a g n) s = .next (advance (publishWatermarks
          (modFrame s ctx fun f => { f with geo := mapSet f.geo here { x with hold := v } }) ctx) 4)))
    ∧ (Runs s { gs := [g], noMsg := true } → exec (.rframeLift g n) s = .next (advance (liftHolds s ctx) 4))
    ∧ (Runs s { gs := [g, d], noMsg := true } → exec (.rframeClose d g n) s = .next (advance (modCur
        (liftHolds (modFrame s ctx fun f => { f with phase := .closing, closer := some (curRef s, d.toNat) }) ctx)
        fun t => pendG t d) 4))

/-- R406, R396: FQUAD gives a fragment thread its quad; FOUT hands its sixteen lanes and kill mask to the owner once, as a release at
DEVICE scope; OPEN of a sound descriptor and fragment launch record opens the frame, which takes the next launch id. -/
def RasterFragments : Prop :=
  ∀ (d : BitVec 3) (a e : BitVec 5) (b : BitVec 4) (g : BitVec 3) (n : BitVec 1) (q : Quad) (c : Context) (s : State),
    let t := curThread s
    let v := getX t a
    let ctx := curCtx s
    gateOpen t g n = true →
    (t.quad = some q →
      (Runs s { xs := groupRegs d, vs := [e.toNat], gs := [g], noMsg := true } →
        let place := q.qx + q.qy * 2 ^ 16 + q.coverage.toNat * 2 ^ 32 + q.samples * 2 ^ 48
        let weights := (q.bary.zipIdx.map fun w => w.1.toNat * 2 ^ (32 * w.2)).sum
        exec (.fquad d e g n) s = .next (moved s 4 (setV (putGroup t d [q.seq, wordOf place, q.attr, q.user]) e (BitVec.ofNat 256 weights))))
      ∧ (Runs s { xr := [a], vs := [2 * b.toNat, 2 * b.toNat + 1], gs := [g], noMsg := true } → fieldOf v 4 60 = 0 → q.out = false →
        t.unacked = 0 →
        let lanes := (List.range 2).flatMap fun i => (List.range 8).map fun j =>
          BitVec.ofNat 32 (fieldOf (getV t (regNo (2 * b.toNat + i))) (32 * j) 32)
        exec (.fout a b g n) s = .next (advance (modCur (modFrame s ctx fun f => modOwner f q.owner fun o =>
            { o with results := o.results ++ [⟨q.prim, q.seq, q.qx, q.qy, q.coverage, some lanes, v.setWidth 4, false⟩] })
          fun t => { t with quad := some { q with out := true } }) 4)))
    ∧ (Runs s { xr := [a], gs := [g, d], noMsg := true } → getCtx? s ctx = some c → c.frame.phase = .closed → v.toNat % 16 = 0 →
      v.toNat + 128 ≤ curSP s → selfPending s = false → poolPoisoned (curCore s) v.toNat 128 = false →
      let f := { emptyFrame with
        desc := bytesVal 1024 (poolBytes (curCore s) v.toNat 128), core := s.cur.1, offset := v.toNat
        openLaunch := liveLaunch s (curRef s), ltag := t.ltag }
      frameOk s ctx c f = true → needRange s ctx (frameFlrec f) 64 = .here →
      let record : BitVec 512 := bytesVal 512 ((vaBytes s ctx (frameFlrec f) 64).getD [])
      fragRecordOk record = true → ∀ k, checkRecord s ctx c record true = .ok k →
      exec (.rframeOpen d a g n) s = .next (advance (modCur (openFrom s ctx c { f with record := record } k) fun t => setG t d 0xFF) 4))

/-! ## Messages on their way -/

/-- R104, R151, R163, R164, R170: a reply is held back while its thread is halted (R253, R418); else a load's reply writes its register and completes it; the reply of an access that failed at its
owner traps there with the cause, at the address, or SEGMENT_LIMIT with the offset; an acknowledgement takes one write off the count
of its thread; a chain word enters the queue of the thread that it was sent to; a message enters the inbound queue of 32 while it
has room, to be pending from the next cycle (R99), and else waits, as one for a core that is saved does (log 76); a refused request is sent
again once its 256 cycles have passed and nothing that its agent sent to the core before it, and that may wait there, is still to be
performed (log 151). The id of a launch is such a reply, and completes the LAUNCH (R306). HOME's answer completes an HFREE, and lets an HPASS deliver its reference where the inbox has
room (R218). -/
def NetArrivals : Prop :=
  ∀ (msg : Nat) (s : State),
    let s' := without s msg
    (∀ r src data, Arrives s msg (.reply r src data) → replyHeld s r = true → exec (.reply msg) s = .next s)
    ∧ (∀ r src (d w sg : Nat) off, (refThread s r).wait = .reply (.load d w) sg off → replyHeld s r = false →
      (∀ bs, Arrives s msg (.reply r src (.ok bs)) → exec (.reply msg) s =
        .next (replyDone s' r (some (regNo d, loadValue w bs)) 0))
      ∧ (∀ c, c ≠ 0x10 → Arrives s msg (.reply r src (.error c)) → exec (.reply msg) s =
        .next (trapParked s' r c (wordOf (segBase (getSeg (refThread s r) (guardNo sg))) + off)))
      ∧ (Arrives s msg (.reply r src (.error 0x10)) → exec (.reply msg) s = .next (trapParked s' r (causeSegLimit sg) off)))
    ∧ (∀ r src (d : Nat) bs, Arrives s msg (.reply r src (.ok bs)) → replyHeld s r = false → (refThread s r).wait = .launch d →
      exec (.reply msg) s = .next (replyDone s' r (some (regNo d, bytesVal 64 bs)) 0))
    ∧ (∀ r src w sg off bs, Arrives s msg (.reply r src (.ok bs)) → replyHeld s r = false →
      ((refThread s r).wait = .reply (.handle w none) sg off →
        exec (.reply msg) s = .next (modRef (writeBack s' r none) r completeWait))
      ∧ (∀ v dst, (refThread s r).wait = .reply (.handle w (some v)) sg off → passTarget s' (ctxOf r.core) v = .ok dst →
        ((refThread s dst).inbox.length < 4 → exec (.reply msg) s =
          .next (modRef (writeBack (modRef s' dst fun t => { t with inbox := t.inbox ++ [(w, r.core)] }) r none) r completeWait))
        ∧ (4 ≤ (refThread s dst).inbox.length → exec (.reply msg) s =
          .next (modRef s' r fun t => { t with passing := some (w, dst), wait := .pass }))))
    ∧ (∀ r k, Arrives s msg (.ack r k) → exec (.acknowledgement msg) s =
      .next (modRef s' r fun t => { t with unacked := t.unacked - 1 }))
    ∧ (∀ src dst w, Arrives s msg (.chainWord src dst w) → (refThread s dst).up = some src → exec (.chainWord msg) s =
      .next (modRef s' dst fun t => { t with chainIn := t.chainIn ++ [w] }))
    ∧ (∀ d m, Arrives s msg (.request d m) →
      (corePlaced s d = true → (getCore s d).inq.length < 32 → exec (.messageArrival msg) s =
        .next (modCore s' d fun c => { c with inq := c.inq ++ [m], arrived := c.arrived + 1 }))
      ∧ (corePlaced s d = false ∨ 32 ≤ (getCore s d).inq.length → exec (.messageArrival msg) s = .next s))
    ∧ (∀ d m due, Arrives s msg (.resend d m due) →
      let behind : Bool := heldAt s' d m.src || s'.net.any (mayWaitTo d m.src) || (s.net.take msg).any (resendTo d m.src)
      (due ≤ s.cycle → behind = false → exec (.deferredResend msg) s = .next (send s' (.request d m)))
      ∧ (s.cycle < due ∨ behind = true → exec (.deferredResend msg) s = .next s))

/-- The message slot of a core takes the message `m`, the oldest of its inbound queue, which did not arrive in this cycle (R99, R165). -/
structure Serves (s : State) (core : Nat) (m : Message) : Prop where
  slot : slotServes s core = true
  head : (getCore s core).inq.head? = some m
  pending : (getCore s core).arrived < (getCore s core).inq.length

/-- The state without the head of a core's inbound queue. -/
def taken (s : State) (core : Nat) : State := modCore s core fun c => { c with inq := c.inq.tail }

/-- R148, R165, R168, R169, R241 to R246: the message slot of a core that is IDLE takes the oldest message of its queue. A user
message starts its handler at the handler's address, with its data in `x8` and `x9` and its source in `AMSRC`, and acquires from
the sender; a load answers with its bytes, POISONED where one is, and out of bounds where the range leaves the scratchpad, as the
source bytes of a copy engine are, whose request is a message of its own kind, with its range checked at the answer (COPY_REMOTE out of
bounds, R213; the model's choice, log 128); a store
writes its bytes and is acknowledged; an atomic stores its new value and answers the old one; a cell takes its addend, answers its
bytes, or answers and raises its exponent, and an addend for a poisoned cell is refused at the issuing core; a muster step changes its
muster and is acknowledged; an operation on a handle of this core (R218) answers HANDLE_STALE or HANDLE_OWNER, or frees the entry, now or
with its last pin, or gives it its new owner. -/
def SlotServed : Prop :=
  ∀ (core : Nat) (m : Message) (s : State), Serves s core m →
    let s' := taken s core
    let c := getCore s core
    let room := scratchSize c.part
    let answer (d : Except (BitVec 8) (List Byte)) (s : State) : State := send s (.reply m.src core d)
    let ack (s : State) : State := send s (.ack m.src core)
    let write (a : Nat) (bs : List Byte) : State := modCore s' core fun c => poolStore c 16 a bs
    (∀ handler lo hi k, m.req = .user handler lo hi k → exec (.handlerStart core) s = .next (acquireAt
      (modThread s' core 15 fun t => { setX (setX t 8 lo) 9 hi with
        phase := .handling, pc := handler, handler := handler, issues := 0, current := some m
        csr := { t.csr with amsrc := BitVec.ofNat 20 (packedOf m.src.core) } }) core (coverScope s' m.src.core core)))
    ∧ (∀ a n, m.req = .load a n →
      (a + n ≤ room → poolPoisoned c a n = false → exec (.load core) s = .next (answer (.ok (poolBytes c a n)) s'))
      ∧ (a + n ≤ room → poolPoisoned c a n = true → exec (.load core) s = .next (answer (.error causePoisoned) s'))
      ∧ (room < a + n → exec (.load core) s = .next (answer (.error 0x10) s')))
    ∧ (∀ runs check tag, m.req = .source runs check tag →
      let granted (d : Except (BitVec 8) (List Byte)) : Host.Outcome State Fault Refusal := .next (send s' (.source m.src core tag d))
      (room < check → exec (.load core) s = granted (.error causeCopyRemote))
      ∧ (check ≤ room → (∃ p ∈ runs, poolPoisoned c p.1 p.2 = true) → exec (.load core) s = granted (.error causePoisoned))
      ∧ (check ≤ room → (∀ p ∈ runs, poolPoisoned c p.1 p.2 = false) →
        exec (.load core) s = granted (.ok (runs.flatMap fun p => poolBytes c p.1 p.2))))
    ∧ (∀ a bs, m.req = .store a bs →
      (a + bs.length ≤ room → exec (.store core) s = .next (ack (write a bs)))
      ∧ (room < a + bs.length → exec (.store core) s = .next (ack (refuseWrite s' core))))
    ∧ (∀ a op z v new, m.req = .atomic a op z v new → a + z ≤ room →
      (poolPoisoned c a z = true → exec (.atomic core) s = .next (answer (.error causePoisoned) s'))
      ∧ (poolPoisoned c a z = false →
        let old := leNat (poolBytes c a z)
        let reply := Except.ok (leBytes z old ++ [(atomicFlags op old v.toNat).setWidth 8])
        (∀ n, atomicNew op z old v.toNat new.toNat = some n → exec (.atomic core) s = .next (answer reply (write a (leBytes z n))))
        ∧ (atomicNew op z old v.toNat new.toNat = none → exec (.atomic core) s = .next (answer reply s'))))
    ∧ (∀ a op b e, m.req = .cell a op b e → a + 32 ≤ room → (op = 0 ∨ poolPoisoned c a 32 = false) →
      let cell : BitVec 256 := bytesVal 256 (poolBytes c a 32)
      (op < 4 → exec (.atomic core) s = .next (ack (write a (valBytes 32 (cellWrite op cell b e)))))
      ∧ (op = 4 ∨ op = 5 → exec (.atomic core) s = .next (answer (.ok (valBytes 32 cell)) s'))
      ∧ (6 ≤ op → exec (.atomic core) s = .next (answer (.ok (valBytes 8 (cellMaxe cell (b.setWidth 16)).2))
          (write a (valBytes 32 (cellMaxe cell (b.setWidth 16)).1)))))
    ∧ (∀ a op b e, m.req = .cell a op b e → a + 32 ≤ room → op ≠ 0 → op < 4 → poolPoisoned c a 32 = true →
      exec (.atomic core) s = .next (ack (refuseWrite s' m.src.core)))
    ∧ (∀ w pass, m.req = .handle w pass →
      (liveHandle s (ctxOf m.src.core) w = none → serveHandle core s = .next (answer (.error causeHandleStale) s'))
      ∧ (∀ k i h, liveHandle s (ctxOf m.src.core) w = some (k, i, h) →
        (h.owner ≠ m.src → serveHandle core s = .next (answer (.error causeHandleOwner) s'))
        ∧ (h.owner = m.src → pass = none → serveHandle core s = .next (answer (.ok []) (setHandle s' k i
            (if h.pins = 0 then { h with state := hFree, gen := h.gen + 1 } else { h with state := hFreeing }))))
        ∧ (∀ v dst, h.owner = m.src → pass = some v → passTarget s' (ctxOf m.src.core) v = .ok dst →
          serveHandle core s = .next (answer (.ok []) (setHandle s' k i { h with owner := dst })))))
    ∧ (∀ a v g, a + 16 ≤ room → poolPoisoned c a 16 = false →
      (m.req = .muster 1 a v g → exec (.musterStep core) s =
        .next (ack (musterUpdate s' core 16 a fun m => musterChange m true (v.setWidth 32).toInt)))
      ∧ (m.req = .muster 4 a v g → exec (.musterStep core) s =
        .next (ack (musterUpdate s' core 16 a fun m => musterChange m false (v.setWidth 32).toInt))))

/-- R149 to R151: a synchronising load, a fill or an FE request of another core whose condition holds is performed, and the
accesses that it frees are served; else it joins the list of 64 deferred requests, or, with no room there, it is to be sent again
after 256 cycles. -/
def SyncServed : Prop :=
  ∀ (core : Nat) (m : Message) (i : Instr) (s : State), Serves s core m →
    ((∃ a n clear, m.req = .syncLoad a n clear ∧ i = .syncLoad core) ∨ (∃ a bs empty, m.req = .fill a bs empty ∧ i = .fill core)
      ∨ ∃ a op, m.req = .fe a op ∧ i = .fe core) →
    requestEnd m.req ≤ scratchSize (getCore s core).part →
    let s' := taken s core
    (syncMet (getCore s core) m.req = true →
      (∀ c bs, syncDo (getCore s' core) 16 m.req = .ok (c, bs) → exec i s = .next (settleBits
        (send (setCore s' core c) (if isPosted m.req then .ack m.src core else .reply m.src core (.ok bs))) core))
      ∧ (∀ e, syncDo (getCore s' core) 16 m.req = .error e → exec i s = .next (settleBits
        (send s' (if isPosted m.req then .ack m.src core else .reply m.src core (.error e))) core)))
    ∧ (syncMet (getCore s core) m.req = false →
      (((getCore s core).deferred.filter takesEntry).length < 64 → exec i s = .next (modCore s' core fun c =>
        { c with deferred := c.deferred ++ [⟨m.src, m.req, false⟩] }))
      ∧ (64 ≤ ((getCore s core).deferred.filter takesEntry).length → exec i s = .next (send s' (.resend core m (s.cycle + 256)))))

/-- R122, R123, R199, R215, R318, R350: the answer of a held wait resolves its guard, or completes the thread where it is not halted, MUSTER_FAULT where the
muster failed, and acquires at the muster's scope; the Hamper's answer to a FORKP resolves its guard; a migrating thread that its target takes moves to the lowest EMPTY slot there;
a granule of MDRAINR is written in its target, filling it, and the last ends its command, MAT_REMOTE where the range leaves that
scratchpad; a copy's chunk is written where its range lies within the scratchpad,
and its command then settles; the source bytes that a copy engine has asked for are at hand when they come, and a failure at their
owner fails the command; those of an earlier request are discarded (log 128). -/
def EngineArrivals : Prop :=
  ∀ (msg : Nat) (s : State),
    let s' := without s msg
    (∀ d k g ok scope, Arrives s msg (.answer d k g ok scope) →
      let s₁ := acquireAt s' d.core scope
      (g < 7 → exec (.musterAnswer msg) s = .next (modRef s₁ d fun t =>
        { resolveG t (guardNo g) ok with asyncWaits := t.asyncWaits - 1 }))
      ∧ (8 ≤ g → exec (.musterAnswer msg) s = .next (modRef s₁ d fun t => resolveG t (guardNo (g - 8)) ok))
      ∧ (g = 7 → replyHeld s d = true → exec (.musterAnswer msg) s = .next s)
      ∧ (g = 7 → replyHeld s d = false → ∀ word sg off, (refThread s₁ d).wait = .reply (.muster word) sg off → exec (.musterAnswer msg) s =
        .next (if ok then modRef (writeBack s₁ d none) d completeWait else trapParked s₁ d causeMusterFault word)))
    ∧ (∀ src dst k again slot s'', Arrives s msg (.migrant src dst) → (refThread s src).wait = .migrate k again →
      (refThread s src).phase = .parked → migrateReady s' src dst = true →
      lowestEmpty (getCore s dst) (getCore s src.core).part = some slot → readyCore s' dst (liveLaunch s' src) = some s'' →
      exec (.migrationArrival msg) s = .next (migrateThread s'' src ⟨dst, slot⟩ again))
    ∧ (∀ src dst addr bs endOff first, Arrives s msg (.drain src dst addr bs endOff first false) →
      (endOff ≤ scratchSize (getCore s dst).part → exec (.mdrainrWrite msg) s =
        .next (engineWrite s' dst (bytesAt addr bs) [addr / 16]))
      ∧ (scratchSize (getCore s dst).part < endOff → exec (.mdrainrWrite msg) s = .next s'))
    ∧ (∀ src dst addr bs endOff first q rest, Arrives s msg (.drain src dst addr bs endOff first true) →
      (endOff ≤ scratchSize (getCore s dst).part → (refThread (engineWrite s' dst (bytesAt addr bs) [addr / 16]) src).matq = q :: rest →
        exec (.mdrainrWrite msg) s = .next (endDrain (engineWrite s' dst (bytesAt addr bs) [addr / 16]) src q none))
      ∧ (scratchSize (getCore s dst).part < endOff → (refThread s src).matq = q :: rest →
        exec (.mdrainrWrite msg) s = .next (endDrain s' src q (some causeMatRemote))))
    ∧ (∀ src dst n bytes fill debt check, Arrives s msg (.chunk src dst n bytes fill debt check) →
      (check ≤ scratchSize (getCore s dst).part → exec (.copyChunkArrival msg) s = .next (settleCopy
        (modCopyHead (applyChunk s' dst bytes fill debt) src fun q => { q with flight := q.flight - 1 }) src))
      ∧ (scratchSize (getCore s dst).part < check → exec (.copyChunkArrival msg) s = .next (settleCopy
        (modCopyHead s' src fun q => { q with
          flight := q.flight - 1, refused := if q.refused.contains dst then q.refused else q.refused ++ [dst] }) src)))
    ∧ (∀ r k tag data q, Arrives s msg (.source r k tag data) → copyHead (getCore s r.core) r.slot = some q →
      (q.fetch = some none → q.asked = tag →
        (∀ bs, data = .ok bs → exec (.reply msg) s = .next (modCopyHead s' r fun q => { q with fetch := some (some bs) }))
        ∧ (∀ c, data = .error c → exec (.reply msg) s =
          .next (stopCopy (modCopyHead s' r fun q => { q with fetch := none }) r (.fail c))))
      ∧ (q.fetch ≠ some none ∨ q.asked ≠ tag → exec (.reply msg) s = .next s'))

/-! ## Tasks, timers and Hampers -/

/-- R285, R286, R288, R289: the home slice's verdict on a task message: STALE for an id that is not the entry's, EXITED for an
exited task, on to the slot of a placed one whose mailbox in memory is empty, and else into that mailbox, or MBOX_FULL, where a swapped one is
wanted; a forward enters its slot's mailbox, and bounces where its task has gone; a core's
request for a forward that waits behind another is made once that one has come (log 149); a bounce reaches its thread while its queue of four has room; an exited entry can be FREE again. -/
def TaskSteps : Prop :=
  ∀ (msg : Nat) (s : State),
    let s' := without s msg
    (∀ src m, Arrives s msg (.task src m) →
      let ctx := ctxOf src.core
      let i := taskIndex m.task
      let bounced (n : Nat) : Host.Outcome State Fault Refusal := .next (send s' (.bounce { m with status := n }))
      (getTask? s ctx i = none ∨ currentId s ctx i ≠ m.task → exec (.taskMessageVerdict msg) s = bounced 2)
      ∧ (∀ e, getTask? s ctx i = some e → currentId s ctx i = m.task →
        let m' := { m with order := e.verdicts }
        let e' := { e with verdicts := e.verdicts + 1, want := if e.phase = .swapped then true else e.want }
        (e.phase = .exited → exec (.taskMessageVerdict msg) s = .next (send s' (.bounce { m' with status := 1 })))
        ∧ (e.phase = .placed → e.mbox = [] → exec (.taskMessageVerdict msg) s =
          .next (send (setTask s' ctx i e') (.forward e.place m' false)))
        ∧ (e.phase = .unplaced ∨ e.phase = .swapped ∨ (e.phase = .placed ∧ e.mbox ≠ []) →
          (e.mbox.length < mailboxCap s ctx → exec (.taskMessageVerdict msg) s =
            .next (setTask s' ctx i { e' with mbox := insertByVerdict m' e.mbox }))
          ∧ (mailboxCap s ctx ≤ e.mbox.length → exec (.taskMessageVerdict msg) s =
            .next (send (setTask s' ctx i e') (.bounce { m' with status := 3 }))))))
    ∧ (∀ d m asked e, Arrives s msg (.forward d m asked) → getTask? s (ctxOf d.core) (taskIndex m.task) = some e →
      e.phase = .placed → currentId s (ctxOf d.core) (taskIndex m.task) = m.task →
      (asked = true ∨ ((refThread s e.place).mailbox.length + askedInFlight s' e.place < 8 ∧
        m.task ∉ (refThread s e.place).refusal)) →
      exec (.forwardDelivery msg) s = .next (modCore (modRef s' e.place fun t =>
        { t with mailbox := t.mailbox ++ [m], event := true }) e.place.core fun c => wakeSleeper c m.task))
    ∧ (∀ d m asked e, Arrives s msg (.forward d m asked) → getTask? s (ctxOf d.core) (taskIndex m.task) = some e →
      currentId s (ctxOf d.core) (taskIndex m.task) ≠ m.task →
      exec (.forwardDelivery msg) s = .next (send s' (.bounce { m with status := 1 })))
    ∧ (∀ d id, Arrives s msg (.ask d id) →
      exec (.forwardDelivery msg) s = .next (if forwardInFlight s' d id then s else askForward s' d))
    ∧ (∀ m r, Arrives s msg (.bounce m) → m.sender.slot ≠ 15 → threadByNumber s' (ctxOf m.sender.core) m.number = some r →
      (refThread s r).bounces.length < 4 →
      exec (.bounce msg) s = .next (modRef s' r fun t => { t with bounces := t.bounces ++ [m] }))
    ∧ (∀ ctx index e, getTask? s ctx index = some e → e.phase = .exited → exec (.taskEntryReclaim ctx index) s =
      .next (modCtx s ctx fun c => { c with tasks := mapErase c.tasks index }))

/-- R291, R323, R413: a slot timer that steps to 0 sets its event flag, leaves a TIMER trap pending, and ends SLEEP's park; a
thread about to issue takes a pending MSG_LOST trap, whose value holds the task and the count, before a pending TIMER trap; an
access in poll mode is issued again once its time has come. -/
def SlotSteps : Prop :=
  ∀ (core slot : Nat) (s : State), slot < 15 →
    let r : Ref := ⟨core, slot⟩
    let t := refThread s r
    let s' := modCluster s (clusterOf core) fun c => { c with forkers := c.forkers.filter (· != r) }
    (t.csr.timer = 1 → t.phase ≠ .halted → exec (.timerExpiry core slot) s = .next (modRef s r fun t =>
      let t := { t with csr := { t.csr with timer := 0 }, event := true, timerTrap := true }
      if t.wait = .sleep then completeWait t else t))
    ∧ (t.phase = .run → engineRuns s core = true →
      (t.msgLost = true → exec (.asyncTrap core slot) s = .next (modRef s' r fun t =>
        { enterTrap (unpark t) (unpark t).pc causeMsgLost (wordOf (t.lostTask.toNat + t.lost.toNat * 2 ^ 32)) with
          msgLost := false, lost := 0 }))
      ∧ (t.msgLost = false → t.timerTrap = true → exec (.asyncTrap core slot) s = .next (modRef s' r fun t =>
        { enterTrap (unpark t) (unpark t).pc causeTimer 0 with timerTrap := false })))
    ∧ (∀ c, t.wait = .poll c → c ≠ 0 →
      (c ≤ s.cycle → exec (.pollReissue core slot) s = .next (modRef s r fun t => { t with wait := .poll 0 }))
      ∧ (s.cycle < c → exec (.pollReissue core slot) s = .next s))

/-- R344 to R347, R301, R342: a taker of a live traversal that may steal takes what its round finds, or asks again 1,024 cycles
later; a stolen pair is given to its taker, which acquires; a count message changes the set of member clusters with pairs, and the
last ends the traversal, a `done` waiting, with nothing changed, for every `up` sent before it (the model's reading, log 77); the END of a traversal answers the cluster's parked takers
false and frees its entries, the home's last. -/
def HamperSteps : Prop :=
  (∀ (core slot : Nat) (k : Taker) (t : Traversal) (s : State), slot < 16 →
    (getCluster s (clusterOf core)).takers.find? (·.who == ⟨core, slot⟩) = some k → travLive s (ctxOf core) k.handle = some t →
    k.next ≤ s.cycle → t.steal = true → engineRuns s core = true →
    (∀ s', stealRound s (ctxOf core) (clusterOf core) k t = some s' → exec (.stealRound core slot) s =
      .next (modCluster s' (clusterOf core) fun c => { c with takers := c.takers.erase k }))
    ∧ (stealRound s (ctxOf core) (clusterOf core) k t = none → exec (.stealRound core slot) s =
      .next (modCluster s (clusterOf core) fun c =>
        { c with takers := c.takers.map fun x => if x == k then { x with next := s.cycle + 1024 } else x })))
  ∧ (∀ (msg : Nat) (s : State),
    let s' := without s msg
    (∀ v k p t, Arrives s msg (.stolen v k p) → travEntry s' (ctxOf k.who.core) p.handle = some t →
      exec (.stealArrival msg) s = .next (acquireAt (givePair (recordUnitDone s' (clusterOf k.who.core) t) k p) k.who.core
        (coverScope (recordUnitDone s' (clusterOf k.who.core) t) (firstCore v) k.who.core)))
    ∧ (∀ h src home up t, Arrives s msg (.count h src home up) → travEntry s' (ctxOf (firstCore home)) h = some t →
      (up = true ∨ countUps (s.net.take msg) h (ctxOf (firstCore home)) = false) →
      let put := modCluster s' home fun c =>
        { c with traversals := mapSet c.traversals (handleIndex h) { t with members := setPut t.members src up } }
      exec (.traversalCountMessage msg) s = .next (if up then put else travCheck put (ctxOf (firstCore home)) h))
    ∧ (∀ h src home, Arrives s msg (.count h src home false) → countUps (s.net.take msg) h (ctxOf (firstCore home)) = true →
      exec (.traversalCountMessage msg) s = .next s))
  ∧ (∀ (cluster index : Nat) (m : MemberEntry) (t : Traversal) (s : State), (getCluster s cluster).members[index]? = some m →
    let ctx := ctxOf (firstCore cluster)
    travEntry s ctx m.handle = some t → t.ended = true →
    (cluster ≠ handleHome ctx m.handle → exec (.traversalEnd cluster index) s = .next (endMember s cluster m.handle))
    ∧ (cluster = handleHome ctx m.handle →
      (∀ p ∈ s.clusters, p.1 ≠ cluster → ctxOf (firstCore p.1) = ctx → ∀ x ∈ p.2.members, x.handle ≠ m.handle) →
      exec (.traversalEnd cluster index) s = .next (modCluster (endMember s cluster m.handle) cluster fun c =>
        { c with traversals := mapErase c.traversals (handleIndex m.handle) })))

/-! ## Launches -/

/-- R281, R283, R284, R297, R298: Hjelec reads the record at a host queue's head, or the oldest of the device queue of the context whose
priority is highest, whose head moves on, gives the launch the next id, and sends it to the thread whose LAUNCH put it there (log 32: R306 gives that thread no other id); a sound record's
launch is READ with DONEFUT's page pinned, and task entries are reserved for it; one that fails a check is complete, REFUSED with the
lowest reason, 10 where the context is FAULTED and nothing else is wrong. -/
def RecordRead : Prop :=
  ∀ (ctx queue : Nat) (rec : BitVec 512) (who : Option Ref) (c : Context) (s s' : State), takesWork s = true →
    (nextRecord s ctx queue = some (rec, who, s') → getCtx? s' ctx = some c →
      (queue = 64 → ∀ p ∈ s.contexts, p.1 ≠ ctx → p.2.ring ≠ [] → ctxPrio p.2 ≤ ctxPrio c) →
      ∀ reason k, readReason c (checkRecord s' ctx c rec false) (doneNeed s' ctx rec) = some (reason, k) →
      let pin := lrecDonefut rec ≠ 0 && doneNeed s' ctx rec == .here && reason != 10
      let pinned := if pin then pinOne s' ctx (lrecDonefut rec) else s'
      let entered := modCtx pinned ctx fun x => { x with
        launchId := c.launchId + 1
        launches := mapSet x.launches c.launchId.toNat { newLaunch rec k .read queue with pinned := pin } }
      let told := match who with
        | none => entered
        | some r => send entered (.reply r r.core (.ok (valBytes 8 (c.launchId.setWidth 64))))
      (reason = 0 → exec (.launchRecordRead ctx queue) s = .next (reserveTasks told ctx c.launchId))
      ∧ (reason ≠ 0 → exec (.launchRecordRead ctx queue) s = .next (finishLaunch
        (if queue < 64 then modHostq told queue fun h => { h with badrec := true } else told) ctx c.launchId
        (0x80000000 ||| BitVec.ofNat 32 reason))))
    ∧ (∀ h, queue < 64 → getHostq s queue = h → h.enable = true → h.head ≠ h.tail → h.ctxnum.toNat = ctx →
      nextRecord s ctx queue = some
        (BitVec.ofNat 512 (memNat s (h.base.toNat + 64 * (h.head.toNat % 2 ^ h.log2n.toNat)) 64), none,
          modHostq s queue fun h => { h with head := h.head + 1 }))
    ∧ (∀ c rec w rest, getCtx? s ctx = some c → c.ring = (rec, w) :: rest →
      nextRecord s ctx 64 = some (rec, some w, setCtx s ctx { c with ring := rest }))

/-- R250, R297, R299, R305: a launch that is READ is placed where its queue has no earlier one, its scopes and tables still pass (that of
the reasons only 7 and 9 are looked at again is the model's choice, log 65), its context's grid has its clusters, and its cores take it: its kernel is registered, each rank is bound to its slot, and the launch and its
context run. -/
def LaunchPlaced : Prop :=
  ∀ (ctx launch : Nat) (cores : List Nat) (c : Context) (l : Launch) (base : Nat) (s s' : State),
    getCtx? s ctx = some c → mapGet? c.launches launch = some l → takesWork s = true →
    l.phase = .read → (c.phase = .idle ∨ c.phase = .running) →
    (∀ p ∈ c.launches, p.1 < launch → p.2.phase = .read → p.2.queue ≠ l.queue) →
    let k := l.kernel
    let u := partSlots k.part
    let n := lrecThreads l.record
    let id := BitVec.ofNat 32 launch
    cores.length = (n + u - 1) / u → cores.eraseDups.length = cores.length → (∀ k ∈ cores, inGrid c k = true) →
    scopeReason s ctx c k = 0 → tableReason s ctx c k = 0 → placeGrid (reserveTasks s ctx id) ctx c = some s' →
    (getLaunch? (reserveTasks s ctx id) ctx id).bind (·.taskBase) = some base →
    let keys := cores.map (coreKey ctx)
    (∀ x ∈ keys.zipIdx, coreTakes s' id l x.1 (x.2 * u) = true) →
    exec (.placeLaunch ctx launch cores) s = .next (modCtx (modLaunch
      ((List.range n).foldl (bindRank ctx id l keys base) (registerKernel s' ctx k)) ctx id fun l =>
        { l with phase := .running, treePins := treePages s' ctx k.trees }) ctx fun c => { c with phase := .running })

/-- R70, R75, R96, R300: dispatch of a BOUND slot of a running context, in a core that has its kernel's image or is given it now: the
thread takes the next thread number that no live thread has and starts at its entry, from the next cycle, with the eight words of its rank and launch, the id of its first task
among them where it has a run of tasks, its three segments, and its CSRs, and acquires at DEVICE scope. -/
def ThreadDispatched : Prop :=
  ∀ (core slot : Nat) (c : Context) (b : Bind) (l : Launch) (s s₁ : State), slot < 16 →
    let ctx := ctxOf core
    let r : Ref := ⟨core, slot⟩
    getCtx? s ctx = some c → mapGet? (getCore s core).binds slot = some b → getLaunch? s ctx b.launch = some l →
    (refThread s r).phase = .bound → c.phase = .running → (getCore s core).halting = false →
    (if (getCore s core).imageDue then loadImage s core b.launch else some s) = some s₁ →
    b.quad = none →
    let firstTask := if lrecTasks b.record = 0 then 0
      else (taskId (b.taskBase + 1) (mapGet c.taskGens (b.taskBase + 1) 0)).toNat
    let number := nextNumber s₁ ctx
    let s' := modCtx s₁ ctx fun c => { c with threadNumber := number }
    let seg2 := (launchSeg2 s' ctx c l.record).getD 0
    let limit := segLimit seg2
    let own : SegWord := BitVec.ofNat 128 ((segBase seg2 + b.rank.toNat * limit) % 2 ^ 56 + seg2.toNat / 2 ^ 56 * 2 ^ 56)
    exec (.dispatch core slot) s = .next (acquireAt (modRef s' r fun t =>
      let t := putWords t 0 [lrecArg b.record 0, lrecArg b.record 1, wordOf limit, wordOf b.rank.toNat,
        wordOf (lrecThreads b.record), lrecArg b.record 2, wordOf firstTask, wordOf b.launch.toNat]
      { t with
        phase := .run, pc := evenPc b.pc, number := number, soon := true
        seg := ((t.seg.set 0 (frameSeg l.kernel.localsz (lrecFrame b.record) slot)).set 1 (defaultSeg1 b.part)).set 2
          (if seg2 = 0 then 0 else own)
        csr := { t.csr with
          stamp := b.stamp, task := b.task, sys := b.sys, chain := b.chain, tvec := evenPc (ctxTvec c)
          deadline := wordOf l.kernel.deadline } }) core 3)

/-- R301 to R304: an `up` adds one at its node; a `done` that no `up` precedes takes one off with its status word, and the root's
last completes the launch; a running launch whose count exceeds its deadline, a deadline of 0 as any other (log 19), halts its context. -/
def LaunchCounted : Prop :=
  ∀ (msg : Nat) (s : State),
    let s' := without s msg
    (∀ ctx l k parent, Arrives s msg (.up ctx l k parent) → exec (.counterUp msg) s = .next (nodeAdd s' ctx l parent))
    ∧ (∀ ctx l k parent word x, Arrives s msg (.done ctx l k parent word) →
      (∀ p ∈ s.net.take msg, ∀ k q, p ≠ .up ctx l k q) → getLaunch? (nodeSub s' ctx l parent word) ctx l = some x →
      let t := nodeSub s' ctx l parent word
      (parent = nodeRoot → nodeCount t ctx l nodeRoot = 0 → x.phase = .running →
        exec (.counterDone msg) s = .next (finishLaunch t ctx l (mapGet x.words nodeRoot 0)))
      ∧ ((parent ≠ nodeRoot ∨ nodeCount t ctx l nodeRoot ≠ 0) → exec (.counterDone msg) s = .next t))
    ∧ (∀ ctx c, getCtx? s ctx = some c → c.phase = .running →
      ((∃ p ∈ c.launches, p.2.phase = .running ∧ p.2.kernel.deadline < p.2.ran ∧ c.frame.phase = .closed) →
        exec (.deadlineCheck ctx) s = .next (setCtx s ctx
          { c with phase := .halting, reason := some causeDeadlineOverrun, haltVal := 0, mustDump := true }))
      ∧ ((∀ p ∈ c.launches, p.2.ran ≤ p.2.kernel.deadline) → exec (.deadlineCheck ctx) s = .next s))

/-! ## Pages -/

/-- R271 to R274 (the shootdown at a duplication is log 87): Hjelec takes the oldest fault record of a die that it can serve off the buffer, and wakes the context's accesses, or
halts the context with PF_UNMAPPED; the buffer's capacity changes, at most to 1,024, once the buffer and the pending set are
both empty; a RESIDENT page with no
waiter, which is none of the context's revision pool or Trail, becomes EVICTING; a software write of its entry abandons the eviction; at its
commit point, which waits for the future accesses that wait on it, its translations and lines are dropped, C is set, and what the page
holds is taken hold of; its copy-out keeps that and leaves it BASKET with its quarters
in four idle places, or HOST where it is no 64 KiB RAW page or there are no such places; a recall brings it back from the basket or from host memory
to the frame RESIDENT, and wakes; a DUPLICATED page has its bytes, scales, poison and future bits in every group. -/
def PageMoves : Prop :=
  (∀ (die capacity : Nat) (s : State), die < 8 → 8 ≤ capacity → capacity ≤ 1024 →
    exec (.faultBufferCapacity die capacity) s = .next (settleCapacity (modDie s die fun d => { d with newCapacity := some capacity }) die))
  ∧ (∀ (die : Nat) (r : FaultRec) (s : State),
    (getDie s die).faults.find? (fun r => faultState s r == .wake || faultState s r == .unserviceable) = some r →
    let s' := settleCapacity (modDie s die fun d => { d with faults := d.faults.erase r }) die
    (faultState s r = .wake → exec (.faultService die) s = .next (replayFaults s' r.ctx die))
    ∧ (faultState s r = .unserviceable → exec (.faultService die) s = .next (haltContext s' r.ctx causePfUnmapped)))
  ∧ (∀ (ctx va : Nat) (l : Leaf) (c : Context) (s : State), rawLeaf s ctx va = some l → getCtx? s ctx = some c →
    let n := leafSize l
    let pa := pteFrame l.base
    let key := awayKey l va
    let noted (s : State) (base : Word) (cells : Option (List Host.Cell)) : State :=
      modCtx (setLeaf s l base) ctx fun c => { c with evicting := mapSet c.evicting l.entry cells }
    let ended (s : State) : State := modCtx s ctx fun c => { c with evicting := mapErase c.evicting l.entry }
    (pteState l.base = stResident → frameWaits s pa n = false → deviceOwn c (pageStart l va) n = false →
      exec (.evictionSelect ctx va) s = .next (noted s (setPteState l.base stEvicting false) none))
    ∧ (pteState l.base = stEvicting → pteCommit l.base = false →
      (mapGet? c.evicting l.entry ≠ none →
        (frameWaits s pa n = false → exec (.commitPoint ctx va) s = .next (dropPage
          (noted (shootdown s ctx va) (setPteState l.base stEvicting true) (some (frameCells s l))) l false))
        ∧ (frameWaits s pa n = true → exec (.commitPoint ctx va) s = .next s))
      ∧ (mapGet? c.evicting l.entry = none → exec (.commitPoint ctx va) s = .next (ended s)))
    ∧ (∀ cells, pteState l.base = stEvicting → pteCommit l.base = true → mapGet? c.evicting l.entry = some (some cells) →
      ((l.large = true ∨ pteFmt l.fmt ≠ 0 ∨ basketRoom s ctx = false) →
        exec (.copyOutComplete ctx va []) s = .next (setLeaf (modCtx (ended s) ctx fun c =>
          { c with away := mapSet c.away key cells }) l (setPteState l.base stHost false)))
      ∧ (∀ a b c d, l.large = false → pteFmt l.fmt = 0 → [a, b, c, d].Nodup → (∀ q ∈ [a, b, c, d], quarterFits s ctx q = true) →
        let placed := placeQuarter (placeQuarter (placeQuarter (placeQuarter s key 0 a cells) key 1 b cells) key 2 c cells) key 3 d cells
        exec (.copyOutComplete ctx va [a, b, c, d]) s = .next (setLeaf (modCtx (ended placed) ctx fun x =>
          { x with away := mapSet x.away key (cells.filter fun b => decide (2 ^ 33 ≤ b.1)) }) l (setPteState l.base stBasket false))))
    ∧ (∀ frame, frameFits s frame n = true → pteState l.base = stHost ∨ (pteState l.base = stBasket ∧ c.phase ≠ .saved) →
      let kept := mapGet c.away key []
      let held := if pteState l.base = stBasket then restoreFrame (freeQuarters s ctx key) l frame (basketBytes s ctx key ++ kept)
        else restoreFrame s l frame kept
      let back := modCtx held ctx fun c => { c with away := mapErase c.away key }
      exec (.recall ctx va frame) s = .next (wakeRecall (payLeaves (setLeaf back l
        (setField (setField (setPteState l.base stResident false) 16 36 (frame / 65536)) 56 8 0)) ctx) ctx (va / n * n) n))
    ∧ (pteState l.base = stResident → isDevice s pa = true →
      (∀ g, g < 4 → isDevice s (inGroup pa g + n - 1) = true ∧
        (scaleSize l = 0 ∨ isDevice s (inGroup (pteScale l.fmt) g + scaleSize l - 1) = true)) →
      exec (.duplicate ctx va) s = .next (setLeaf (shootdown ((List.range 4).foldl (fun s' g =>
        restoreFrame s' { l with fmt := setField l.fmt 28 2 g } (inGroup pa g) (frameCells s l)) s) ctx va) l
        (setPteState l.base stDuplicated false))))

/-- R360: Hjelec maps and pins the next page of a recording Trail that has filled, with the rights of its first page (log 88: R360
gives none); with no frame to
give, the Trail has no more. -/
def TrailGrows : Prop :=
  ∀ (ctx : Nat) (c : Context) (s : State), getCtx? s ctx = some c → c.trail.mode = 1 → c.trail.full = true →
    c.trail.exhausted = false →
    exec (.trailPageMap ctx none) s = .next (modTrail s ctx fun t => { t with exhausted := true })
    ∧ (∀ pa slot first, leafSlot s (ctxRoot c) (ctxTrailbase c + 65536 * c.trail.pages) walkLevels = some slot →
      rawLeaf s ctx (ctxTrailbase c) = some first → frameFits s pa 65536 = true →
      pteState (wordOf (memNat s slot 8)) = stUnmapped →
      let base := setField (setField (setPteState first.base stPinned false) 16 36 (pa / 65536)) 56 8 1
      exec (.trailPageMap ctx (some pa)) s = .next (modTrail (memWrite s slot (valBytes 8 base ++ leBytes 8 0)) ctx fun t =>
        { t with pages := t.pages + 1 }))

/-! ## The device and the host -/

/-- R420, R421, R423: RESET clears the device, leaving host memory, fuses and modules, and ends READY where die links, modules and
dies are sound and an image verifies, its peer links in training; a thermal shutdown clears it without power. -/
def PowerSteps : Prop :=
  ∀ s : State,
    (∃ t, exec .reset s = .next t ∧ t.cores = [] ∧ t.contexts = [] ∧ t.power = true ∧ t.images = s.images ∧ t.rollback = s.rollback
      ∧ (∀ a, 2 ^ 48 ≤ a → memByte t a = memByte s a) ∧ (∀ a, a < 2 ^ 48 → memByte t a = 0)
      ∧ (s.dieLinks = [] → modulesOk s = true → (∀ d, d < 8 → 1008 ≤ presentOn s d) → ∀ i, chosenImage s = some i →
        t.status.ready = true ∧ t.status.bootfail = false ∧ t.runningImage = some i ∧ ∀ l, l < 12 → (getPeer t l).state = 1)
      ∧ (chosenImage s = none → t.status.ready = false ∧ t.status.bootfail = true))
    ∧ exec .thermalShutdown s = .next (clearedDevice s false)

/-- R421 to R427: the governor sets a die's level; telemetry is written for one of twelve units; a corrected error counts, and an
uncorrectable one sets UE, and drops the cache line or TLB entry, or poisons the granule or line, in which it is found; scrubbing changes nothing; the anti-rollback value only rises, never while the
older slot, by its version (the model's reading, log 100), holds the only other verified image; an attestation advances its counter before its report, and is an error before
READY or once the leaves have run out, and its core map is a SHAKE256 of 256 bits (presumed, log 106). -/
def CareSteps : Prop :=
  (∀ (die core unit : Nat) (level : BitVec 4) (power : BitVec 16) (temp : BitVec 8) (s : State), s.power = true →
    (die < 8 → exec (.governorLevel die level) s = .next (modDie s die fun d => { d with level := level }))
    ∧ (unit < 12 → exec (.telemetryUpdate unit power temp) s = .next { s with
        telemetry := mapSet s.telemetry unit (wordOf (power.toNat * 2 ^ 48 + temp.toNat * 2 ^ 32 +
          (if unit < 8 then (getDie s unit).grants.toNat * 2 ^ 8 + (getDie s unit).level.toNat else 0))) })
    ∧ (unit < 12 → mapGet s.corrected unit 0 ≠ BitVec.allOnes 64 → exec (.correctedError unit) s =
      .next { s with corrected := mapSet s.corrected unit (mapGet s.corrected unit 0 + 1) })
    ∧ exec (.scrub core) s = .next s
    ∧ (∀ g, g < 4096 → exec (.uncorrectableError (.granule core g)) s = .next (modCore
        { s with status := { s.status with ue := true } } core fun c => { c with poison := setAdd c.poison g }))
    ∧ (let found := { s with status := { s.status with ue := true } }
      (∀ k n, exec (.uncorrectableError (.cacheLine k n)) s = .next (modCluster found k fun c => { c with cache := mapErase c.cache n }))
      ∧ (∀ k e, exec (.uncorrectableError (.tlbEntry k e)) s = .next (modCluster found k fun c => { c with tlb := mapErase c.tlb e }))
      ∧ ∀ d e, exec (.uncorrectableError (.dieTlb d e)) s = .next (modDie found d fun x => { x with tlb := mapErase x.tlb e }))
    ∧ (∀ n, isDevice s (64 * n) = true → exec (.uncorrectableError (.line n)) s =
      .next { s with status := { s.status with ue := true }, poisoned := setAdd s.poisoned n }))
  ∧ (∀ (value : Nat) (nonce : BitVec 256) (s : State),
    (∀ i : Fin 2, s.status.ready = true → s.rollback < value → s.runningImage = some i →
      let other : Fin 2 := 1 - i
      ((imageOk s other = false ∨ (s.images.get i).version ≤ (s.images.get other).version) →
        exec (.antiRollbackRaise value) s = .next { s with rollback := value })
      ∧ (imageOk s other = true → (s.images.get other).version < (s.images.get i).version →
        exec (.antiRollbackRaise value) s = .next s))
    ∧ (value ≤ s.rollback → exec (.antiRollbackRaise value) s = .next s)
    ∧ (s.power = true →
      let n := Nat.max s.attest.counter s.attest.fuse
      ((s.status.ready = false ∨ s.attest.leaves ≤ n) → exec (.attestationRequest nonce) s =
        .next { s with attest := { s.attest with report := some none } })
      ∧ (s.status.ready = true → n < s.attest.leaves → exec (.attestationRequest nonce) s = .next { s with attest := { s.attest with
          counter := n + 1, fuse := if (n + 1) % 1024 = 0 then n + 1 else s.attest.fuse, report := some (some
            { nonce := nonce, counter := n + 1, slot := s.runningImage, image := Config.imageHash (s.runningImage.getD 0)
              rollback := s.rollback, coreMap := shake256 ((List.range 1040).map fun i => BitVec.ofNat 8 (coreMapByte s i))
              key := Config.keyHash }) } })))

/-- R23, R281, R323, R325, R327, R417: TAIL moves a host queue's tail, and an overrun queue stops; ENABLE needs a size of 2^4 to 2^16
and an aligned base; a write to the status word clears the latches its bits name; RETRAIN puts a link that is down or failed in
training; the counters of overflowed waits and of corrected errors clear; the host writes backed memory and reads it where it is not
poisoned and no image of the device's own, which retains what child revisions captured and abandons the evictions of entries it meets; an access of BAR 0 reads its registers, and writes them as REGISTER_WRITE does. A write of
addresses that are not backed changes nothing, and a read of them returns a free value: both are this model's choice (log 17). -/
def BarSteps : Prop :=
  ∀ (queue link unit pa n value off : Nat) (v : BitVec 32) (s : State),
    (s.status.ready = true → queue < 64 →
      let h := getHostq s queue
      ((v - h.head).toNat ≤ 2 ^ h.log2n.toNat → exec (.tail queue v) s = .next (modHostq s queue fun h => { h with tail := v }))
      ∧ (2 ^ h.log2n.toNat < (v - h.head).toNat → exec (.tail queue v) s =
        .next (modHostq s queue fun h => { h with tail := v, overrun := true, enable := false }))
      ∧ (exec (.enable queue false) s = .next (modHostq s queue fun h => { h with enable := false }))
      ∧ (4 ≤ h.log2n.toNat → h.log2n.toNat ≤ 16 → h.base.toNat % (64 * 2 ^ h.log2n.toNat) = 0 →
        exec (.enable queue true) s = .next (modHostq s queue fun h => { h with enable := true })))
    ∧ (s.power = true → exec (.registerWrite 0 v) s = .next { s with status := { s.status with
        ue := s.status.ue && !v.getLsbD 2, peerdn := s.status.peerdn && !v.getLsbD 3
        diefail := s.status.diefail && !v.getLsbD 4, ctxref := s.status.ctxref && !v.getLsbD 5 } })
    ∧ (s.status.ready = true →
      (link < 12 → ((getPeer s link).state = 0 ∨ (getPeer s link).state = 4) → exec (.retrain link) s =
        .next (modPeer s link fun l => { l with state := 1, attempts := 0 }))
      ∧ exec (.waitovf unit) s = .next { s with waitovf := mapErase s.waitovf unit }
      ∧ exec (.correctedErrorCount unit) s = .next { s with corrected := mapErase s.corrected unit })
    ∧ (s.power = true → pa < 2 ^ 52 → 0 < n → (isDevice s pa = true → s.status.ready = true) →
      (isBacked s pa = true → isBacked s (pa + n - 1) = true →
        exec (.hostAccess true pa n value) s = .next (softWrite s pa (leBytes n value))
        ∧ (memPoisoned s pa n = false → inSaveArea s pa n = false → exec (.hostAccess false pa n value) s =
          .next { s with hostRead := bytesVal 64 (memBytes s pa (Nat.min n 8)) }))
      ∧ ((isBacked s pa = false ∨ isBacked s (pa + n - 1) = false) → exec (.hostAccess true pa n value) s = .next s
        ∧ exec (.hostAccess false pa n value) s = .next { s with free := s.free + 1, hostRead := Config.freeWord s.free }))
    ∧ (s.power = true →
      (off % 4 = 0 → exec (.hostAccess true (2 ^ 52 + off) 4 value) s = exec (.registerWrite off (BitVec.ofNat 32 value)) s)
      ∧ (0 < n → n ≤ 8 → (∀ i, i < n → (barByte s (off + i)).isSome = true) → exec (.hostAccess false (2 ^ 52 + off) n value) s =
        .next { s with hostRead := bytesVal 64 ((List.range n).map fun i => BitVec.ofNat 8 ((barByte s (off + i)).getD 0)) }))

/-! ## Links -/

/-- R331, R332 (routes are what bring-up gives the device, and a link that is not up only delays, log 16): a packet for a posted window whose bytes lie in it is written there, and its counter rises by its length; a packet of a
sending arm that the window does not take, or whose context is not there, is sent again after its back-off, which
doubles up to 65,536, or fails the send; its fate comes back over the link of its route, while that is up; a send whose source has been
read and whose device has no route fails, as one does that finds none on its way; the arm is complete once its last packet has been accepted, and its counter rises by its
length. -/
def PacketSteps : Prop :=
  (∀ (ctx window offset : Nat) (payload : List (BitVec 8)) (w : Window) (s : State), getPost? s ctx window = some w →
    (payload ≠ [] → payload.length ≤ 4096 → offset + payload.length ≤ w.len → exec (.packetReceived ctx window offset payload) s =
      .next (counterAdd (windowWrite s offset payload w.pieces) ctx w.counter (wordOf payload.length)))
    ∧ (w.len < offset + payload.length → exec (.packetReceived ctx window offset payload) s = .next s))
  ∧ (∀ (ctx arm packet : Nat) (a : Arm) (off wait : Nat) (bs : List Byte) (s : State), getArm? s ctx arm = some a →
    (∀ k, mapGet? a.packets packet = some (off, bs, wait, none) → a.state = armSending → openLink s a.dev = some k →
      let counted := modPeer s k fun l =>
        { l with returns := if l.returns = 0xFFFFFFFF then l.returns else l.returns + 1 }
      exec (.packetReturned ctx arm packet 0) s = .next (setArm counted ctx arm (some { a with
        packets := mapSet a.packets packet (off, bs, Nat.min 65536 (2 * wait), some (s.cycle + wait)) }))
      ∧ exec (.packetReturned ctx arm packet 1) s = .next (setArm counted ctx arm (some { a with
        state := armFailed, reason := 1, packets := [] }))
      ∧ (mapErase a.packets packet = [] → exec (.sendComplete ctx arm packet) s =
        .next (counterAdd (setArm s ctx arm none) ctx a.sctr (wordOf a.len)))
      ∧ (mapErase a.packets packet ≠ [] → exec (.sendComplete ctx arm packet) s = .next (setArm s ctx arm (some { a with
        packets := mapErase a.packets packet, accepted := a.accepted + bs.length }))))
    ∧ (mapGet? a.packets packet = some (off, bs, wait, none) → a.state = armSending →
      exec (.packetReturned ctx arm packet 2) s = .next (setArm s ctx arm (some { a with
        state := armFailed, reason := 2, packets := [] }))
      ∧ (openLink s a.dev = none → exec (.packetReturned ctx arm packet 0) s = .next s
        ∧ exec (.packetReturned ctx arm packet 1) s = .next s ∧ exec (.sendComplete ctx arm packet) s = .next s))
    ∧ (∀ got, sendBytes s a (segBase a.src.seg + a.src.off) a.len (a.len / 64 + 2) = .bytes got → linkTo s a.dev = none →
      fireArm s ctx arm = setArm s ctx arm (some { a with state := armFailed, reason := 2, held := false }))
    ∧ (∀ due, mapGet? a.packets packet = some (off, bs, wait, some due) →
      (due ≤ s.cycle → exec (.backoffResend ctx arm packet) s =
        .next (setArm s ctx arm (some { a with packets := mapSet a.packets packet (off, bs, wait, none) })))
      ∧ (s.cycle < due → exec (.backoffResend ctx arm packet) s = .next s)))

/-- R327, R336 (that a loss sends back the unaccepted packets with RETURNS as it was is log 93): training ends with eight lanes in UP8, with four to seven in UP4, and with fewer it is tried again, the third failure
in a row leaving FAILED with PEERDN; the loss of an UP link sends it to TRAIN and returns its packets, as more than 16 replays
within 2^20 cycles do; a disabled link is DOWN, with PEERDN; the failure of a die link of a device that is READY sets DIEFAIL and halts every running
context with LINK_FATAL and the link's number. -/
def LinkStates : Prop :=
  (∀ (link lanes : Nat) (s : State), link < 12 →
    let l := getPeer s link
    (l.state = 1 →
      exec (.linkTrained link 8) s = .next (modPeer s link fun l => { l with state := 2, lanes := 8, attempts := 0 })
      ∧ (4 ≤ lanes → lanes < 8 → exec (.linkTrained link lanes) s =
        .next (modPeer s link fun l => { l with state := 3, lanes := 4, attempts := 0 }))
      ∧ (lanes < 4 → l.attempts < 2 → exec (.linkTrained link lanes) s =
        .next (modPeer s link fun l => { l with attempts := l.attempts + 1 }))
      ∧ (lanes < 4 → 2 ≤ l.attempts → ∃ t, exec (.linkTrained link lanes) s = .next t ∧ (getPeer t link).state = 4
        ∧ t.status.peerdn = true))
    ∧ ((l.state = 2 ∨ l.state = 3) →
      let lost (s : State) := returnUnacked (modPeer s link fun l => { l with state := 1, lanes := 0, attempts := 0, recent := [] }) link
      let recent := s.cycle :: l.recent.filter fun c => decide (s.cycle < c + 2 ^ 20)
      let counted := modPeer s link fun l => { l with
        replays := if l.replays = 0xFFFF then l.replays else l.replays + 1, recent := recent }
      exec (.linkLoss link) s = .next (lost s)
      ∧ exec (.flitReplay link) s = .next (if recent.length > 16 then lost counted else counted))
    ∧ (s.status.ready = true → ∃ t, exec (.linkDisable link) s = .next t ∧ (getPeer t link).state = 0 ∧ t.status.peerdn = true))
  ∧ (∀ (link : Nat) (s : State), link < 14 → s.status.ready = true → ∃ t, exec (.dieLinkFailure link) s = .next t ∧ t.status.diefail = true
    ∧ t.status.linkFatal = true ∧ (∀ k c, getCtx? t k = some c → c.phase ≠ .running)
    ∧ ∀ k c, getCtx? s k = some c → c.phase = .running → ∃ c', getCtx? t k = some c' ∧ c'.phase = .halting
      ∧ c'.reason = some causeLinkFatal ∧ c'.haltVal = wordOf link)

/-! ## Steps -/

/-- R2, R74, R76: a halfword of the text that its translation as a fetch gives a place in memory, unpoisoned or cached, is read through
the cluster's cache; an instruction is one halfword, or two where bit 0 of the first is 1, the first lower. -/
def FetchRead : Prop :=
  (∀ (s s' : State) (va : Word) (l : Leaf) (pa : Nat), fieldOf va 56 8 = 0 →
    translate s s.cur.1 va.toNat accFetch (curThread s).csr.sys = .ok (s', l, pa) →
    (memPoisoned s' pa 2 = false ∨ (mapGet? (getCluster s' (clusterOf s'.cur.1)).cache (pa / 64)).isSome = true) →
    fetchHalf s va = .ok ((cachedRead s' s'.cur.1 pa 2).1, leNat (cachedRead s' s'.cur.1 pa 2).2))
  ∧ (∀ (s s' s'' : State) (pc : Word) (lo hi : Nat), fetchHalf s pc = .ok (s', lo) →
    (lo % 2 = 0 → fetchWord s pc = .ok (s', lo))
    ∧ (lo % 2 = 1 → fetchHalf s' (pc + 2) = .ok (s'', hi) → fetchWord s pc = .ok (s'', lo + 65536 * hi)))

/-- The step of a powered device that issues: the core in focus has the slot `slot` pick its cycle, as its home slot or by donation,
and the slot runs an instruction: it holds no message to take, no asynchronous trap to enter, and is neither about to retire, nor to
fault a second time, nor a handler at its 49th issue (R99, R100, R165, R166, R413). -/
structure Issues (s : State) (k slot : Nat) (donated : Bool) : Prop where
  agenda : ∃ rest, s.agenda = .issue :: rest
  power : s.power = true
  focus : ∃ c, s.cores[s.focus]? = some (k, c)
  pick : pickSlot { s with agenda := s.agenda.tail } k = some (slot, donated)
  notIdle : (refThread s ⟨k, slot⟩).phase ≠ .idle
  noTrap : slot = 15 ∨ asyncPending (refThread s ⟨k, slot⟩) = false ∨ (refThread s ⟨k, slot⟩).csr.tm = true
  goes : (refThread s ⟨k, slot⟩).retiring = false ∧ (refThread s ⟨k, slot⟩).doubling = false
  user : slot < 15

/-- R81, R82: the form of a halfword, by its op [4:1] and its variant bit [15]: d is [9:5], s [14:10], and imm6 and sh are k × 32 + s. -/
noncomputable def halfwordForm (h : BitVec 16) : Except Illegal Instr :=
  let d : BitVec 5 := h.extractLsb' 5 5
  let s : BitVec 5 := h.extractLsb' 10 5
  let n : BitVec 6 := h.extractLsb' 10 6
  match (h.extractLsb' 1 4).toNat, h.getLsbD 15 with
  | 0, false => .ok (.movC d s)
  | 0, true => .ok (.vmovC d s)
  | 1, false => .ok (.addC d s)
  | 1, true => .ok (.vaddC d s)
  | 2, false => .ok (.subC d s)
  | 2, true => .ok (.vsubC d s)
  | 3, false => .ok (.andC d s)
  | 3, true => .ok (.vandC d s)
  | 4, false => .ok (.orC d s)
  | 4, true => .ok (.vorC d s)
  | 5, false => .ok (.xorC d s)
  | 5, true => .ok (.vxorC d s)
  | 6, _ => .ok (.addiC d n)
  | 7, _ => .ok (.li d n)
  | 8, _ => .ok (.slliC d n)
  | 9, _ => .ok (.srliC d n)
  | 10, _ => .ok (.sraiC d n)
  | 11, false => .ok (.ldd d s)
  | 12, false => .ok (.std d s)
  | 13, false => .ok (.vaddfF32C d s)
  | 13, true => .ok (.vaddfF16C d s)
  | 14, false => .ok (.vmulfF32C d s)
  | 14, true => .ok (.vmulfF16C d s)
  | 15, k => if h.extractLsb' 7 3 = 0 ∧ h.extractLsb' 13 2 = 0 then
      .ok (if k then .btnC (h.extractLsb' 5 2) (h.extractLsb' 10 3) else .btC (h.extractLsb' 5 2) (h.extractLsb' 10 3))
    else .error .field
  | _, _ => .error .field

/-- R9: every byte of device memory has a place of its own, at the module byte address on the link of its home slice. -/
def OwnPlace : Prop :=
  ∀ a b : Nat, a < 2 ^ 42 → b < 2 ^ 42 → homeSlice a = homeSlice b → moduleByte a = moduleByte b → a = b

end Sys2Proof.Machine

/-! # The statements -/

open Sys2Proof Sys2Proof.Machine

/-! ## Integer instructions -/

/-- R129, R131 to R138, R114, R146: every instruction of the table completes where nothing stands before it: x[d] holds the
value of its row, the pc moves by its length, and nothing else changes, no other register, flag, guard, CSR, byte of memory
or part of the device. -/
def Obligations.ScalarResult : Prop :=
  ∀ (i : Instr) (c : Scalar) (s : State), scalarOf i = some c → Runs s c.uses →
    exec i s = .next (moved s c.len (setX (curThread s) c.dest (c.value (curThread s))))

/-- R170, R104: what an instruction of the table does whose operands are chain ports, and where it waits for them. -/
def Obligations.ChainPorts : Prop := ScalarPorts ∧ ScalarPortWaits

/-! ## Floating-point instructions -/

/-- R139 to R145, R39: every instruction of the table completes where nothing stands before it and no flag that it raises is
enabled to trap: x[d] holds its result, `FFLAGS` accrues its flags, `DRAW` moves on where it rounds stochastically, the pc
moves by 4, and nothing else changes. -/
def Obligations.FloatResult : Prop :=
  ∀ (i : Instr) (c : FloatOp) (s : State), floatOf i = some c → Runs s c.uses →
    Untrapped s (c.value (curThread s)).2 →
    exec i s = .next (flagged s 4 (floated c (curThread s)) (c.value (curThread s)).2)

/-- R414: where a flag that it raises is enabled, the instruction completes as before and then traps: the cause is that of
the first of NV, DZ, OF, UF and NX that is raised and enabled, `TRAPVAL` the flags raised, `TRAPPC` the next instruction. -/
def Obligations.FloatTrap : Prop :=
  ∀ (i : Instr) (c : FloatOp) (s : State), floatOf i = some c → Runs s c.uses → inMsgSlot s = false →
    let fl := (c.value (curThread s)).2
    let hit := fl &&& (curThread s).csr.ftrapen
    let after := flagged s 4 (floated c (curThread s)) fl
    hit ≠ 0 →
    exec i s = .next (takeTrap after (curRef s) ((curThread s).pc + 4)
      (if hit.getLsbD 4 then causeFpNv else if hit.getLsbD 3 then causeFpDz else if hit.getLsbD 2 then causeFpOf
        else if hit.getLsbD 1 then causeFpUf else causeFpNx) (wordOf fl.toNat))

/-! ## Guard instructions -/

/-- R107, R108, R112 to R114: the compares and the guard instructions, `g7`, and what waits for a PENDING guard. -/
def Obligations.GuardResult : Prop := GuardValue ∧ GuardSeven ∧ GuardWait ∧ GuardWaitOver

/-! ## Branches and jumps -/

/-- R115 to R118: branches, jumps and guarded branches: their words, their effects, and where they wait and trap. -/
def Obligations.ControlResult : Prop :=
  ControlWords ∧ BranchResult ∧ JumpResult ∧ GuardedBranch ∧ BranchWaits ∧ BranchUndeclared

/-! ## Vector instructions -/

/-- R173, R176 to R180, R182: every instruction of the table completes where nothing stands before it and no flag that it
raises is enabled to trap: the lanes of v[d] hold the results of the enabled lanes and the old bits of the others, `FFLAGS`
accrues the flags of the enabled lanes, `DRAW` moves on where they round stochastically, the pc moves by the length, and
nothing else changes. -/
def Obligations.VectorResult : Prop :=
  ∀ (i : Instr) (c : VecOp) (s : State), vecOf i = some c → Runs s c.uses → Untrapped s (lanesOf c (curThread s)).2.1 →
    exec i s = .next (flagged s c.len (vectored c (curThread s)) (lanesOf c (curThread s)).2.1)

/-- R172, R173: what the lanes of such a register hold. A lane is enabled by the mask bit of the 32-bit group of its lowest
byte; an enabled lane holds its result, rounded by the draw that the enabled lanes below it leave, and a disabled lane keeps
its bits. The flags are those of the enabled lanes together, and the draws are as many as the enabled lanes. -/
def Obligations.LaneRule : Prop :=
  ∀ (w n : Nat) (on : Nat → Bool) (old : VReg) (f : Nat → Nat → Nat × FFlags), 0 < w → w * n ≤ 256 →
    let r := foldLanes w on old f n
    let before (i : Nat) := ((List.range i).filter on).length
    r.2.2 = before n
    ∧ r.2.1 = ((List.range n).filter on).foldl (fun a i => a ||| (f i (before i)).2) 0
    ∧ ∀ i < n, (BitVec.ofNat 256 r.1).toNat / 2 ^ (w * i) % 2 ^ w =
        if on i then (f i (before i)).1 % 2 ^ w else old.toNat / 2 ^ (w * i) % 2 ^ w

/-- R181 to R184: conversions, compares and reductions of vectors. -/
def Obligations.VectorOther : Prop := VectorConvert ∧ VectorCompare ∧ VectorReduce

/-! ## CSRs -/

/-- R125, R127: what the CSR instructions read and write, what the CSRs read, and their fields that are writable. -/
def Obligations.CsrResult : Prop := CsrAccess ∧ CsrReads ∧ CsrFields

/-- R90: a CSR instruction whose number is not in the table traps BAD_CSR, and so do CSRW, CSRS and CSRC of a read-only CSR, with no
other effect; CSRR of any number of the table that R89 permits completes, and so do CSRW, CSRS and CSRC of one that is not
read-only. -/
def Obligations.CsrTraps : Prop :=
  ∀ (d a : BitVec 5) (c : BitVec 12) (s : State),
    let n := c.toNat
    let stop := Host.Outcome.next (takeTrap s (curRef s) (curThread s).pc causeBadCsr (wordOf s.iword.toNat))
    (n ∉ csrTable → exec (.csrr d c) s = stop ∧ exec (.csrw d a c) s = stop ∧ exec (.csrs d a c) s = stop
      ∧ exec (.csrc d a c) s = stop)
    ∧ (0x020 ≤ n → n ≤ 0x025 → exec (.csrw d a c) s = stop ∧ exec (.csrs d a c) s = stop ∧ exec (.csrc d a c) s = stop)
    ∧ (n ∈ csrTable → ((n = 0x013 ∨ n = 0x030) → (curThread s).csr.sys = true) → Runs s { xw := some d } →
      exec (.csrr d c) s = .next (moved s 4 (setX (curThread s) d (csrRead s n))))
    ∧ (n ∈ csrTable → n < 0x020 ∨ 0x025 < n → ((n = 0x013 ∨ n = 0x030) → (curThread s).csr.sys = true) →
      Runs s { xr := [a], xw := some d } →
      let put (v : Word) := Host.Outcome.next
        (moved s 4 (setX { curThread s with csr := csrWrite (inMsgSlot s) n v (curThread s).csr } d (csrRead s n)))
      exec (.csrw d a c) s = put (getX (curThread s) a)
      ∧ exec (.csrs d a c) s = put (csrRead s n ||| getX (curThread s) a)
      ∧ exec (.csrc d a c) s = put (csrRead s n &&& ~~~(getX (curThread s) a)))

/-! ## Traps -/

/-- R412, R167, R97: a trap of a user slot that is in no trap: `TRAPPC`, `TRAPCAUSE` and `TRAPVAL` take the trap's address, cause
and value; CHAIN is saved and cleared; TM is set; the pc is `TVEC`, or, with `TVEC` = 0, the thread is to retire; and everything else
stays. One of the message slot writes the three CSRs, sets HFAULT in the status word, leaves the slot IDLE, and answers an RFETCH with
the cause. One of a slot in a trap leaves it HALTED for good, at once where it is in no window or has no write to wait for (R394). -/
def Obligations.TrapEntry : Prop :=
  ∀ (s : State) (r : Ref) (pc : Word) (cause : BitVec 8) (val : Word),
    let t := refThread s r
    (r.slot ≠ 15 → t.csr.tm = false → t.phase ≠ .halted → takeTrap s r pc cause val = modRef s r fun _ => { t with
      csr := { t.csr with trappc := pc, trapcause := cause, trapval := val, chain := false, tm := true }
      savedChain := t.csr.chain
      pc := t.csr.tvec
      wait := .none
      fetched := none
      retiring := t.csr.tvec == 0
      phase := .trapped })
    ∧ (r.slot = 15 →
      let idle := recordCoreStatus (modRef s r fun _ => { t with
        csr := { t.csr with trappc := pc, trapcause := cause, trapval := val }, phase := .idle, current := none, issues := 0 })
        r.core 0x8000
      takeTrap s r pc cause val = match t.current with
        | some ⟨src, .user _ _ _ true⟩ => send idle (.reply src r.core (.error cause))
        | _ => idle)
    ∧ (r.slot < 15 → t.csr.tm = true → t.window = none ∨ t.unacked = 0 →
      (refThread (takeTrap s r pc cause val) r).phase = .halted ∧ (refThread (takeTrap s r pc cause val) r).haltedFrom = none)

/-- R415: the instructions of traps, in a trap handler and outside one. -/
def Obligations.SystemResult : Prop := SystemEffect ∧ EretOutside

/-- R37, R88, R89, R91: the checks before an instruction's effect, where one of them fails. -/
def Obligations.CheckTraps : Prop := ScalarUndeclared ∧ ReservedRounding ∧ DoubleElsewhere ∧ CsrPrivileged ∧ PrivilegedTrap

/-! ## The segment table, power and fault service -/

/-- R258, R276 to R279, R415: SEGLD, PWR, FBPOP, REPLAY, TLBINV, PGPIN and PGUNPIN. -/
def Obligations.SupervisorResult : Prop := SegmentResult ∧ FaultServiceResult ∧ PinCounts

/-! ## Memory access -/

/-- R148: an access that passes the check goes to BASE plus the offset in the segment's space; one that does not traps, with
`TRAPVAL` the offset, with the first that applies of SYNC_FORM, the segment's rights cause, its limit cause, and MISALIGNED. -/
def Obligations.SegmentCheck : Prop :=
  ∀ (s : State) (sg : BitVec 3) (base disp : Word) (z need : Nat),
    let d := getSeg (curThread s) sg
    let off := base + disp
    (Passes s sg off z need true →
      segCheck s sg base disp z need true = .ok ⟨segKind d, segTarget d, addressOf s sg off, segScope d, sg.toNat, off⟩)
    ∧ (¬ Passes s sg off z need true → segCheck s sg base disp z need true = .error (.trap
        (if hasRights need needS = true ∧ segKind d = kindGlobal ∧ z ≠ 8 then causeSyncForm
          else if hasRights (segRights d) need = false then causeSegRights sg.toNat
          else if segLimit d < off.toNat + z ∨ (segKind d = kindLocal ∧ curSP s < segBase d + off.toNat + z)
            ∨ (segKind d = kindGlobal ∧ 2 ^ 56 < segBase d + off.toNat + z) then causeSegLimit sg.toNat
          else causeMisaligned) off))

/-- The loads, from the core's own scratchpad and memory and from another core. -/
def Obligations.LoadResult : Prop := LoadHere ∧ LoadElsewhere

/-- R152: what such a store leaves: the bytes at the address are the register's, every other byte of the scratchpad, of every
other core's, and of main memory reads as before, and every other thread's registers stay. -/
def Obligations.StoreFrame : Prop :=
  ∀ (i : Instr) (c : StoreForm) (s : State), storeOf i = some c → Runs s c.uses →
    let off := c.off (curThread s)
    let bs := c.bytes (curThread s)
    let a := addressOf s c.sg off
    segKind (getSeg (curThread s) c.sg) = kindLocal → Passes s c.sg off bs.length needW true → selfPending s = false →
    ∃ t, exec i s = .next t ∧ t.mem = s.mem ∧ t.net = s.net
      ∧ poolBytes (curCore t) a bs.length = bs
      ∧ (∀ k, k < a ∨ a + bs.length ≤ k → cellGet (curCore t).pool k = cellGet (curCore s).pool k)
      ∧ (∀ k, k ≠ s.cur.1 → getCore t k = getCore s k)
      ∧ (∀ n : Fin 16, (getThread t s.cur.1 n).x = (getThread s s.cur.1 n).x
        ∧ (getThread t s.cur.1 n).csr = (getThread s s.cur.1 n).csr)

/-- The stores, to the core's own scratchpad and memory and to another core. -/
def Obligations.StoreResult : Prop := StoreHere ∧ StoreElsewhere

/-! ## Full bits -/

/-- The synchronising loads where their condition holds, and where it does not. -/
def Obligations.SyncLoadResult : Prop := SyncLoadHere ∧ SyncLoadWaits

/-- The synchronising stores, and the FE instructions on full bits. -/
def Obligations.SyncStoreResult : Prop := SyncStoreHere ∧ FullBitResult

/-- R155, R321, R322, R274: a synchronising access of 8 bytes through a GLOBAL segment acts on the full bit of its word. STF stores and
fills it, and STF.E does so to an empty word; FESET and FECLR set and clear the bit. Those that return something park until their reply
arrives: FETEST with the bit, FEWAIT where the bit is full, LDS.K and LDS.C with a full word that is not poisoned, and LDS.C empties it.
LDS of an empty word waits in the table of the word's home slice where it has room. What changes a word collapses a duplicated page
first, as a write does; a read, a test or a wait does not (R267 lists no such event; which of these accesses change a word is the model's
reading, log 23, and that a waiter of a duplicated page stands at the word of its first frame is log 109). -/
def Obligations.FutureResult : Prop :=
  ∀ (d a : BitVec 5) (sg : BitVec 3) (im : BitVec 9) (s s' : State) (w : Nat),
    let t := curThread s
    let off := getX t a + scaled im 8
    let p := addressOf s sg off
    let place : Place := ⟨segKind (getSeg t sg), segTarget (getSeg t sg), p, segScope (getSeg t sg), sg.toNat, off⟩
    let seen := refreshLine s' s'.cur.1 (8 * w)
    let emptied := (oneHome seen place w)
    let home := oneHome s' place w
    let bs := memBytes s' (8 * w) 8
    segKind (getSeg t sg) = kindGlobal →
    (Runs s { xr := [a], xw := some d } → Passes s sg off 8 (needR ||| needS) true → inMsgSlot s' = false →
      futureWord s place false = .ok (s', w) →
      (wordFull s' w = true → memPoisoned s' (8 * w) 8 = false →
        exec (.ldsK d a sg 1 im) s = .next (asking seen (.sync d.toNat 8) sg off 4 bs)
        ∧ exec (.ldsC d a sg 1 im) s = .next (asking (fillWord emptied.1 emptied.2 none false) (.sync d.toNat 8) sg off 4 bs))
      ∧ (wordFull s' w = false →
        let word := homeWord s' place w
        let slice := homeSlice (8 * word)
        (mapGet s'.waits slice []).length < 4096 →
        let waits (kind : Nat) := Host.Outcome.next (putThread
          { s' with waits := mapSet s'.waits slice (mapGet s'.waits slice []
              ++ [⟨curRef s', word, kind, d.toNat, wordOf p, p, place.scope⟩]) } (parkThread (curThread s') .future 4))
        exec (.ldsK d a sg 1 im) s = waits 0 ∧ exec (.ldsC d a sg 1 im) s = waits 1))
    ∧ (Runs s { xr := [a, d] } → Released s → Passes s sg off 8 (needW ||| needS) true → futureWord s place true = .ok (s', w) →
      let filled := advance (fillWord home.1 home.2 (some (getX t d)) true) 4
      exec (.stf d a sg 1 im) s = .next filled
      ∧ (wordFull s' w = false → inMsgSlot s' = false → exec (.stfE d a sg 1 im) s = .next filled))
    ∧ (∀ q : Place, q.kind = kindGlobal →
      (Runs s { xr := [a] } → fePlace s sg (getX t a) needW = .ok q → futureWord s q true = .ok (s', w) →
        let h := oneHome s' q w
        (Released s → exec (.feset a sg) s = .next (advance (fillWord h.1 h.2 none true) 4))
        ∧ exec (.feclr a sg) s = .next (advance (fillWord h.1 h.2 none false) 4))
      ∧ (fePlace s sg (getX t a) needR = .ok q → q.sg = sg.toNat → futureWord s q false = .ok (s', w) → inMsgSlot s' = false →
        (Runs s { xr := [a], xw := some d } → exec (.fetest d a sg) s =
          .next (asking s' (.fetest d.toNat) sg q.off 4 [if wordFull s' w = true then 1 else 0]))
        ∧ (Runs s { xr := [a] } → wordFull s' w = true → exec (.fewait a sg) s = .next (asking s' .bare sg q.off 4 []))))

/-! ## Formatted pages -/

/-- R160, R161, R162, R417: with an open gate, LDX and LDXB park until 8 FP32 or 16 BF16 lanes from the elements at the address arrive,
which the reply places in their register with one draw a lane, its flags in `FFLAGS`, and trap POISONED where the codebook of a cb4 page
holds a poisoned byte; STBLK rounds
the 32 lanes of four registers to one block of the page's format, and stores its elements and its scale; PREF brings the line
into the cluster cache where its access passes and its page is here, and does nothing otherwise: where the segment is no GLOBAL one,
the check fails, the page is not translated or EVICTING, or the byte is poisoned, when the translation alone may be kept. With a closed
gate each does nothing. -/
def Obligations.FormatResult : Prop :=
  ∀ (d a : BitVec 5) (q sg g : BitVec 3) (n : BitVec 1) (s : State),
    let t := curThread s
    let vs := [4 * q.toNat, 4 * q.toNat + 1, 4 * q.toNat + 2, 4 * q.toNat + 3]
    let put (D : Fmt) (lanes : List (Nat × FFlags)) : VReg :=
      BitVec.ofNat 256 ((lanes.zipIdx.map fun p => p.1.1 * 2 ^ (fmtWidth D * p.2)).foldl (· + ·) 0)
    let flags (lanes : List (Nat × FFlags)) : FFlags := lanes.foldl (fun f p => f ||| p.2) 0
    (gateOpen t g n = true →
      (Runs s { xr := [a], vs := [d.toNat], gs := [g], rounds := true } → ∀ s₁ l p pa s₂ bs s₃ scale,
        let loads (i : Instr) (D : Fmt) (lanes : List (Nat × FFlags)) : Prop :=
          let v := put D lanes
          let asks := asking s₃ (.elems d.toNat lanes.length) sg p.off 4 (valBytes 32 v ++ [(flags lanes).setWidth 8])
          let done := answered s₃ 4 (setV (takeDraws (curThread s₃) lanes.length) d v)
          let spoilt := pteFmt l.fmt = 7 ∧ codebookPoisoned s₃ (curCtx s₃) (pteCb l.fmt) = true
          (¬ spoilt → exec i s = .next asks ∧ (NoReply s₃ → Untrapped s₃ (flags lanes) → exec (.reply s₃.net.length) asks =
            .next (modCur done fun t => { t with csr := { t.csr with fflags := t.csr.fflags ||| flags lanes } })))
          ∧ (spoilt → exec i s = .next (takeTrap s₃ (curRef s₃) (curThread s₃).pc causePoisoned (wordOf p.addr)))
        p.sg = sg.toNat →
        (formatPlace s sg (getX t a) needR 8 accLoad = .ok (s₁, l, p, pa) →
          readTranslated s₁ (curView s₁) p.addr pa (elemBytes (pteFmt l.fmt) 8) = .ok (s₂, bs) →
          readScale s₂ l p.addr pa = .ok (s₃, scale) → loads (.ldx d a sg g n) .fp32 (elementLanes s₃ .fp32 8 l bs scale))
        ∧ (formatPlace s sg (getX t a) needR 16 accLoad = .ok (s₁, l, p, pa) →
          readTranslated s₁ (curView s₁) p.addr pa (elemBytes (pteFmt l.fmt) 16) = .ok (s₂, bs) →
          readScale s₂ l p.addr pa = .ok (s₃, scale) → loads (.ldxb d a sg g n) .bf16 (elementLanes s₃ .bf16 16 l bs scale)))
      ∧ (Runs s { xr := [a], vs := vs, gs := [g], rounds := true } → ∀ s₁ l p pa s₂ s₃,
        formatPlace s sg (getX t a) needW 32 accStore = .ok (s₁, l, p, pa) → pteFmt l.fmt ≠ 7 →
        let va := p.addr
        let u := curThread s₁
        let lanes := (List.range 32).map fun k => decodeNum .fp32 (fieldOf (getV u (regNo (4 * q.toNat + k / 8))) (32 * (k % 8)) 32)
        let block := encodeBlock (pteFmt l.fmt) (roundingOf (rndOf u)) lanes
        writeLines s₁ (curView s₁) va pa (leBytes (elemBytes (pteFmt l.fmt) 32) (packElems (pteFmt l.fmt) block.1)) 4 = .ok s₂ →
        (elemScaled (pteFmt l.fmt) = true → scaleWrite s₂ (curView s₂) l va (leBytes 2 block.2.1) = .ok s₃) →
        (elemScaled (pteFmt l.fmt) = false → s₃ = settleWrite s₂ (curView s₂) va l) →
        Untrapped s₃ block.2.2 →
        exec (.stblk q a sg g n) s = .next (flagged s₃ 4 (takeDraws (curThread s₃) 32) block.2.2))
      ∧ (Runs s { xr := [a], gs := [g] } → segKind (getSeg t sg) = kindGlobal →
        Passes s sg (getX t a) 1 needR true → ∀ s₁ l pa,
        translate s s.cur.1 (addressOf s sg (getX t a)) accLoad t.csr.sys = .ok (s₁, l, pa) → pteState l.base ≠ stEvicting →
        (memPoisoned s₁ pa 1 = false → exec (.pref a sg g n) s = .next (advance (cachedRead s₁ s.cur.1 pa 1).1 4))
        ∧ (memPoisoned s₁ pa 1 = true → exec (.pref a sg g n) s = .next (advance s₁ 4))))
    ∧ (Runs s { xr := [a], gs := [g] } →
      let nothing := exec (.pref a sg g n) s = .next (moved s 4 t)
      (gateOpen t g n = false → nothing)
      ∧ (segKind (getSeg t sg) ≠ kindGlobal → nothing)
      ∧ (¬ Passes s sg (getX t a) 1 needR true → nothing)
      ∧ (∀ e, translate s s.cur.1 (addressOf s sg (getX t a)) accLoad t.csr.sys = .error e → nothing)
      ∧ (∀ s₁ l pa, translate s s.cur.1 (addressOf s sg (getX t a)) accLoad t.csr.sys = .ok (s₁, l, pa) →
        pteState l.base = stEvicting → nothing))
    ∧ (gateOpen t g n = false →
      (Runs s { xr := [a], vs := [d.toNat], gs := [g], rounds := true } →
        exec (.ldx d a sg g n) s = .next (moved s 4 t) ∧ exec (.ldxb d a sg g n) s = .next (moved s 4 t))
      ∧ (Runs s { xr := [a], vs := vs, gs := [g], rounds := true } → exec (.stblk q a sg g n) s = .next (moved s 4 t)))

/-! ## Atomics -/

/-- Atomics on main memory, in a context's Trail and outside it. -/
def Obligations.AtomicMemory : Prop := AtomicDevice ∧ AtomicTrail

/-- The atomics, and where they trap. -/
def Obligations.AtomicResult : Prop := AtomicValue ∧ AtomicTraps

/-! ## Exact cells -/

/-- The exact cells, in the core's own scratchpad and in main memory. -/
def Obligations.CellResult : Prop := CellHere ∧ CellMemory

/-- R247, R48: the value and the NAN, PINF and NINF flags of a cell after a set of additions, of values and of blocks, do not depend on
their order: but for the OVF flag, the cells are the same bits. -/
def Obligations.CellOrder : Prop :=
  ∀ (c : BitVec 256) (xs ys : List (FVal ⊕ (Word × BitVec 16))), xs.Perm ys →
    let but (c : BitVec 256) : BitVec 256 := c &&& ~~~(1#256 <<< 208)
    let add (c : BitVec 256) : FVal ⊕ (Word × BitVec 16) → BitVec 256
      | .inl v => cellAdd c v
      | .inr b => cellAddBlock c b.1 b.2
    but (xs.foldl add c) = but (ys.foldl add c)

/-! ## Fences and active messages -/

/-- Fences, active messages, and what an access through a CORE segment sends. -/
def Obligations.OrderResult : Prop := FenceResult ∧ MessageResult ∧ CoreIssue ∧ CoreMuster

/-! ## The engines of a core -/

/-- The matrix instructions that queue a command, where they may, where they wait, and in the message slot. -/
def Obligations.MatIssue : Prop := MatQueued ∧ MatIssueWaits ∧ MatForbidden

/-- R194, R195, R200, R228: MFMT sets the formats and codebook slots of `MATST`; MSTAT gives the number of queued commands and whether
one waits at its barrier or for leave, and with none queued it acquires what the thread's drains released; MLDCB with an open gate stores a codebook of the scratchpad in a slot of the context's
table, as a release at DEVICE scope. -/
def Obligations.MatSettings : Prop :=
  ∀ (d a b : BitVec 5) (g : BitVec 3) (n : BitVec 1) (s : State),
    let t := curThread s
    let v := getX t a
    (Runs s { xr := [a], noMsg := true, mat := true } → fieldOf v 0 3 ≤ 4 → fieldOf v 3 3 ≤ 4 → fieldOf v 6 2 = 0 → fieldOf v 24 40 = 0 →
      exec (.mfmt a) s = .next (moved s 4 { t with csr := { t.csr with
        matst := setField (setField t.csr.matst 18 6 (fieldOf v 0 6)) 24 16 (fieldOf v 8 16) } }))
    ∧ (Runs s { xr := [a], noMsg := true, mat := true } → (4 < fieldOf v 0 3 ∨ 4 < fieldOf v 3 3 ∨ fieldOf v 6 2 ≠ 0 ∨ fieldOf v 24 40 ≠ 0) →
      exec (.mfmt a) s = .next (takeTrap s (curRef s) t.pc causeMatFormat v))
    ∧ (Runs s { xw := some d, noMsg := true, mat := true } →
      let first := match t.matq with
        | q :: _ => atBarrier q
        | [] => false
      let leave := t.matq.any (awaitsLeave s)
      (t.matq ≠ [] →
        exec (.mstat d) s = .next (moved s 4 (setX t d (wordOf (t.matq.length + (if first then 4 else 0) + if leave then 8 else 0)))))
      ∧ (t.matq = [] → exec (.mstat d) s =
        .next (moved (acquireAt s s.cur.1 t.drainScope) 4 (setX { t with drainScope := 0 } d 0))))
    ∧ (Runs s { xr := [a, b], gs := [g], noMsg := true, mat := true } → gateOpen t g n = true → v.toNat < 256 →
      (getX t b).toNat % 16 = 0 → (getX t b).toNat + 32 ≤ curSP s → selfPending s = false → t.unacked = 0 →
      poolPoisoned (curCore s) (getX t b).toNat 32 = false → ∀ c, getCtx? s (curCtx s) = some c →
      let bs := poolBytes (curCore s) (getX t b).toNat 32
      let pa := ctxCbtab c + 32 * v.toNat
      codebookOk (bytesVal 256 bs) = true → exec (.mldcb a b g n) s = .next (moved (clearLine (memWrite s pa bs) pa 32) 4 t))

/-- The steps of the matrix engines. -/
def Obligations.EngineSteps : Prop := MatSteps ∧ GangSteps

/-! ## Copies -/

/-- R204 to R212, R215: with room in its slot's copy queue, a copy instruction whose operands pass queues its command with the captured
descriptors and its gate as sampled, once every write that its thread has posted is performed, and moves on; CWAIT sets its guard
PENDING. -/
def Obligations.CopyIssue : Prop :=
  ∀ (d a b : BitVec 5) (h : BitVec 4) (k g : BitVec 3) (n : BitVec 1) (s : State),
    let t := curThread s
    let word (j : Nat) : Word := getX t (regNo (2 * h.toNat + j))
    let queued (op : CopyOp) (scope len : Nat) : Thread := { t with copyq := t.copyq ++
      [⟨op, sampled t g n, t.csr.specd, t.window, scope, len, 0, false, 0, 0, none, none, [], false, none, .none, 0, false⟩] }
    let len := getX t b
    let L := fieldOf len 0 32
    t.copyq.length < 2 → t.unacked = 0 →
    (Runs s { xr := [d, a, b], noMsg := true } →
      (lenOk s len false = true → CopyAt s (getX t a) L needR →
        (CopyAt s (getX t d) L needW → exec (.cpy d a b g n) s = .next (moved s 4
          (queued (.plain (captured s (getX t a)) (captured s (getX t d)) none) (fieldOf len 32 5) L)))
        ∧ (fieldOf (getX t d) 50 14 = 0 → fieldOf (getX t d) 0 16 % 16 = 0 →
          (fieldOf (getX t d) 33 1 = 1 → fieldOf (getX t d) 34 16 % 16 = 0) → exec (.cpym d a b g n) s = .next (moved s 4
          (queued (.multi (getX t d) (captured s (getX t a)) []) (fieldOf len 32 5) L))))
      ∧ (∀ c, getCtx? s (curCtx s) = some c → lenOk s len true = true → fieldOf (getX t d) 36 28 = 0 →
        inGrid c (fieldOf (getX t d) 16 20) = true → fieldOf (getX t a) 56 4 = 0 →
        let out : Bool := fieldOf (getX t a) 60 1 = 1
        Passes s (BitVec.ofNat 3 (fieldOf (getX t a) 61 3)) (wordOf (fieldOf (getX t a) 0 56)) L (if out then needR else needW) false →
        exec (.cpyh d a b g n) s = .next (moved s 4
          (queued (.handle (getX t d) out (captured s (getX t a)) (fieldOf len 48 16)) (fieldOf len 32 5) L))))
    ∧ (Runs s { xr := [a], noMsg := true } → (getX t a).toNat % 16 = 0 → (getX t a).toNat + 256 ≤ curSP s →
      (getX t a).toNat < 2 ^ 16 →
      exec (.cpyt a g n) s = .next (moved s 4 (queued (.tensor (getX t a).toNat [] ⟨0, 0⟩ ⟨0, 0⟩) 0 0)))
    ∧ (Runs s { xr := [d, a, regNo (2 * h.toNat)], xs := [2 * h.toNat + 1], noMsg := true } → lenOk s (word 0) false = true →
      CopyAt s (getX t a) (fieldOf (word 0) 0 32) needR → CopyAt s (getX t d) (fieldOf (word 0) 0 32) needW →
      segKind (captured s (getX t d)).seg ≠ kindGlobal → (word 1).toNat % 16 = 0 → (word 1).toNat < 2 ^ 16 →
      exec (.cpyb d a h g n) s = .next (moved s 4 (queued
        (.plain (captured s (getX t a)) (captured s (getX t d)) (some (word 1).toNat)) (fieldOf (word 0) 32 5) (fieldOf (word 0) 0 32))))
    ∧ (Runs s { noMsg := true } → (getG t k).pending = false →
      exec (.cwait k g n) s = .next (moved s 4 (awaiting (queued (.wait k.toNat) 0 0) (some k))))

/-- R15, R207 to R210, R212, R213, R215, R228, R149: the copy at the head that the engine serves starts, where it has not, and moves its
next chunk, or first asks for the bytes, by one source message of its own kind a chunk (the model's choice, log 128); a CPYH pins its
entry in the engine's own step where its HOME is another core (the model's choice, log 138); one that stops fails or is held; a CPYM of more than 4,096 bytes first asks for leave, and one
without targets settles; a head whose gate turned against it is discarded, which leaves the round-robin pointer where it was (the model's
reading, log 46); a CWAIT at the head that the engine serves resolves its guard true where no copy before it failed, else false, clears
FAILED, and acquires at the scope of the copies that have ended. -/
def Obligations.CopySteps : Prop :=
  ∀ (core i : Nat) (q : CopyCmd) (s : State), copyHead (getCore s core) i = some q → copyNext s core = some i →
    let r : Ref := ⟨core, i⟩
    let served := modCore s core fun c => { c with copyServed := some i }
    let leaveWanted : Prop := (∃ w src ts, q.op = .multi w src ts) ∧ 4096 < q.len ∧ q.leave = .none
    ((∀ g, q.op ≠ .wait g) →
      (q.gate ≠ .drop → leaveWanted →
        exec (.copyChunk core) s = .next (askLeave (modCopyHead s r fun q => { q with leave := .asked }) r 32))
      ∧ (q.gate ≠ .drop → ¬ leaveWanted → q.failed = none →
        (q.started = true →
          ((∀ w src, q.op ≠ .multi w src []) → ∃ t, exec (.copyChunk core) s = .next t ∧ ChunkMoved served r q t)
          ∧ (∀ w src, q.op = .multi w src [] → exec (.copyChunk core) s = .next (settleCopy served r)))
        ∧ (q.started = false → ∀ s' q' e, CopyStarts served r q s' q' e →
          let s'' := modCopyHead s' r fun _ => q'
          (∀ x, e = some x → exec (.copyChunk core) s = .next (stopCopy s'' r x))
          ∧ (e = none → (∀ w src, q'.op ≠ .multi w src []) → ∃ t, exec (.copyChunk core) s = .next t ∧ ChunkMoved s'' r q' t)
          ∧ (e = none → ∀ w src, q'.op = .multi w src [] → exec (.copyChunk core) s = .next (settleCopy s'' r))))
      ∧ (q.gate = .drop → exec (.copyChunk core) s = .next (modRef s r fun t => { t with copyq := t.copyq.tail })))
    ∧ (∀ g, q.op = .wait g → q.gate = .go →
      exec (.cwaitResolve core) s = .next (modRef (acquireAt served core (refThread s r).copyScope) r fun t => resolveG
        { t with copyq := t.copyq.tail, copyScope := 0, csr := { t.csr with copyst := setField t.csr.copyst 35 1 0 } } (guardNo g)
        (decide (fieldOf (refThread s r).csr.copyst 35 1 = 0))))
/-! ## Handles, parties and musters -/

/-! ## Handles, parties and musters -/

/-- R217, R218, R250: HALLOC takes the first free entry of its core and gives its reference; HFREE of a live entry of its owner frees it
with the next generation, or marks it FREEING while it is pinned; HPASS gives it to a thread and puts the reference into that
thread's inbox, where it has room, and else parks with the owner changed. Of a reference whose HOME is another core of the grid, HFREE
and HPASS ask that core by a built-in message and park; a HOME outside the grid traps BAD_CORE. HOPEN takes the first reference of the
inbox, and acquires. Two of these are the model's reading: a reference with a bit of [63:36] set is stale (log 40), and the owner is set
before a full inbox has room (log 39). -/
def Obligations.HandleResult : Prop :=
  ∀ (d a b : BitVec 5) (core i : Nat) (h : Handle) (s : State),
    let t := curThread s
    let va := getX t a
    let vb := getX t b
    let dst : Ref := ⟨coreKey (curCtx s) (fieldOf vb 0 20), fieldOf vb 20 4⟩
    let inside (k : Nat) : Prop := ∃ c, getCtx? s (curCtx s) = some c ∧ inGrid c k = true
    let freed (h : Handle) : Handle := if h.pins = 0 then { h with state := hFree, gen := h.gen + 1 } else { h with state := hFreeing }
    let asks (pass : Option Word) : Host.Outcome State Fault Refusal :=
      .next (putThread (send s (.request (refHome (curCtx s) va) ⟨curRef s, .handle va pass⟩))
        (parkThread t (.reply (.handle va pass) 0 0) 4))
    (Runs s { xr := [a, b], xw := some d, noMsg := true } → va.toNat % 16 = 0 → vb.toNat % 16 = 0 → 16 ≤ vb.toNat →
      va.toNat + vb.toNat ≤ curSP s → i < 256 → h = getHandle s s.cur.1 i → h.state = hFree →
      (∀ j, j < i → (getHandle s s.cur.1 j).state ≠ hFree) →
      exec (.halloc d a b) s = .next (moved (setHandle s s.cur.1 i
          { h with state := hOwned, owner := curRef s, pins := 0, base := va.toNat, size := vb.toNat }) 4
        (setX t d (wordOf (packedOf s.cur.1 * 2 ^ 16 + h.gen.toNat * 2 ^ 8 + i)))))
    ∧ (inside (fieldOf va 16 20) → liveHandle s (curCtx s) va = some (core, i, h) → core = s.cur.1 → h.owner = curRef s →
      (Runs s { xr := [a], noMsg := true } → exec (.hfree a) s = .next (advance (setHandle s core i (freed h)) 4))
      ∧ (Runs s { xr := [a, b], noMsg := true } → inside (fieldOf vb 0 20) → fieldOf vb 24 40 = 0 → fieldOf vb 20 4 ≠ 15 →
        t.unacked = 0 →
        let given := setHandle s core i { h with owner := dst }
        ((refThread s dst).inbox.length < 4 → exec (.hpass a b) s = .next (advance (modRef given dst fun t =>
          { t with inbox := t.inbox ++ [(va, s.cur.1)] }) 4))
        ∧ (4 ≤ (refThread s dst).inbox.length → exec (.hpass a b) s =
          .next (putThread given (parkThread { t with passing := some (va, dst) } .pass 4)))))
    ∧ (¬ inside (fieldOf va 16 20) → Runs s { xr := [a], noMsg := true } →
      exec (.hfree a) s = .next (takeTrap s (curRef s) t.pc causeBadCore va))
    ∧ (inside (fieldOf va 16 20) → refHome (curCtx s) va = s.cur.1 ∨ fieldOf va 36 28 ≠ 0 → Runs s { xr := [a], noMsg := true } → liveHandle s (curCtx s) va = none →
      exec (.hfree a) s = .next (takeTrap s (curRef s) t.pc causeHandleStale va))
    ∧ (refHome (curCtx s) va ≠ s.cur.1 → fieldOf va 36 28 = 0 → inside (fieldOf va 16 20) → portFull s s.cur.1 = false →
      (Runs s { xr := [a], noMsg := true } → exec (.hfree a) s = asks none)
      ∧ (Runs s { xr := [a, b], noMsg := true } → t.unacked = 0 → exec (.hpass a b) s = asks (some vb)))
    ∧ (Runs s { xw := some d, noMsg := true } → ∀ w k rest, t.inbox = (w, k) :: rest →
      ∃ scope, exec (.hopen d) s = .next (moved (acquireAt s s.cur.1 scope) 4 { setX t d w with inbox := rest })
        ∧ coverScope s k (refHome (curCtx s) w) ≤ scope ∧ coverScope s k s.cur.1 ≤ scope)

/-- The parties: their instructions, and the ranks they give. -/
def Obligations.PartyResult : Prop := PartyEffect ∧ PartyRank

/-- The musters: their instructions, and how a phase completes. -/
def Obligations.MusterResult : Prop := MusterRule ∧ MusterEffect

/-! ## Pairs -/

/-- The PAIR family. -/
def Obligations.PairResult : Prop := PairOpen ∧ PairTake ∧ PairNodes

/-! ## Revisions -/

/-- The REV family. -/
def Obligations.RevResult : Prop := RevFork ∧ RevJoin

/-- R365, R366: the values of the merge types, and the types that do not depend on the order of joins. -/
def Obligations.MergeResult : Prop := MergeValues ∧ CellMergeOrder ∧ GranuleMergeOrder

/-! ## Tasks and threads -/

/-- The TASK family. -/
def Obligations.TaskResult : Prop := ThreadControl ∧ TaskQueues ∧ TaskLaunch

/-! ## Sequences -/

/-- Sequences: each instruction parks for the home slice's reply. -/
def Obligations.SpecResult : Prop := UnitAnswers ∧ SpecWindows ∧ SpecPositions ∧ SpecBlocks ∧ PrefixIssue ∧ PrefixServed

/-! ## The link unit -/

/-- The link unit's instructions, and the reply that completes them. -/
def Obligations.LinkResult : Prop := LinkIssue ∧ UnitAnswers

/-! ## The raster units -/

/-- The RAST family, and operands fetched from elsewhere. -/
def Obligations.RasterResult : Prop := RasterGeometry ∧ RasterFragments ∧ OperandAsked ∧ OperandGiven

/-! ## Messages on their way -/

/-- What the message slot does with the messages of its queue. -/
def Obligations.HandlerResult : Prop := SlotServed ∧ SyncServed

/-- What arrives by the network. -/
def Obligations.ArrivalResult : Prop := NetArrivals ∧ EngineArrivals

/-! ## Tasks, timers and Hampers -/

/-- The steps of tasks, of slots and of the Hampers. -/
def Obligations.GroupSteps : Prop := TaskSteps ∧ SlotSteps ∧ HamperSteps

/-! ## Launches -/

/-- The steps of launches. -/
def Obligations.LaunchSteps : Prop := RecordRead ∧ LaunchPlaced ∧ ThreadDispatched ∧ LaunchCounted

/-! ## Pages -/

/-- The steps of pages. -/
def Obligations.PageSteps : Prop := PageMoves ∧ TrailGrows

/-! ## The life of a context -/

/-- R252 to R256, R304, R418: a sound context record of a number that is free creates its context, and another is reported in the
status word; a request to pre-empt a RUNNING context leaves it HALTING, and in a state that does not list it the request waits; the signal
reaches its cores, whose engines stop; once every core has halted and the network holds only what may be saved, it is HALTED, and a resize
that halted it goes on; from there it resumes, is saved and restored to free clusters, is resized, or, where it must, is dumped, every
live launch complete, and FAULTED, with the status words of their roots alone (the model's reading, log 91); destruction removes it, and
keeps the generations of its tasks (the model's reading, log 84). What the network may hold as HALTING ends is log 76. -/
def Obligations.ContextSteps : Prop :=
  (∀ (record : BitVec 1024) (s : State), takesWork s = true →
    let num := recField record 144 16
    getCtx? s num = none →
    (recordReason s record = 0 → exec (.contextCreate record) s = .next (createContext s num record))
    ∧ (recordReason s record ≠ 0 → exec (.contextCreate record) s = .next { s with status := { s.status with
        ctxref := true, refctx := BitVec.ofNat 16 num, refcode := BitVec.ofNat 8 (recordReason s record) } }))
  ∧ (∀ (ctx core : Nat) (c : Context) (s : State), getCtx? s ctx = some c →
    let resized (s : State) (c : Context) (removed : List Nat) (t : State) : Prop :=
      let idx := (placedIndices c).filter removed.contains
      let phys := (freeClusters s).take idx.length
      let moved_ := (idx.zip phys).foldl (fun s p => restoreCluster s ctx p.1 p.2) (idx.foldl (fun s i => saveCluster s ctx i) s)
      (idx.length ≤ phys.length → t = if c.resize.isSome && !c.stay then resumeContext moved_ ctx
        else modCtx moved_ ctx fun c => { c with resize := none, stay := false })
      ∧ (phys.length < idx.length → t = saveAll s ctx c)
    (c.phase = .running →
      exec (.preemptionRequest ctx) s = .next (setCtx s ctx { c with phase := .halting })
      ∧ ∀ removed, exec (.resize ctx removed) s = .next (setCtx s ctx { c with phase := .halting, resize := some removed }))
    ∧ (c.phase = .idle → c.resize = none →
      exec (.preemptionRequest ctx) s = .next (setCtx s ctx { c with waiting := c.waiting ++ [.preempt] })
      ∧ exec (.resume ctx) s = .next (setCtx s ctx { c with waiting := c.waiting ++ [.resume] })
      ∧ exec (.save ctx) s = .next (setCtx s ctx { c with waiting := c.waiting ++ [.save] })
      ∧ ∀ removed, exec (.resize ctx removed) s = .next (setCtx s ctx { c with waiting := c.waiting ++ [.resize removed] }))
    ∧ (c.phase = .halting →
      (ctxOf core = ctx → (mapGet? s.cores core).isSome = true → (getCore s core).halting = false →
        exec (.haltSignal core) s = .next (haltEngines s core))
      ∧ ((∀ p ∈ s.cores, ctxOf p.1 = ctx → coreHalted p.2 = true) → (∀ p ∈ s.net, packetCtx p = ctx → packetHeld s p = true) →
        let c' := { c with phase := .halted }
        (c.resize = none → exec (.haltingComplete ctx) s = .next (setCtx s ctx c'))
        ∧ (∀ removed, c.resize = some removed →
          ∃ t, exec (.haltingComplete ctx) s = .next t ∧ resized (setCtx s ctx c') c' removed t)))
    ∧ (c.phase = .halted → c.mustDump = false →
      exec (.resume ctx) s = .next (resumeContext s ctx)
      ∧ exec (.save ctx) s = .next (modCtx ((placedIndices c).foldl (fun s i => saveCluster s ctx i) s) ctx fun c =>
        { c with phase := .saved, resize := none, stay := false })
      ∧ ∀ removed, ∃ t, exec (.resize ctx removed) s = .next t ∧ resized s c removed t)
    ∧ (c.phase = .halted → c.mustDump = true → c.frame.phase = .closed →
      let live := c.launches.filter fun p => p.2.phase == .running || p.2.phase == .placing
      exec (.dump ctx) s = .next (modCtx (live.foldl (fun s p => finishLaunch s ctx (BitVec.ofNat 32 p.1)
        (mapGet p.2.words nodeRoot 0 ||| statusDumped
          ||| (if c.reason = some causeDeadlineOverrun && overran c p then statusDeadline else 0)))
        (writeImages s ctx (placedIndices c))) ctx fun c => { c with phase := .faulted }))
    ∧ (∀ places : List Nat, c.phase = .saved → places.length = ctxGridW c * ctxGridH c → places.eraseDups.length = places.length →
      (∀ k ∈ places, k ∈ freeClusters s) →
      exec (.restore ctx places) s = .next (modCtx (places.zipIdx.foldl (fun s p => restoreCluster s ctx p.2 p.1) s) ctx fun c =>
        { c with phase := .halted }))
    ∧ (∃ t, exec (.destroy ctx) s = .next t ∧ getCtx? t ctx = none ∧ (∀ p ∈ t.cores, ctxOf p.1 ≠ ctx)
      ∧ (∀ p ∈ t.net, packetCtx p ≠ ctx) ∧ (c.taskGens ≠ [] → mapGet? t.oldGens ctx =
        some (c.taskGens.foldl (fun m g => mapSet m g.1 g.2) (mapGet s.oldGens ctx [])))))

/-! ## The device and the host -/

/-- The steps of the device and of the host. -/
def Obligations.DeviceSteps : Prop := PowerSteps ∧ CareSteps ∧ BarSteps

/-! ## Links -/

/-- The steps of the links. -/
def Obligations.LinkSteps : Prop := PacketSteps ∧ LinkStates

/-! ## The raster units and the commit of a window -/

/-- R401, R403 to R405, R407, R410: a primitive that reaches its owner is queued there in SEQ order, and leaves its die's binner with
its last copy (log 69: the rules do not say when that place is free); a watermark is noted there, and
what that lets go is released; an owner's next quad starts a fragment thread in the lowest EMPTY slot of a core of its die; the
first result that is next at its place is blended, sample by sample, and leaves; a settled frame closes: FSTAT is written at its
descriptor, its launch's tree pages lose their pins, and CLOSE's guard is resolved; a context that has halted keeps its frame as it is. R385: a sealed window of a running context with no member commits. -/
def Obligations.FrameSteps : Prop :=
  (∀ (msg : Nat) (ctx die owner : Nat) (s : State), rasterEarlier (s.net.take msg) ctx die owner = false →
    let s' := without s msg
    (∀ w, s.net[msg]? = some (.flit ctx die owner w) → exec (.watermarkFlit msg) s = .next (releaseAll (modFrame s' ctx fun f =>
      modOwner f owner fun o => { o with flits := mapSet o.flits die w }) ctx owner))
    ∧ (∀ rec, s.net[msg]? = some (.prim ctx die owner rec) → (∀ o, Packet.prim ctx die o rec ∉ s'.net) → ∀ f g,
      getFrame? s ctx = some f → mapGet? f.geo die = some g →
      exec (.primitiveArrival msg) s = .next (releaseAll (modFrame s' ctx fun f =>
        let f := modOwner f owner fun o => { o with arrivals := o.arrivals + 1, prims := heldAdd o.prims ⟨o.arrivals, rec, false, none, [], []⟩ }
        { f with geo := mapSet f.geo die { g with binner := g.binner.erase rec } }) ctx owner)))
  ∧ (∀ (ctx owner core slot : Nat) (c : Context) (o : Owner) (l : Launch) (quad : Quad) (prims : List Prim) (s : State),
    let s' := releaseAll s ctx owner
    getCtx? s' ctx = some c → mapGet? c.frame.owners owner = some o → mapGet? c.launches c.frame.launch.toNat = some l →
    nextQuad o.prims = some (quad, prims) → c.frame.phase ≠ .closed → c.phase = .running → ctxOf core = ctx →
    fragmentRoom s' c.frame c l owner ⟨core, slot⟩ = true →
    let q := frameD c.frame * o.quads + owner
    exec (.fragmentStart ctx owner core slot) s = .next (acquireAt (bindSlot
      (modFrame s' ctx fun f => modOwner f owner fun o => { o with prims := prims, quads := o.quads + 1 })
      ⟨core, slot⟩ c.frame.openLaunch (lrecKimg l.record)
      { pc := l.kernel.entry, stamp := wordOf (c.frame.launch.toNat * 2 ^ 32 + q % 2 ^ 32), part := l.kernel.part, sys := lrecSys l.record
        chain := false, prio := lrecPrio l.record, rank := BitVec.ofNat 32 q, task := 0, launch := c.frame.launch, up := none
        down := none, ltag := 0, record := l.record, taskBase := 0, taskRun := 0, quad := some quad
        openLaunch := c.frame.openLaunch }) core 3))
  ∧ (∀ (ctx owner : Nat) (c : Context) (o : Owner) (x : Fragment) (p : Prim) (prims : List Prim) (s : State),
    let s' := releaseAll s ctx owner
    let f := c.frame
    getCtx? s' ctx = some c → rasterRuns c = true → mapGet? f.owners owner = some o → o.results.find? (fun x => blendReady x o.prims) = some x →
    blendPrim x o.prims = some (p, prims) →
    let left (s : State) := modFrame s ctx fun f => modOwner f owner fun o => { o with prims := prims, results := o.results.erase x }
    (x.colours = none ∨ p.entry = none → exec (.blend ctx owner) s = .next (left s'))
    ∧ (∀ cs e t, x.colours = some cs → p.entry = some e →
      blendSamples ctx f (ownerCore f ctx owner) p.record e x cs s' (liveSamples (frameSamples f) x) = .done t →
      exec (.blend ctx owner) s = .next (left t)))
  ∧ (∀ (ctx : Nat) (c : Context) (s : State), getCtx? s ctx = some c → rasterRuns c = true → frameSettled s ctx c.frame = true →
    ∀ r g, c.frame.closer = some (r, g) →
    let f := c.frame
    let fstat := (f.fault.getD 0).toNat + f.discarded * 2 ^ 32
    let pins := ((mapGet? c.launches f.launch.toNat).map (·.treePins)).getD []
    let s' := modCtx (pins.foldl (fun s va => releasePin s ctx va)
      (modCore s f.core fun k => poolStore k 16 (f.offset + 120) (leBytes 8 fstat))) ctx fun c =>
      { c with
        frame := emptyFrame
        launches := match mapGet? c.launches f.launch.toNat with
          | some l => mapSet c.launches f.launch.toNat { l with phase := .done, treePins := [] }
          | none => c.launches }
    let cores : List (Nat × Core) := s'.cores.map fun p =>
      if ctxOf p.1 = ctx then (p.1, { p.2 with slots := p.2.slots.map fun t => { t with geo := none } }) else p
    exec (.frameCloseComplete ctx) s = .next (acquireAt
      (modRef { s' with cores := cores } r fun t => resolveG t (guardNo g) (!f.faulted)) r.core 3))
  ∧ (∀ (ctx owner core slot : Nat) (c : Context) (s : State), getCtx? s ctx = some c → rasterRuns c = false →
    exec (.fragmentStart ctx owner core slot) s = .next s ∧ exec (.blend ctx owner) s = .next s
    ∧ exec (.frameCloseComplete ctx) s = .next s)
  ∧ (∀ (ctx desc d : Nat) (c : Context) (w : SpecWindow) (s s' : State),
    let s₁ := payLeaves s ctx
    getCtx? s₁ ctx = some c → getWindow? s₁ ctx desc = some w → herePa s₁ ctx desc = some d → c.phase = .running →
    seqWstate s₁ d = 2 → seqMembers s₁ d = 0 → w.owed = 0 →
    (commitStep (settleVa s₁ ctx none desc) ctx d w = .error .failed → exec (.commitStep ctx desc) s = .next (haltContext s₁ ctx causeSeqOperand))
    ∧ (commitStep (settleVa s₁ ctx none desc) ctx d w = .error .held → exec (.commitStep ctx desc) s = .next s₁)
    ∧ (commitStep (settleVa s₁ ctx none desc) ctx d w = .ok s' →
      (∀ r g x, w.commit = some (r, g, x) → exec (.commitStep ctx desc) s = .next (acquireAt
        (modRef (setWindow s' ctx desc none) r fun t => resolveG t (guardNo g) true) r.core (seqScope s₁ d)))
      ∧ (w.commit = none → exec (.commitStep ctx desc) s = .next (setWindow s' ctx desc none))))

/-! ## Decoding -/

/-- R74 to R92: the word of every well-formed instruction decodes to it, with every operand at every value that its field holds; its
length in bits is 16 or 32, as bit 0 says, and it has no bit above them. -/
def Obligations.DecodeEncode : Prop :=
  ∀ (i : Instr) (n w : Nat), i.wf = true → encode i = some (n, w) →
    decode w = .ok i ∧ n = 8 * lengthOf w ∧ w < 2 ^ n

/-- R74, R86, R91: a word that decodes is the word of the instruction it decodes to, which is well-formed: no two words stand for
one instruction, and no bit of a word is without meaning. -/
def Obligations.EncodeDecode : Prop :=
  ∀ (w : Nat) (i : Instr), decode w = .ok i →
    i.wf = true ∧ encode i = some (8 * lengthOf (instrBits w), instrBits w)

/-- R74, R77, R82, R91: the words of the chapter's stream of examples decode as its table says, and so do words of other formats,
written field by field from bit 0 up. -/
def Obligations.DecodeWords : Prop :=
  decode 0x18A2 = .ok (.addC 5 6) ∧ decode 0x000E6281 = .ok (.add 5 6 7) ∧ decode 0x218A419B = .ok (.fmaddD 3 4 5 6)
  ∧ decode 0x05426281 = .error .field ∧ decode 0x0640009D = .error .func ∧ decode 0x00000037 = .error .opcode
  ∧ decode 0x0000 = .error .opcode ∧ decode 0x8522 = .ok (.vaddC 9 1)
  -- I: ADDI; B: BC with cc 3; L: ST of 4 bytes; E: CPY gated on guard 2 false; V: VADD.i16 on guard 5; VX: VFMA on guard 6.
  ∧ decode (wordFrom [(1, 1), (0x02, 6), (3, 5), (4, 5), (0x7FFF, 15)]) = .ok (.addi 3 4 0x7FFF)
  ∧ decode (wordFrom [(1, 1), (0x0F, 6), (3, 5), (4, 5), (3, 3), (0x801, 12)]) = .ok (.bcGe 3 4 0x801)
  ∧ decode (wordFrom [(1, 1), (0x15, 6), (3, 5), (4, 5), (6, 3), (2, 3), (0x101, 9)]) = .ok (.st 3 4 6 2 0x101)
  ∧ decode (wordFrom [(1, 1), (0x2A, 6), (3, 5), (4, 5), (5, 5), (2, 3), (1, 1), (0, 6)]) = .ok (.cpy 3 4 5 2 1)
  ∧ decode (wordFrom [(1, 1), (0x23, 6), (3, 5), (4, 5), (6, 5), (5, 3), (1, 7)]) = .ok (.vadd 3 4 6 5 1)
  ∧ decode (wordFrom [(1, 1), (0x25, 6), (3, 5), (4, 5), (6, 5), (7, 5), (6, 3), (0, 2)]) = .ok (.vfma 3 4 6 7 6)

/-! ## Steps -/

/-- R74, R91, R99: a step in which a slot issues fetches at its pc, and where the word there decodes to an instruction, the step is that
instruction's `exec` at the state that the fetch leaves: the core has had its part of the cycle, the slot's issue is marked, and the
slot is the current one, in the state it parked from. Where the word decodes to none, the thread takes the trap of R91. -/
def Obligations.StepRunsDecoded : Prop :=
  FetchRead ∧
  ∀ (s s₁ : State) (k slot : Nat) (donated : Bool) (w : Nat), Issues s k slot donated →
    let r : Ref := ⟨k, slot⟩
    let issued := markIssue (passCore { s with agenda := s.agenda.tail } k) k slot donated
    let entered := enterSlot issued r
    fetchWord entered (curThread entered).pc = .ok (s₁, w) →
    let s₂ := { s₁ with iword := BitVec.ofNat 32 w }
    (∀ i, decode w = .ok i → step s = match exec i s₂ with
      | .next t => .next (modRef t r leavePoll)
      | o => o)
    ∧ (∀ e, decode w = .error e → step s = .next (modRef (takeTrap s₂ (curRef s₂) (curThread s₂).pc (match e with
      | .opcode => causeIllegalOpcode
      | .func => causeIllegalFunction
      | .field => causeIllegalField) (wordOf s₂.iword.toNat)) r leavePoll))

/-- R83: the halfword 0x0000 is not an instruction: a slot that issues it traps ILLEGAL_OPCODE. Every other halfword with bit 0 clear
decodes as the form of R82. -/
def Obligations.HalfwordForms : Prop :=
  (∀ h : BitVec 16, h.getLsbD 0 = false → h ≠ 0 → decode h.toNat = halfwordForm h)
  ∧ decode 0 = .error .opcode
  ∧ ∀ (s s₁ : State) (k slot : Nat) (donated : Bool), Issues s k slot donated →
    let issued := markIssue (passCore { s with agenda := s.agenda.tail } k) k slot donated
    let entered := enterSlot issued ⟨k, slot⟩
    fetchWord entered (curThread entered).pc = .ok (s₁, 0) →
    let s₂ := { s₁ with iword := 0 }
    step s = .next (modRef (takeTrap s₂ (curRef s₂) (curThread s₂).pc causeIllegalOpcode 0) ⟨k, slot⟩ leavePoll)

/-- No instruction and no step of the device is refused, and none stops the machine: each answers a next state (the model's scope:
every row of the opcode table has its effect, and a trap is an effect). -/
def Obligations.GoesOn : Prop :=
  (∀ (i : Instr) (s : State), ∃ t, exec i s = .next t) ∧ ∀ s : State, ∃ t, step s = .next t

/-- R420, R325: the device comes out of reset with no context, core, packet or byte of memory but zero, not READY, and its memory in
canonical form; its first step is RESET's, after which it is READY, runs an image, and its links train. The zero of host memory, the
images, modules and links that the first step finds, and the order of steps are this model's choices (logs 1, 5 and 6). -/
def Obligations.ResetState : Prop :=
  let s := State.reset
  s.contexts = [] ∧ s.cores = [] ∧ s.net = [] ∧ s.status.ready = false ∧ (∀ a, memByte s a = 0) ∧ Sound s
  ∧ ∃ t, step s = .next t ∧ t.status.ready = true ∧ t.runningImage = some 0 ∧ Sound t ∧ ∀ l, l < 12 → (getPeer t l).state = 1

/-- Every step keeps main memory in canonical form: addresses rise, and no byte that reads as zero is listed; and no two addresses of
device memory share a place (R9). -/
def Obligations.MemoryInvariant : Prop :=
  OwnPlace ∧ ∀ s t : State, Sound s → step s = .next t → Sound t
end

