-- ==== Sys2Proof/Laws/State.lean ====
section
/-!
SUPPORT. One lemma for each field of State, Core and Thread and each named update of it: the field after the update. Each
is true by definition, so that no later proof unfolds a record update.
-/

namespace Sys2Proof.Machine

@[simp] theorem setCore_agenda (s : State) (k : Nat) (c : Core) : (setCore s k c).agenda = s.agenda := rfl
@[simp] theorem setCore_cur (s : State) (k : Nat) (c : Core) : (setCore s k c).cur = s.cur := rfl
@[simp] theorem setCore_iword (s : State) (k : Nat) (c : Core) : (setCore s k c).iword = s.iword := rfl
@[simp] theorem setCore_focus (s : State) (k : Nat) (c : Core) : (setCore s k c).focus = s.focus := rfl
@[simp] theorem setCore_free (s : State) (k : Nat) (c : Core) : (setCore s k c).free = s.free := rfl
@[simp] theorem setCore_cycle (s : State) (k : Nat) (c : Core) : (setCore s k c).cycle = s.cycle := rfl
@[simp] theorem setCore_clusters (s : State) (k : Nat) (c : Core) : (setCore s k c).clusters = s.clusters := rfl
@[simp] theorem setCore_dies (s : State) (k : Nat) (c : Core) : (setCore s k c).dies = s.dies := rfl
@[simp] theorem setCore_contexts (s : State) (k : Nat) (c : Core) : (setCore s k c).contexts = s.contexts := rfl
@[simp] theorem setCore_oldGens (s : State) (k : Nat) (c : Core) : (setCore s k c).oldGens = s.oldGens := rfl
@[simp] theorem setCore_rotors (s : State) (k : Nat) (c : Core) : (setCore s k c).rotors = s.rotors := rfl
@[simp] theorem setCore_mem (s : State) (k : Nat) (c : Core) : (setCore s k c).mem = s.mem := rfl
@[simp] theorem setCore_futures (s : State) (k : Nat) (c : Core) : (setCore s k c).futures = s.futures := rfl
@[simp] theorem setCore_poisoned (s : State) (k : Nat) (c : Core) : (setCore s k c).poisoned = s.poisoned := rfl
@[simp] theorem setCore_modules (s : State) (k : Nat) (c : Core) : (setCore s k c).modules = s.modules := rfl
@[simp] theorem setCore_absent (s : State) (k : Nat) (c : Core) : (setCore s k c).absent = s.absent := rfl
@[simp] theorem setCore_power (s : State) (k : Nat) (c : Core) : (setCore s k c).power = s.power := rfl
@[simp] theorem setCore_images (s : State) (k : Nat) (c : Core) : (setCore s k c).images = s.images := rfl
@[simp] theorem setCore_runningImage (s : State) (k : Nat) (c : Core) : (setCore s k c).runningImage = s.runningImage := rfl
@[simp] theorem setCore_rollback (s : State) (k : Nat) (c : Core) : (setCore s k c).rollback = s.rollback := rfl
@[simp] theorem setCore_status (s : State) (k : Nat) (c : Core) : (setCore s k c).status = s.status := rfl
@[simp] theorem setCore_hostq (s : State) (k : Nat) (c : Core) : (setCore s k c).hostq = s.hostq := rfl
@[simp] theorem setCore_peers (s : State) (k : Nat) (c : Core) : (setCore s k c).peers = s.peers := rfl
@[simp] theorem setCore_routes (s : State) (k : Nat) (c : Core) : (setCore s k c).routes = s.routes := rfl
@[simp] theorem setCore_dieLinks (s : State) (k : Nat) (c : Core) : (setCore s k c).dieLinks = s.dieLinks := rfl
@[simp] theorem setCore_waits (s : State) (k : Nat) (c : Core) : (setCore s k c).waits = s.waits := rfl
@[simp] theorem setCore_waitovf (s : State) (k : Nat) (c : Core) : (setCore s k c).waitovf = s.waitovf := rfl
@[simp] theorem setCore_corrected (s : State) (k : Nat) (c : Core) : (setCore s k c).corrected = s.corrected := rfl
@[simp] theorem setCore_telemetry (s : State) (k : Nat) (c : Core) : (setCore s k c).telemetry = s.telemetry := rfl
@[simp] theorem setCore_attest (s : State) (k : Nat) (c : Core) : (setCore s k c).attest = s.attest := rfl
@[simp] theorem setCore_net (s : State) (k : Nat) (c : Core) : (setCore s k c).net = s.net := rfl
@[simp] theorem setCore_deviceNumber (s : State) (k : Nat) (c : Core) : (setCore s k c).deviceNumber = s.deviceNumber := rfl
@[simp] theorem setCore_hostRead (s : State) (k : Nat) (c : Core) : (setCore s k c).hostRead = s.hostRead := rfl

@[simp] theorem modCore_agenda (s : State) (k : Nat) (f : Core → Core) : (modCore s k f).agenda = s.agenda := rfl
@[simp] theorem modCore_cur (s : State) (k : Nat) (f : Core → Core) : (modCore s k f).cur = s.cur := rfl
@[simp] theorem modCore_iword (s : State) (k : Nat) (f : Core → Core) : (modCore s k f).iword = s.iword := rfl
@[simp] theorem modCore_focus (s : State) (k : Nat) (f : Core → Core) : (modCore s k f).focus = s.focus := rfl
@[simp] theorem modCore_free (s : State) (k : Nat) (f : Core → Core) : (modCore s k f).free = s.free := rfl
@[simp] theorem modCore_cycle (s : State) (k : Nat) (f : Core → Core) : (modCore s k f).cycle = s.cycle := rfl
@[simp] theorem modCore_clusters (s : State) (k : Nat) (f : Core → Core) : (modCore s k f).clusters = s.clusters := rfl
@[simp] theorem modCore_dies (s : State) (k : Nat) (f : Core → Core) : (modCore s k f).dies = s.dies := rfl
@[simp] theorem modCore_contexts (s : State) (k : Nat) (f : Core → Core) : (modCore s k f).contexts = s.contexts := rfl
@[simp] theorem modCore_oldGens (s : State) (k : Nat) (f : Core → Core) : (modCore s k f).oldGens = s.oldGens := rfl
@[simp] theorem modCore_rotors (s : State) (k : Nat) (f : Core → Core) : (modCore s k f).rotors = s.rotors := rfl
@[simp] theorem modCore_mem (s : State) (k : Nat) (f : Core → Core) : (modCore s k f).mem = s.mem := rfl
@[simp] theorem modCore_futures (s : State) (k : Nat) (f : Core → Core) : (modCore s k f).futures = s.futures := rfl
@[simp] theorem modCore_poisoned (s : State) (k : Nat) (f : Core → Core) : (modCore s k f).poisoned = s.poisoned := rfl
@[simp] theorem modCore_modules (s : State) (k : Nat) (f : Core → Core) : (modCore s k f).modules = s.modules := rfl
@[simp] theorem modCore_absent (s : State) (k : Nat) (f : Core → Core) : (modCore s k f).absent = s.absent := rfl
@[simp] theorem modCore_power (s : State) (k : Nat) (f : Core → Core) : (modCore s k f).power = s.power := rfl
@[simp] theorem modCore_images (s : State) (k : Nat) (f : Core → Core) : (modCore s k f).images = s.images := rfl
@[simp] theorem modCore_runningImage (s : State) (k : Nat) (f : Core → Core) : (modCore s k f).runningImage = s.runningImage := rfl
@[simp] theorem modCore_rollback (s : State) (k : Nat) (f : Core → Core) : (modCore s k f).rollback = s.rollback := rfl
@[simp] theorem modCore_status (s : State) (k : Nat) (f : Core → Core) : (modCore s k f).status = s.status := rfl
@[simp] theorem modCore_hostq (s : State) (k : Nat) (f : Core → Core) : (modCore s k f).hostq = s.hostq := rfl
@[simp] theorem modCore_peers (s : State) (k : Nat) (f : Core → Core) : (modCore s k f).peers = s.peers := rfl
@[simp] theorem modCore_routes (s : State) (k : Nat) (f : Core → Core) : (modCore s k f).routes = s.routes := rfl
@[simp] theorem modCore_dieLinks (s : State) (k : Nat) (f : Core → Core) : (modCore s k f).dieLinks = s.dieLinks := rfl
@[simp] theorem modCore_waits (s : State) (k : Nat) (f : Core → Core) : (modCore s k f).waits = s.waits := rfl
@[simp] theorem modCore_waitovf (s : State) (k : Nat) (f : Core → Core) : (modCore s k f).waitovf = s.waitovf := rfl
@[simp] theorem modCore_corrected (s : State) (k : Nat) (f : Core → Core) : (modCore s k f).corrected = s.corrected := rfl
@[simp] theorem modCore_telemetry (s : State) (k : Nat) (f : Core → Core) : (modCore s k f).telemetry = s.telemetry := rfl
@[simp] theorem modCore_attest (s : State) (k : Nat) (f : Core → Core) : (modCore s k f).attest = s.attest := rfl
@[simp] theorem modCore_net (s : State) (k : Nat) (f : Core → Core) : (modCore s k f).net = s.net := rfl
@[simp] theorem modCore_deviceNumber (s : State) (k : Nat) (f : Core → Core) : (modCore s k f).deviceNumber = s.deviceNumber := rfl
@[simp] theorem modCore_hostRead (s : State) (k : Nat) (f : Core → Core) : (modCore s k f).hostRead = s.hostRead := rfl

@[simp] theorem setThread_agenda (s : State) (k : Nat) (i : Fin 16) (t : Thread) : (setThread s k i t).agenda = s.agenda := rfl
@[simp] theorem setThread_cur (s : State) (k : Nat) (i : Fin 16) (t : Thread) : (setThread s k i t).cur = s.cur := rfl
@[simp] theorem setThread_iword (s : State) (k : Nat) (i : Fin 16) (t : Thread) : (setThread s k i t).iword = s.iword := rfl
@[simp] theorem setThread_focus (s : State) (k : Nat) (i : Fin 16) (t : Thread) : (setThread s k i t).focus = s.focus := rfl
@[simp] theorem setThread_free (s : State) (k : Nat) (i : Fin 16) (t : Thread) : (setThread s k i t).free = s.free := rfl
@[simp] theorem setThread_cycle (s : State) (k : Nat) (i : Fin 16) (t : Thread) : (setThread s k i t).cycle = s.cycle := rfl
@[simp] theorem setThread_clusters (s : State) (k : Nat) (i : Fin 16) (t : Thread) : (setThread s k i t).clusters = s.clusters := rfl
@[simp] theorem setThread_dies (s : State) (k : Nat) (i : Fin 16) (t : Thread) : (setThread s k i t).dies = s.dies := rfl
@[simp] theorem setThread_contexts (s : State) (k : Nat) (i : Fin 16) (t : Thread) : (setThread s k i t).contexts = s.contexts := rfl
@[simp] theorem setThread_oldGens (s : State) (k : Nat) (i : Fin 16) (t : Thread) : (setThread s k i t).oldGens = s.oldGens := rfl
@[simp] theorem setThread_rotors (s : State) (k : Nat) (i : Fin 16) (t : Thread) : (setThread s k i t).rotors = s.rotors := rfl
@[simp] theorem setThread_mem (s : State) (k : Nat) (i : Fin 16) (t : Thread) : (setThread s k i t).mem = s.mem := rfl
@[simp] theorem setThread_futures (s : State) (k : Nat) (i : Fin 16) (t : Thread) : (setThread s k i t).futures = s.futures := rfl
@[simp] theorem setThread_poisoned (s : State) (k : Nat) (i : Fin 16) (t : Thread) : (setThread s k i t).poisoned = s.poisoned := rfl
@[simp] theorem setThread_modules (s : State) (k : Nat) (i : Fin 16) (t : Thread) : (setThread s k i t).modules = s.modules := rfl
@[simp] theorem setThread_absent (s : State) (k : Nat) (i : Fin 16) (t : Thread) : (setThread s k i t).absent = s.absent := rfl
@[simp] theorem setThread_power (s : State) (k : Nat) (i : Fin 16) (t : Thread) : (setThread s k i t).power = s.power := rfl
@[simp] theorem setThread_images (s : State) (k : Nat) (i : Fin 16) (t : Thread) : (setThread s k i t).images = s.images := rfl
@[simp] theorem setThread_runningImage (s : State) (k : Nat) (i : Fin 16) (t : Thread) : (setThread s k i t).runningImage = s.runningImage := rfl
@[simp] theorem setThread_rollback (s : State) (k : Nat) (i : Fin 16) (t : Thread) : (setThread s k i t).rollback = s.rollback := rfl
@[simp] theorem setThread_status (s : State) (k : Nat) (i : Fin 16) (t : Thread) : (setThread s k i t).status = s.status := rfl
@[simp] theorem setThread_hostq (s : State) (k : Nat) (i : Fin 16) (t : Thread) : (setThread s k i t).hostq = s.hostq := rfl
@[simp] theorem setThread_peers (s : State) (k : Nat) (i : Fin 16) (t : Thread) : (setThread s k i t).peers = s.peers := rfl
@[simp] theorem setThread_routes (s : State) (k : Nat) (i : Fin 16) (t : Thread) : (setThread s k i t).routes = s.routes := rfl
@[simp] theorem setThread_dieLinks (s : State) (k : Nat) (i : Fin 16) (t : Thread) : (setThread s k i t).dieLinks = s.dieLinks := rfl
@[simp] theorem setThread_waits (s : State) (k : Nat) (i : Fin 16) (t : Thread) : (setThread s k i t).waits = s.waits := rfl
@[simp] theorem setThread_waitovf (s : State) (k : Nat) (i : Fin 16) (t : Thread) : (setThread s k i t).waitovf = s.waitovf := rfl
@[simp] theorem setThread_corrected (s : State) (k : Nat) (i : Fin 16) (t : Thread) : (setThread s k i t).corrected = s.corrected := rfl
@[simp] theorem setThread_telemetry (s : State) (k : Nat) (i : Fin 16) (t : Thread) : (setThread s k i t).telemetry = s.telemetry := rfl
@[simp] theorem setThread_attest (s : State) (k : Nat) (i : Fin 16) (t : Thread) : (setThread s k i t).attest = s.attest := rfl
@[simp] theorem setThread_net (s : State) (k : Nat) (i : Fin 16) (t : Thread) : (setThread s k i t).net = s.net := rfl
@[simp] theorem setThread_deviceNumber (s : State) (k : Nat) (i : Fin 16) (t : Thread) : (setThread s k i t).deviceNumber = s.deviceNumber := rfl
@[simp] theorem setThread_hostRead (s : State) (k : Nat) (i : Fin 16) (t : Thread) : (setThread s k i t).hostRead = s.hostRead := rfl

@[simp] theorem modThread_agenda (s : State) (k : Nat) (i : Fin 16) (f : Thread → Thread) : (modThread s k i f).agenda = s.agenda := rfl
@[simp] theorem modThread_cur (s : State) (k : Nat) (i : Fin 16) (f : Thread → Thread) : (modThread s k i f).cur = s.cur := rfl
@[simp] theorem modThread_iword (s : State) (k : Nat) (i : Fin 16) (f : Thread → Thread) : (modThread s k i f).iword = s.iword := rfl
@[simp] theorem modThread_focus (s : State) (k : Nat) (i : Fin 16) (f : Thread → Thread) : (modThread s k i f).focus = s.focus := rfl
@[simp] theorem modThread_free (s : State) (k : Nat) (i : Fin 16) (f : Thread → Thread) : (modThread s k i f).free = s.free := rfl
@[simp] theorem modThread_cycle (s : State) (k : Nat) (i : Fin 16) (f : Thread → Thread) : (modThread s k i f).cycle = s.cycle := rfl
@[simp] theorem modThread_clusters (s : State) (k : Nat) (i : Fin 16) (f : Thread → Thread) : (modThread s k i f).clusters = s.clusters := rfl
@[simp] theorem modThread_dies (s : State) (k : Nat) (i : Fin 16) (f : Thread → Thread) : (modThread s k i f).dies = s.dies := rfl
@[simp] theorem modThread_contexts (s : State) (k : Nat) (i : Fin 16) (f : Thread → Thread) : (modThread s k i f).contexts = s.contexts := rfl
@[simp] theorem modThread_oldGens (s : State) (k : Nat) (i : Fin 16) (f : Thread → Thread) : (modThread s k i f).oldGens = s.oldGens := rfl
@[simp] theorem modThread_rotors (s : State) (k : Nat) (i : Fin 16) (f : Thread → Thread) : (modThread s k i f).rotors = s.rotors := rfl
@[simp] theorem modThread_mem (s : State) (k : Nat) (i : Fin 16) (f : Thread → Thread) : (modThread s k i f).mem = s.mem := rfl
@[simp] theorem modThread_futures (s : State) (k : Nat) (i : Fin 16) (f : Thread → Thread) : (modThread s k i f).futures = s.futures := rfl
@[simp] theorem modThread_poisoned (s : State) (k : Nat) (i : Fin 16) (f : Thread → Thread) : (modThread s k i f).poisoned = s.poisoned := rfl
@[simp] theorem modThread_modules (s : State) (k : Nat) (i : Fin 16) (f : Thread → Thread) : (modThread s k i f).modules = s.modules := rfl
@[simp] theorem modThread_absent (s : State) (k : Nat) (i : Fin 16) (f : Thread → Thread) : (modThread s k i f).absent = s.absent := rfl
@[simp] theorem modThread_power (s : State) (k : Nat) (i : Fin 16) (f : Thread → Thread) : (modThread s k i f).power = s.power := rfl
@[simp] theorem modThread_images (s : State) (k : Nat) (i : Fin 16) (f : Thread → Thread) : (modThread s k i f).images = s.images := rfl
@[simp] theorem modThread_runningImage (s : State) (k : Nat) (i : Fin 16) (f : Thread → Thread) : (modThread s k i f).runningImage = s.runningImage := rfl
@[simp] theorem modThread_rollback (s : State) (k : Nat) (i : Fin 16) (f : Thread → Thread) : (modThread s k i f).rollback = s.rollback := rfl
@[simp] theorem modThread_status (s : State) (k : Nat) (i : Fin 16) (f : Thread → Thread) : (modThread s k i f).status = s.status := rfl
@[simp] theorem modThread_hostq (s : State) (k : Nat) (i : Fin 16) (f : Thread → Thread) : (modThread s k i f).hostq = s.hostq := rfl
@[simp] theorem modThread_peers (s : State) (k : Nat) (i : Fin 16) (f : Thread → Thread) : (modThread s k i f).peers = s.peers := rfl
@[simp] theorem modThread_routes (s : State) (k : Nat) (i : Fin 16) (f : Thread → Thread) : (modThread s k i f).routes = s.routes := rfl
@[simp] theorem modThread_dieLinks (s : State) (k : Nat) (i : Fin 16) (f : Thread → Thread) : (modThread s k i f).dieLinks = s.dieLinks := rfl
@[simp] theorem modThread_waits (s : State) (k : Nat) (i : Fin 16) (f : Thread → Thread) : (modThread s k i f).waits = s.waits := rfl
@[simp] theorem modThread_waitovf (s : State) (k : Nat) (i : Fin 16) (f : Thread → Thread) : (modThread s k i f).waitovf = s.waitovf := rfl
@[simp] theorem modThread_corrected (s : State) (k : Nat) (i : Fin 16) (f : Thread → Thread) : (modThread s k i f).corrected = s.corrected := rfl
@[simp] theorem modThread_telemetry (s : State) (k : Nat) (i : Fin 16) (f : Thread → Thread) : (modThread s k i f).telemetry = s.telemetry := rfl
@[simp] theorem modThread_attest (s : State) (k : Nat) (i : Fin 16) (f : Thread → Thread) : (modThread s k i f).attest = s.attest := rfl
@[simp] theorem modThread_net (s : State) (k : Nat) (i : Fin 16) (f : Thread → Thread) : (modThread s k i f).net = s.net := rfl
@[simp] theorem modThread_deviceNumber (s : State) (k : Nat) (i : Fin 16) (f : Thread → Thread) : (modThread s k i f).deviceNumber = s.deviceNumber := rfl
@[simp] theorem modThread_hostRead (s : State) (k : Nat) (i : Fin 16) (f : Thread → Thread) : (modThread s k i f).hostRead = s.hostRead := rfl

@[simp] theorem modRef_agenda (s : State) (r : Ref) (f : Thread → Thread) : (modRef s r f).agenda = s.agenda := rfl
@[simp] theorem modRef_cur (s : State) (r : Ref) (f : Thread → Thread) : (modRef s r f).cur = s.cur := rfl
@[simp] theorem modRef_iword (s : State) (r : Ref) (f : Thread → Thread) : (modRef s r f).iword = s.iword := rfl
@[simp] theorem modRef_focus (s : State) (r : Ref) (f : Thread → Thread) : (modRef s r f).focus = s.focus := rfl
@[simp] theorem modRef_free (s : State) (r : Ref) (f : Thread → Thread) : (modRef s r f).free = s.free := rfl
@[simp] theorem modRef_cycle (s : State) (r : Ref) (f : Thread → Thread) : (modRef s r f).cycle = s.cycle := rfl
@[simp] theorem modRef_clusters (s : State) (r : Ref) (f : Thread → Thread) : (modRef s r f).clusters = s.clusters := rfl
@[simp] theorem modRef_dies (s : State) (r : Ref) (f : Thread → Thread) : (modRef s r f).dies = s.dies := rfl
@[simp] theorem modRef_contexts (s : State) (r : Ref) (f : Thread → Thread) : (modRef s r f).contexts = s.contexts := rfl
@[simp] theorem modRef_oldGens (s : State) (r : Ref) (f : Thread → Thread) : (modRef s r f).oldGens = s.oldGens := rfl
@[simp] theorem modRef_rotors (s : State) (r : Ref) (f : Thread → Thread) : (modRef s r f).rotors = s.rotors := rfl
@[simp] theorem modRef_mem (s : State) (r : Ref) (f : Thread → Thread) : (modRef s r f).mem = s.mem := rfl
@[simp] theorem modRef_futures (s : State) (r : Ref) (f : Thread → Thread) : (modRef s r f).futures = s.futures := rfl
@[simp] theorem modRef_poisoned (s : State) (r : Ref) (f : Thread → Thread) : (modRef s r f).poisoned = s.poisoned := rfl
@[simp] theorem modRef_modules (s : State) (r : Ref) (f : Thread → Thread) : (modRef s r f).modules = s.modules := rfl
@[simp] theorem modRef_absent (s : State) (r : Ref) (f : Thread → Thread) : (modRef s r f).absent = s.absent := rfl
@[simp] theorem modRef_power (s : State) (r : Ref) (f : Thread → Thread) : (modRef s r f).power = s.power := rfl
@[simp] theorem modRef_images (s : State) (r : Ref) (f : Thread → Thread) : (modRef s r f).images = s.images := rfl
@[simp] theorem modRef_runningImage (s : State) (r : Ref) (f : Thread → Thread) : (modRef s r f).runningImage = s.runningImage := rfl
@[simp] theorem modRef_rollback (s : State) (r : Ref) (f : Thread → Thread) : (modRef s r f).rollback = s.rollback := rfl
@[simp] theorem modRef_status (s : State) (r : Ref) (f : Thread → Thread) : (modRef s r f).status = s.status := rfl
@[simp] theorem modRef_hostq (s : State) (r : Ref) (f : Thread → Thread) : (modRef s r f).hostq = s.hostq := rfl
@[simp] theorem modRef_peers (s : State) (r : Ref) (f : Thread → Thread) : (modRef s r f).peers = s.peers := rfl
@[simp] theorem modRef_routes (s : State) (r : Ref) (f : Thread → Thread) : (modRef s r f).routes = s.routes := rfl
@[simp] theorem modRef_dieLinks (s : State) (r : Ref) (f : Thread → Thread) : (modRef s r f).dieLinks = s.dieLinks := rfl
@[simp] theorem modRef_waits (s : State) (r : Ref) (f : Thread → Thread) : (modRef s r f).waits = s.waits := rfl
@[simp] theorem modRef_waitovf (s : State) (r : Ref) (f : Thread → Thread) : (modRef s r f).waitovf = s.waitovf := rfl
@[simp] theorem modRef_corrected (s : State) (r : Ref) (f : Thread → Thread) : (modRef s r f).corrected = s.corrected := rfl
@[simp] theorem modRef_telemetry (s : State) (r : Ref) (f : Thread → Thread) : (modRef s r f).telemetry = s.telemetry := rfl
@[simp] theorem modRef_attest (s : State) (r : Ref) (f : Thread → Thread) : (modRef s r f).attest = s.attest := rfl
@[simp] theorem modRef_net (s : State) (r : Ref) (f : Thread → Thread) : (modRef s r f).net = s.net := rfl
@[simp] theorem modRef_deviceNumber (s : State) (r : Ref) (f : Thread → Thread) : (modRef s r f).deviceNumber = s.deviceNumber := rfl
@[simp] theorem modRef_hostRead (s : State) (r : Ref) (f : Thread → Thread) : (modRef s r f).hostRead = s.hostRead := rfl

@[simp] theorem putThread_agenda (s : State) (t : Thread) : (putThread s t).agenda = s.agenda := rfl
@[simp] theorem putThread_cur (s : State) (t : Thread) : (putThread s t).cur = s.cur := rfl
@[simp] theorem putThread_iword (s : State) (t : Thread) : (putThread s t).iword = s.iword := rfl
@[simp] theorem putThread_focus (s : State) (t : Thread) : (putThread s t).focus = s.focus := rfl
@[simp] theorem putThread_free (s : State) (t : Thread) : (putThread s t).free = s.free := rfl
@[simp] theorem putThread_cycle (s : State) (t : Thread) : (putThread s t).cycle = s.cycle := rfl
@[simp] theorem putThread_clusters (s : State) (t : Thread) : (putThread s t).clusters = s.clusters := rfl
@[simp] theorem putThread_dies (s : State) (t : Thread) : (putThread s t).dies = s.dies := rfl
@[simp] theorem putThread_contexts (s : State) (t : Thread) : (putThread s t).contexts = s.contexts := rfl
@[simp] theorem putThread_oldGens (s : State) (t : Thread) : (putThread s t).oldGens = s.oldGens := rfl
@[simp] theorem putThread_rotors (s : State) (t : Thread) : (putThread s t).rotors = s.rotors := rfl
@[simp] theorem putThread_mem (s : State) (t : Thread) : (putThread s t).mem = s.mem := rfl
@[simp] theorem putThread_futures (s : State) (t : Thread) : (putThread s t).futures = s.futures := rfl
@[simp] theorem putThread_poisoned (s : State) (t : Thread) : (putThread s t).poisoned = s.poisoned := rfl
@[simp] theorem putThread_modules (s : State) (t : Thread) : (putThread s t).modules = s.modules := rfl
@[simp] theorem putThread_absent (s : State) (t : Thread) : (putThread s t).absent = s.absent := rfl
@[simp] theorem putThread_power (s : State) (t : Thread) : (putThread s t).power = s.power := rfl
@[simp] theorem putThread_images (s : State) (t : Thread) : (putThread s t).images = s.images := rfl
@[simp] theorem putThread_runningImage (s : State) (t : Thread) : (putThread s t).runningImage = s.runningImage := rfl
@[simp] theorem putThread_rollback (s : State) (t : Thread) : (putThread s t).rollback = s.rollback := rfl
@[simp] theorem putThread_status (s : State) (t : Thread) : (putThread s t).status = s.status := rfl
@[simp] theorem putThread_hostq (s : State) (t : Thread) : (putThread s t).hostq = s.hostq := rfl
@[simp] theorem putThread_peers (s : State) (t : Thread) : (putThread s t).peers = s.peers := rfl
@[simp] theorem putThread_routes (s : State) (t : Thread) : (putThread s t).routes = s.routes := rfl
@[simp] theorem putThread_dieLinks (s : State) (t : Thread) : (putThread s t).dieLinks = s.dieLinks := rfl
@[simp] theorem putThread_waits (s : State) (t : Thread) : (putThread s t).waits = s.waits := rfl
@[simp] theorem putThread_waitovf (s : State) (t : Thread) : (putThread s t).waitovf = s.waitovf := rfl
@[simp] theorem putThread_corrected (s : State) (t : Thread) : (putThread s t).corrected = s.corrected := rfl
@[simp] theorem putThread_telemetry (s : State) (t : Thread) : (putThread s t).telemetry = s.telemetry := rfl
@[simp] theorem putThread_attest (s : State) (t : Thread) : (putThread s t).attest = s.attest := rfl
@[simp] theorem putThread_net (s : State) (t : Thread) : (putThread s t).net = s.net := rfl
@[simp] theorem putThread_deviceNumber (s : State) (t : Thread) : (putThread s t).deviceNumber = s.deviceNumber := rfl
@[simp] theorem putThread_hostRead (s : State) (t : Thread) : (putThread s t).hostRead = s.hostRead := rfl

@[simp] theorem modCur_agenda (s : State) (f : Thread → Thread) : (modCur s f).agenda = s.agenda := rfl
@[simp] theorem modCur_cur (s : State) (f : Thread → Thread) : (modCur s f).cur = s.cur := rfl
@[simp] theorem modCur_iword (s : State) (f : Thread → Thread) : (modCur s f).iword = s.iword := rfl
@[simp] theorem modCur_focus (s : State) (f : Thread → Thread) : (modCur s f).focus = s.focus := rfl
@[simp] theorem modCur_free (s : State) (f : Thread → Thread) : (modCur s f).free = s.free := rfl
@[simp] theorem modCur_cycle (s : State) (f : Thread → Thread) : (modCur s f).cycle = s.cycle := rfl
@[simp] theorem modCur_clusters (s : State) (f : Thread → Thread) : (modCur s f).clusters = s.clusters := rfl
@[simp] theorem modCur_dies (s : State) (f : Thread → Thread) : (modCur s f).dies = s.dies := rfl
@[simp] theorem modCur_contexts (s : State) (f : Thread → Thread) : (modCur s f).contexts = s.contexts := rfl
@[simp] theorem modCur_oldGens (s : State) (f : Thread → Thread) : (modCur s f).oldGens = s.oldGens := rfl
@[simp] theorem modCur_rotors (s : State) (f : Thread → Thread) : (modCur s f).rotors = s.rotors := rfl
@[simp] theorem modCur_mem (s : State) (f : Thread → Thread) : (modCur s f).mem = s.mem := rfl
@[simp] theorem modCur_futures (s : State) (f : Thread → Thread) : (modCur s f).futures = s.futures := rfl
@[simp] theorem modCur_poisoned (s : State) (f : Thread → Thread) : (modCur s f).poisoned = s.poisoned := rfl
@[simp] theorem modCur_modules (s : State) (f : Thread → Thread) : (modCur s f).modules = s.modules := rfl
@[simp] theorem modCur_absent (s : State) (f : Thread → Thread) : (modCur s f).absent = s.absent := rfl
@[simp] theorem modCur_power (s : State) (f : Thread → Thread) : (modCur s f).power = s.power := rfl
@[simp] theorem modCur_images (s : State) (f : Thread → Thread) : (modCur s f).images = s.images := rfl
@[simp] theorem modCur_runningImage (s : State) (f : Thread → Thread) : (modCur s f).runningImage = s.runningImage := rfl
@[simp] theorem modCur_rollback (s : State) (f : Thread → Thread) : (modCur s f).rollback = s.rollback := rfl
@[simp] theorem modCur_status (s : State) (f : Thread → Thread) : (modCur s f).status = s.status := rfl
@[simp] theorem modCur_hostq (s : State) (f : Thread → Thread) : (modCur s f).hostq = s.hostq := rfl
@[simp] theorem modCur_peers (s : State) (f : Thread → Thread) : (modCur s f).peers = s.peers := rfl
@[simp] theorem modCur_routes (s : State) (f : Thread → Thread) : (modCur s f).routes = s.routes := rfl
@[simp] theorem modCur_dieLinks (s : State) (f : Thread → Thread) : (modCur s f).dieLinks = s.dieLinks := rfl
@[simp] theorem modCur_waits (s : State) (f : Thread → Thread) : (modCur s f).waits = s.waits := rfl
@[simp] theorem modCur_waitovf (s : State) (f : Thread → Thread) : (modCur s f).waitovf = s.waitovf := rfl
@[simp] theorem modCur_corrected (s : State) (f : Thread → Thread) : (modCur s f).corrected = s.corrected := rfl
@[simp] theorem modCur_telemetry (s : State) (f : Thread → Thread) : (modCur s f).telemetry = s.telemetry := rfl
@[simp] theorem modCur_attest (s : State) (f : Thread → Thread) : (modCur s f).attest = s.attest := rfl
@[simp] theorem modCur_net (s : State) (f : Thread → Thread) : (modCur s f).net = s.net := rfl
@[simp] theorem modCur_deviceNumber (s : State) (f : Thread → Thread) : (modCur s f).deviceNumber = s.deviceNumber := rfl
@[simp] theorem modCur_hostRead (s : State) (f : Thread → Thread) : (modCur s f).hostRead = s.hostRead := rfl

@[simp] theorem advance_agenda (s : State) (n : Nat) : (advance s n).agenda = s.agenda := rfl
@[simp] theorem advance_cur (s : State) (n : Nat) : (advance s n).cur = s.cur := rfl
@[simp] theorem advance_iword (s : State) (n : Nat) : (advance s n).iword = s.iword := rfl
@[simp] theorem advance_focus (s : State) (n : Nat) : (advance s n).focus = s.focus := rfl
@[simp] theorem advance_free (s : State) (n : Nat) : (advance s n).free = s.free := rfl
@[simp] theorem advance_cycle (s : State) (n : Nat) : (advance s n).cycle = s.cycle := rfl
@[simp] theorem advance_clusters (s : State) (n : Nat) : (advance s n).clusters = s.clusters := rfl
@[simp] theorem advance_dies (s : State) (n : Nat) : (advance s n).dies = s.dies := rfl
@[simp] theorem advance_contexts (s : State) (n : Nat) : (advance s n).contexts = s.contexts := rfl
@[simp] theorem advance_oldGens (s : State) (n : Nat) : (advance s n).oldGens = s.oldGens := rfl
@[simp] theorem advance_rotors (s : State) (n : Nat) : (advance s n).rotors = s.rotors := rfl
@[simp] theorem advance_mem (s : State) (n : Nat) : (advance s n).mem = s.mem := rfl
@[simp] theorem advance_futures (s : State) (n : Nat) : (advance s n).futures = s.futures := rfl
@[simp] theorem advance_poisoned (s : State) (n : Nat) : (advance s n).poisoned = s.poisoned := rfl
@[simp] theorem advance_modules (s : State) (n : Nat) : (advance s n).modules = s.modules := rfl
@[simp] theorem advance_absent (s : State) (n : Nat) : (advance s n).absent = s.absent := rfl
@[simp] theorem advance_power (s : State) (n : Nat) : (advance s n).power = s.power := rfl
@[simp] theorem advance_images (s : State) (n : Nat) : (advance s n).images = s.images := rfl
@[simp] theorem advance_runningImage (s : State) (n : Nat) : (advance s n).runningImage = s.runningImage := rfl
@[simp] theorem advance_rollback (s : State) (n : Nat) : (advance s n).rollback = s.rollback := rfl
@[simp] theorem advance_status (s : State) (n : Nat) : (advance s n).status = s.status := rfl
@[simp] theorem advance_hostq (s : State) (n : Nat) : (advance s n).hostq = s.hostq := rfl
@[simp] theorem advance_peers (s : State) (n : Nat) : (advance s n).peers = s.peers := rfl
@[simp] theorem advance_routes (s : State) (n : Nat) : (advance s n).routes = s.routes := rfl
@[simp] theorem advance_dieLinks (s : State) (n : Nat) : (advance s n).dieLinks = s.dieLinks := rfl
@[simp] theorem advance_waits (s : State) (n : Nat) : (advance s n).waits = s.waits := rfl
@[simp] theorem advance_waitovf (s : State) (n : Nat) : (advance s n).waitovf = s.waitovf := rfl
@[simp] theorem advance_corrected (s : State) (n : Nat) : (advance s n).corrected = s.corrected := rfl
@[simp] theorem advance_telemetry (s : State) (n : Nat) : (advance s n).telemetry = s.telemetry := rfl
@[simp] theorem advance_attest (s : State) (n : Nat) : (advance s n).attest = s.attest := rfl
@[simp] theorem advance_net (s : State) (n : Nat) : (advance s n).net = s.net := rfl
@[simp] theorem advance_deviceNumber (s : State) (n : Nat) : (advance s n).deviceNumber = s.deviceNumber := rfl
@[simp] theorem advance_hostRead (s : State) (n : Nat) : (advance s n).hostRead = s.hostRead := rfl

@[simp] theorem setCluster_agenda (s : State) (k : Nat) (c : Cluster) : (setCluster s k c).agenda = s.agenda := rfl
@[simp] theorem setCluster_cur (s : State) (k : Nat) (c : Cluster) : (setCluster s k c).cur = s.cur := rfl
@[simp] theorem setCluster_iword (s : State) (k : Nat) (c : Cluster) : (setCluster s k c).iword = s.iword := rfl
@[simp] theorem setCluster_focus (s : State) (k : Nat) (c : Cluster) : (setCluster s k c).focus = s.focus := rfl
@[simp] theorem setCluster_free (s : State) (k : Nat) (c : Cluster) : (setCluster s k c).free = s.free := rfl
@[simp] theorem setCluster_cycle (s : State) (k : Nat) (c : Cluster) : (setCluster s k c).cycle = s.cycle := rfl
@[simp] theorem setCluster_cores (s : State) (k : Nat) (c : Cluster) : (setCluster s k c).cores = s.cores := rfl
@[simp] theorem setCluster_dies (s : State) (k : Nat) (c : Cluster) : (setCluster s k c).dies = s.dies := rfl
@[simp] theorem setCluster_contexts (s : State) (k : Nat) (c : Cluster) : (setCluster s k c).contexts = s.contexts := rfl
@[simp] theorem setCluster_oldGens (s : State) (k : Nat) (c : Cluster) : (setCluster s k c).oldGens = s.oldGens := rfl
@[simp] theorem setCluster_rotors (s : State) (k : Nat) (c : Cluster) : (setCluster s k c).rotors = s.rotors := rfl
@[simp] theorem setCluster_mem (s : State) (k : Nat) (c : Cluster) : (setCluster s k c).mem = s.mem := rfl
@[simp] theorem setCluster_futures (s : State) (k : Nat) (c : Cluster) : (setCluster s k c).futures = s.futures := rfl
@[simp] theorem setCluster_poisoned (s : State) (k : Nat) (c : Cluster) : (setCluster s k c).poisoned = s.poisoned := rfl
@[simp] theorem setCluster_modules (s : State) (k : Nat) (c : Cluster) : (setCluster s k c).modules = s.modules := rfl
@[simp] theorem setCluster_absent (s : State) (k : Nat) (c : Cluster) : (setCluster s k c).absent = s.absent := rfl
@[simp] theorem setCluster_power (s : State) (k : Nat) (c : Cluster) : (setCluster s k c).power = s.power := rfl
@[simp] theorem setCluster_images (s : State) (k : Nat) (c : Cluster) : (setCluster s k c).images = s.images := rfl
@[simp] theorem setCluster_runningImage (s : State) (k : Nat) (c : Cluster) : (setCluster s k c).runningImage = s.runningImage := rfl
@[simp] theorem setCluster_rollback (s : State) (k : Nat) (c : Cluster) : (setCluster s k c).rollback = s.rollback := rfl
@[simp] theorem setCluster_status (s : State) (k : Nat) (c : Cluster) : (setCluster s k c).status = s.status := rfl
@[simp] theorem setCluster_hostq (s : State) (k : Nat) (c : Cluster) : (setCluster s k c).hostq = s.hostq := rfl
@[simp] theorem setCluster_peers (s : State) (k : Nat) (c : Cluster) : (setCluster s k c).peers = s.peers := rfl
@[simp] theorem setCluster_routes (s : State) (k : Nat) (c : Cluster) : (setCluster s k c).routes = s.routes := rfl
@[simp] theorem setCluster_dieLinks (s : State) (k : Nat) (c : Cluster) : (setCluster s k c).dieLinks = s.dieLinks := rfl
@[simp] theorem setCluster_waits (s : State) (k : Nat) (c : Cluster) : (setCluster s k c).waits = s.waits := rfl
@[simp] theorem setCluster_waitovf (s : State) (k : Nat) (c : Cluster) : (setCluster s k c).waitovf = s.waitovf := rfl
@[simp] theorem setCluster_corrected (s : State) (k : Nat) (c : Cluster) : (setCluster s k c).corrected = s.corrected := rfl
@[simp] theorem setCluster_telemetry (s : State) (k : Nat) (c : Cluster) : (setCluster s k c).telemetry = s.telemetry := rfl
@[simp] theorem setCluster_attest (s : State) (k : Nat) (c : Cluster) : (setCluster s k c).attest = s.attest := rfl
@[simp] theorem setCluster_net (s : State) (k : Nat) (c : Cluster) : (setCluster s k c).net = s.net := rfl
@[simp] theorem setCluster_deviceNumber (s : State) (k : Nat) (c : Cluster) : (setCluster s k c).deviceNumber = s.deviceNumber := rfl
@[simp] theorem setCluster_hostRead (s : State) (k : Nat) (c : Cluster) : (setCluster s k c).hostRead = s.hostRead := rfl

@[simp] theorem modCluster_agenda (s : State) (k : Nat) (f : Cluster → Cluster) : (modCluster s k f).agenda = s.agenda := rfl
@[simp] theorem modCluster_cur (s : State) (k : Nat) (f : Cluster → Cluster) : (modCluster s k f).cur = s.cur := rfl
@[simp] theorem modCluster_iword (s : State) (k : Nat) (f : Cluster → Cluster) : (modCluster s k f).iword = s.iword := rfl
@[simp] theorem modCluster_focus (s : State) (k : Nat) (f : Cluster → Cluster) : (modCluster s k f).focus = s.focus := rfl
@[simp] theorem modCluster_free (s : State) (k : Nat) (f : Cluster → Cluster) : (modCluster s k f).free = s.free := rfl
@[simp] theorem modCluster_cycle (s : State) (k : Nat) (f : Cluster → Cluster) : (modCluster s k f).cycle = s.cycle := rfl
@[simp] theorem modCluster_cores (s : State) (k : Nat) (f : Cluster → Cluster) : (modCluster s k f).cores = s.cores := rfl
@[simp] theorem modCluster_dies (s : State) (k : Nat) (f : Cluster → Cluster) : (modCluster s k f).dies = s.dies := rfl
@[simp] theorem modCluster_contexts (s : State) (k : Nat) (f : Cluster → Cluster) : (modCluster s k f).contexts = s.contexts := rfl
@[simp] theorem modCluster_oldGens (s : State) (k : Nat) (f : Cluster → Cluster) : (modCluster s k f).oldGens = s.oldGens := rfl
@[simp] theorem modCluster_rotors (s : State) (k : Nat) (f : Cluster → Cluster) : (modCluster s k f).rotors = s.rotors := rfl
@[simp] theorem modCluster_mem (s : State) (k : Nat) (f : Cluster → Cluster) : (modCluster s k f).mem = s.mem := rfl
@[simp] theorem modCluster_futures (s : State) (k : Nat) (f : Cluster → Cluster) : (modCluster s k f).futures = s.futures := rfl
@[simp] theorem modCluster_poisoned (s : State) (k : Nat) (f : Cluster → Cluster) : (modCluster s k f).poisoned = s.poisoned := rfl
@[simp] theorem modCluster_modules (s : State) (k : Nat) (f : Cluster → Cluster) : (modCluster s k f).modules = s.modules := rfl
@[simp] theorem modCluster_absent (s : State) (k : Nat) (f : Cluster → Cluster) : (modCluster s k f).absent = s.absent := rfl
@[simp] theorem modCluster_power (s : State) (k : Nat) (f : Cluster → Cluster) : (modCluster s k f).power = s.power := rfl
@[simp] theorem modCluster_images (s : State) (k : Nat) (f : Cluster → Cluster) : (modCluster s k f).images = s.images := rfl
@[simp] theorem modCluster_runningImage (s : State) (k : Nat) (f : Cluster → Cluster) : (modCluster s k f).runningImage = s.runningImage := rfl
@[simp] theorem modCluster_rollback (s : State) (k : Nat) (f : Cluster → Cluster) : (modCluster s k f).rollback = s.rollback := rfl
@[simp] theorem modCluster_status (s : State) (k : Nat) (f : Cluster → Cluster) : (modCluster s k f).status = s.status := rfl
@[simp] theorem modCluster_hostq (s : State) (k : Nat) (f : Cluster → Cluster) : (modCluster s k f).hostq = s.hostq := rfl
@[simp] theorem modCluster_peers (s : State) (k : Nat) (f : Cluster → Cluster) : (modCluster s k f).peers = s.peers := rfl
@[simp] theorem modCluster_routes (s : State) (k : Nat) (f : Cluster → Cluster) : (modCluster s k f).routes = s.routes := rfl
@[simp] theorem modCluster_dieLinks (s : State) (k : Nat) (f : Cluster → Cluster) : (modCluster s k f).dieLinks = s.dieLinks := rfl
@[simp] theorem modCluster_waits (s : State) (k : Nat) (f : Cluster → Cluster) : (modCluster s k f).waits = s.waits := rfl
@[simp] theorem modCluster_waitovf (s : State) (k : Nat) (f : Cluster → Cluster) : (modCluster s k f).waitovf = s.waitovf := rfl
@[simp] theorem modCluster_corrected (s : State) (k : Nat) (f : Cluster → Cluster) : (modCluster s k f).corrected = s.corrected := rfl
@[simp] theorem modCluster_telemetry (s : State) (k : Nat) (f : Cluster → Cluster) : (modCluster s k f).telemetry = s.telemetry := rfl
@[simp] theorem modCluster_attest (s : State) (k : Nat) (f : Cluster → Cluster) : (modCluster s k f).attest = s.attest := rfl
@[simp] theorem modCluster_net (s : State) (k : Nat) (f : Cluster → Cluster) : (modCluster s k f).net = s.net := rfl
@[simp] theorem modCluster_deviceNumber (s : State) (k : Nat) (f : Cluster → Cluster) : (modCluster s k f).deviceNumber = s.deviceNumber := rfl
@[simp] theorem modCluster_hostRead (s : State) (k : Nat) (f : Cluster → Cluster) : (modCluster s k f).hostRead = s.hostRead := rfl

@[simp] theorem modDie_agenda (s : State) (d : Nat) (f : Die → Die) : (modDie s d f).agenda = s.agenda := rfl
@[simp] theorem modDie_cur (s : State) (d : Nat) (f : Die → Die) : (modDie s d f).cur = s.cur := rfl
@[simp] theorem modDie_iword (s : State) (d : Nat) (f : Die → Die) : (modDie s d f).iword = s.iword := rfl
@[simp] theorem modDie_focus (s : State) (d : Nat) (f : Die → Die) : (modDie s d f).focus = s.focus := rfl
@[simp] theorem modDie_free (s : State) (d : Nat) (f : Die → Die) : (modDie s d f).free = s.free := rfl
@[simp] theorem modDie_cycle (s : State) (d : Nat) (f : Die → Die) : (modDie s d f).cycle = s.cycle := rfl
@[simp] theorem modDie_cores (s : State) (d : Nat) (f : Die → Die) : (modDie s d f).cores = s.cores := rfl
@[simp] theorem modDie_clusters (s : State) (d : Nat) (f : Die → Die) : (modDie s d f).clusters = s.clusters := rfl
@[simp] theorem modDie_contexts (s : State) (d : Nat) (f : Die → Die) : (modDie s d f).contexts = s.contexts := rfl
@[simp] theorem modDie_oldGens (s : State) (d : Nat) (f : Die → Die) : (modDie s d f).oldGens = s.oldGens := rfl
@[simp] theorem modDie_rotors (s : State) (d : Nat) (f : Die → Die) : (modDie s d f).rotors = s.rotors := rfl
@[simp] theorem modDie_mem (s : State) (d : Nat) (f : Die → Die) : (modDie s d f).mem = s.mem := rfl
@[simp] theorem modDie_futures (s : State) (d : Nat) (f : Die → Die) : (modDie s d f).futures = s.futures := rfl
@[simp] theorem modDie_poisoned (s : State) (d : Nat) (f : Die → Die) : (modDie s d f).poisoned = s.poisoned := rfl
@[simp] theorem modDie_modules (s : State) (d : Nat) (f : Die → Die) : (modDie s d f).modules = s.modules := rfl
@[simp] theorem modDie_absent (s : State) (d : Nat) (f : Die → Die) : (modDie s d f).absent = s.absent := rfl
@[simp] theorem modDie_power (s : State) (d : Nat) (f : Die → Die) : (modDie s d f).power = s.power := rfl
@[simp] theorem modDie_images (s : State) (d : Nat) (f : Die → Die) : (modDie s d f).images = s.images := rfl
@[simp] theorem modDie_runningImage (s : State) (d : Nat) (f : Die → Die) : (modDie s d f).runningImage = s.runningImage := rfl
@[simp] theorem modDie_rollback (s : State) (d : Nat) (f : Die → Die) : (modDie s d f).rollback = s.rollback := rfl
@[simp] theorem modDie_status (s : State) (d : Nat) (f : Die → Die) : (modDie s d f).status = s.status := rfl
@[simp] theorem modDie_hostq (s : State) (d : Nat) (f : Die → Die) : (modDie s d f).hostq = s.hostq := rfl
@[simp] theorem modDie_peers (s : State) (d : Nat) (f : Die → Die) : (modDie s d f).peers = s.peers := rfl
@[simp] theorem modDie_routes (s : State) (d : Nat) (f : Die → Die) : (modDie s d f).routes = s.routes := rfl
@[simp] theorem modDie_dieLinks (s : State) (d : Nat) (f : Die → Die) : (modDie s d f).dieLinks = s.dieLinks := rfl
@[simp] theorem modDie_waits (s : State) (d : Nat) (f : Die → Die) : (modDie s d f).waits = s.waits := rfl
@[simp] theorem modDie_waitovf (s : State) (d : Nat) (f : Die → Die) : (modDie s d f).waitovf = s.waitovf := rfl
@[simp] theorem modDie_corrected (s : State) (d : Nat) (f : Die → Die) : (modDie s d f).corrected = s.corrected := rfl
@[simp] theorem modDie_telemetry (s : State) (d : Nat) (f : Die → Die) : (modDie s d f).telemetry = s.telemetry := rfl
@[simp] theorem modDie_attest (s : State) (d : Nat) (f : Die → Die) : (modDie s d f).attest = s.attest := rfl
@[simp] theorem modDie_net (s : State) (d : Nat) (f : Die → Die) : (modDie s d f).net = s.net := rfl
@[simp] theorem modDie_deviceNumber (s : State) (d : Nat) (f : Die → Die) : (modDie s d f).deviceNumber = s.deviceNumber := rfl
@[simp] theorem modDie_hostRead (s : State) (d : Nat) (f : Die → Die) : (modDie s d f).hostRead = s.hostRead := rfl

@[simp] theorem setCtx_agenda (s : State) (n : Nat) (c : Context) : (setCtx s n c).agenda = s.agenda := rfl
@[simp] theorem setCtx_cur (s : State) (n : Nat) (c : Context) : (setCtx s n c).cur = s.cur := rfl
@[simp] theorem setCtx_iword (s : State) (n : Nat) (c : Context) : (setCtx s n c).iword = s.iword := rfl
@[simp] theorem setCtx_focus (s : State) (n : Nat) (c : Context) : (setCtx s n c).focus = s.focus := rfl
@[simp] theorem setCtx_free (s : State) (n : Nat) (c : Context) : (setCtx s n c).free = s.free := rfl
@[simp] theorem setCtx_cycle (s : State) (n : Nat) (c : Context) : (setCtx s n c).cycle = s.cycle := rfl
@[simp] theorem setCtx_cores (s : State) (n : Nat) (c : Context) : (setCtx s n c).cores = s.cores := rfl
@[simp] theorem setCtx_clusters (s : State) (n : Nat) (c : Context) : (setCtx s n c).clusters = s.clusters := rfl
@[simp] theorem setCtx_dies (s : State) (n : Nat) (c : Context) : (setCtx s n c).dies = s.dies := rfl
@[simp] theorem setCtx_oldGens (s : State) (n : Nat) (c : Context) : (setCtx s n c).oldGens = s.oldGens := rfl
@[simp] theorem setCtx_rotors (s : State) (n : Nat) (c : Context) : (setCtx s n c).rotors = s.rotors := rfl
@[simp] theorem setCtx_mem (s : State) (n : Nat) (c : Context) : (setCtx s n c).mem = s.mem := rfl
@[simp] theorem setCtx_futures (s : State) (n : Nat) (c : Context) : (setCtx s n c).futures = s.futures := rfl
@[simp] theorem setCtx_poisoned (s : State) (n : Nat) (c : Context) : (setCtx s n c).poisoned = s.poisoned := rfl
@[simp] theorem setCtx_modules (s : State) (n : Nat) (c : Context) : (setCtx s n c).modules = s.modules := rfl
@[simp] theorem setCtx_absent (s : State) (n : Nat) (c : Context) : (setCtx s n c).absent = s.absent := rfl
@[simp] theorem setCtx_power (s : State) (n : Nat) (c : Context) : (setCtx s n c).power = s.power := rfl
@[simp] theorem setCtx_images (s : State) (n : Nat) (c : Context) : (setCtx s n c).images = s.images := rfl
@[simp] theorem setCtx_runningImage (s : State) (n : Nat) (c : Context) : (setCtx s n c).runningImage = s.runningImage := rfl
@[simp] theorem setCtx_rollback (s : State) (n : Nat) (c : Context) : (setCtx s n c).rollback = s.rollback := rfl
@[simp] theorem setCtx_status (s : State) (n : Nat) (c : Context) : (setCtx s n c).status = s.status := rfl
@[simp] theorem setCtx_hostq (s : State) (n : Nat) (c : Context) : (setCtx s n c).hostq = s.hostq := rfl
@[simp] theorem setCtx_peers (s : State) (n : Nat) (c : Context) : (setCtx s n c).peers = s.peers := rfl
@[simp] theorem setCtx_routes (s : State) (n : Nat) (c : Context) : (setCtx s n c).routes = s.routes := rfl
@[simp] theorem setCtx_dieLinks (s : State) (n : Nat) (c : Context) : (setCtx s n c).dieLinks = s.dieLinks := rfl
@[simp] theorem setCtx_waits (s : State) (n : Nat) (c : Context) : (setCtx s n c).waits = s.waits := rfl
@[simp] theorem setCtx_waitovf (s : State) (n : Nat) (c : Context) : (setCtx s n c).waitovf = s.waitovf := rfl
@[simp] theorem setCtx_corrected (s : State) (n : Nat) (c : Context) : (setCtx s n c).corrected = s.corrected := rfl
@[simp] theorem setCtx_telemetry (s : State) (n : Nat) (c : Context) : (setCtx s n c).telemetry = s.telemetry := rfl
@[simp] theorem setCtx_attest (s : State) (n : Nat) (c : Context) : (setCtx s n c).attest = s.attest := rfl
@[simp] theorem setCtx_net (s : State) (n : Nat) (c : Context) : (setCtx s n c).net = s.net := rfl
@[simp] theorem setCtx_deviceNumber (s : State) (n : Nat) (c : Context) : (setCtx s n c).deviceNumber = s.deviceNumber := rfl
@[simp] theorem setCtx_hostRead (s : State) (n : Nat) (c : Context) : (setCtx s n c).hostRead = s.hostRead := rfl

@[simp] theorem memWrite_agenda (s : State) (a : Nat) (bs : List Byte) : (memWrite s a bs).agenda = s.agenda := rfl
@[simp] theorem memWrite_cur (s : State) (a : Nat) (bs : List Byte) : (memWrite s a bs).cur = s.cur := rfl
@[simp] theorem memWrite_iword (s : State) (a : Nat) (bs : List Byte) : (memWrite s a bs).iword = s.iword := rfl
@[simp] theorem memWrite_focus (s : State) (a : Nat) (bs : List Byte) : (memWrite s a bs).focus = s.focus := rfl
@[simp] theorem memWrite_free (s : State) (a : Nat) (bs : List Byte) : (memWrite s a bs).free = s.free := rfl
@[simp] theorem memWrite_cycle (s : State) (a : Nat) (bs : List Byte) : (memWrite s a bs).cycle = s.cycle := rfl
@[simp] theorem memWrite_cores (s : State) (a : Nat) (bs : List Byte) : (memWrite s a bs).cores = s.cores := rfl
@[simp] theorem memWrite_clusters (s : State) (a : Nat) (bs : List Byte) : (memWrite s a bs).clusters = s.clusters := rfl
@[simp] theorem memWrite_dies (s : State) (a : Nat) (bs : List Byte) : (memWrite s a bs).dies = s.dies := rfl
@[simp] theorem memWrite_contexts (s : State) (a : Nat) (bs : List Byte) : (memWrite s a bs).contexts = s.contexts := rfl
@[simp] theorem memWrite_oldGens (s : State) (a : Nat) (bs : List Byte) : (memWrite s a bs).oldGens = s.oldGens := rfl
@[simp] theorem memWrite_rotors (s : State) (a : Nat) (bs : List Byte) : (memWrite s a bs).rotors = s.rotors := rfl
@[simp] theorem memWrite_futures (s : State) (a : Nat) (bs : List Byte) : (memWrite s a bs).futures = s.futures := rfl
@[simp] theorem memWrite_poisoned (s : State) (a : Nat) (bs : List Byte) : (memWrite s a bs).poisoned = s.poisoned := rfl
@[simp] theorem memWrite_modules (s : State) (a : Nat) (bs : List Byte) : (memWrite s a bs).modules = s.modules := rfl
@[simp] theorem memWrite_absent (s : State) (a : Nat) (bs : List Byte) : (memWrite s a bs).absent = s.absent := rfl
@[simp] theorem memWrite_power (s : State) (a : Nat) (bs : List Byte) : (memWrite s a bs).power = s.power := rfl
@[simp] theorem memWrite_images (s : State) (a : Nat) (bs : List Byte) : (memWrite s a bs).images = s.images := rfl
@[simp] theorem memWrite_runningImage (s : State) (a : Nat) (bs : List Byte) : (memWrite s a bs).runningImage = s.runningImage := rfl
@[simp] theorem memWrite_rollback (s : State) (a : Nat) (bs : List Byte) : (memWrite s a bs).rollback = s.rollback := rfl
@[simp] theorem memWrite_status (s : State) (a : Nat) (bs : List Byte) : (memWrite s a bs).status = s.status := rfl
@[simp] theorem memWrite_hostq (s : State) (a : Nat) (bs : List Byte) : (memWrite s a bs).hostq = s.hostq := rfl
@[simp] theorem memWrite_peers (s : State) (a : Nat) (bs : List Byte) : (memWrite s a bs).peers = s.peers := rfl
@[simp] theorem memWrite_routes (s : State) (a : Nat) (bs : List Byte) : (memWrite s a bs).routes = s.routes := rfl
@[simp] theorem memWrite_dieLinks (s : State) (a : Nat) (bs : List Byte) : (memWrite s a bs).dieLinks = s.dieLinks := rfl
@[simp] theorem memWrite_waits (s : State) (a : Nat) (bs : List Byte) : (memWrite s a bs).waits = s.waits := rfl
@[simp] theorem memWrite_waitovf (s : State) (a : Nat) (bs : List Byte) : (memWrite s a bs).waitovf = s.waitovf := rfl
@[simp] theorem memWrite_corrected (s : State) (a : Nat) (bs : List Byte) : (memWrite s a bs).corrected = s.corrected := rfl
@[simp] theorem memWrite_telemetry (s : State) (a : Nat) (bs : List Byte) : (memWrite s a bs).telemetry = s.telemetry := rfl
@[simp] theorem memWrite_attest (s : State) (a : Nat) (bs : List Byte) : (memWrite s a bs).attest = s.attest := rfl
@[simp] theorem memWrite_net (s : State) (a : Nat) (bs : List Byte) : (memWrite s a bs).net = s.net := rfl
@[simp] theorem memWrite_deviceNumber (s : State) (a : Nat) (bs : List Byte) : (memWrite s a bs).deviceNumber = s.deviceNumber := rfl
@[simp] theorem memWrite_hostRead (s : State) (a : Nat) (bs : List Byte) : (memWrite s a bs).hostRead = s.hostRead := rfl

@[simp] theorem send_agenda (s : State) (p : Packet) : (send s p).agenda = s.agenda := rfl
@[simp] theorem send_cur (s : State) (p : Packet) : (send s p).cur = s.cur := rfl
@[simp] theorem send_iword (s : State) (p : Packet) : (send s p).iword = s.iword := rfl
@[simp] theorem send_focus (s : State) (p : Packet) : (send s p).focus = s.focus := rfl
@[simp] theorem send_free (s : State) (p : Packet) : (send s p).free = s.free := rfl
@[simp] theorem send_cycle (s : State) (p : Packet) : (send s p).cycle = s.cycle := rfl
@[simp] theorem send_cores (s : State) (p : Packet) : (send s p).cores = s.cores := rfl
@[simp] theorem send_clusters (s : State) (p : Packet) : (send s p).clusters = s.clusters := rfl
@[simp] theorem send_dies (s : State) (p : Packet) : (send s p).dies = s.dies := rfl
@[simp] theorem send_contexts (s : State) (p : Packet) : (send s p).contexts = s.contexts := rfl
@[simp] theorem send_oldGens (s : State) (p : Packet) : (send s p).oldGens = s.oldGens := rfl
@[simp] theorem send_rotors (s : State) (p : Packet) : (send s p).rotors = s.rotors := rfl
@[simp] theorem send_mem (s : State) (p : Packet) : (send s p).mem = s.mem := rfl
@[simp] theorem send_futures (s : State) (p : Packet) : (send s p).futures = s.futures := rfl
@[simp] theorem send_poisoned (s : State) (p : Packet) : (send s p).poisoned = s.poisoned := rfl
@[simp] theorem send_modules (s : State) (p : Packet) : (send s p).modules = s.modules := rfl
@[simp] theorem send_absent (s : State) (p : Packet) : (send s p).absent = s.absent := rfl
@[simp] theorem send_power (s : State) (p : Packet) : (send s p).power = s.power := rfl
@[simp] theorem send_images (s : State) (p : Packet) : (send s p).images = s.images := rfl
@[simp] theorem send_runningImage (s : State) (p : Packet) : (send s p).runningImage = s.runningImage := rfl
@[simp] theorem send_rollback (s : State) (p : Packet) : (send s p).rollback = s.rollback := rfl
@[simp] theorem send_status (s : State) (p : Packet) : (send s p).status = s.status := rfl
@[simp] theorem send_hostq (s : State) (p : Packet) : (send s p).hostq = s.hostq := rfl
@[simp] theorem send_peers (s : State) (p : Packet) : (send s p).peers = s.peers := rfl
@[simp] theorem send_routes (s : State) (p : Packet) : (send s p).routes = s.routes := rfl
@[simp] theorem send_dieLinks (s : State) (p : Packet) : (send s p).dieLinks = s.dieLinks := rfl
@[simp] theorem send_waits (s : State) (p : Packet) : (send s p).waits = s.waits := rfl
@[simp] theorem send_waitovf (s : State) (p : Packet) : (send s p).waitovf = s.waitovf := rfl
@[simp] theorem send_corrected (s : State) (p : Packet) : (send s p).corrected = s.corrected := rfl
@[simp] theorem send_telemetry (s : State) (p : Packet) : (send s p).telemetry = s.telemetry := rfl
@[simp] theorem send_attest (s : State) (p : Packet) : (send s p).attest = s.attest := rfl
@[simp] theorem send_deviceNumber (s : State) (p : Packet) : (send s p).deviceNumber = s.deviceNumber := rfl
@[simp] theorem send_hostRead (s : State) (p : Packet) : (send s p).hostRead = s.hostRead := rfl

@[simp] theorem takeFree_agenda (s : State) : (takeFree s).1.agenda = s.agenda := rfl
@[simp] theorem takeFree_cur (s : State) : (takeFree s).1.cur = s.cur := rfl
@[simp] theorem takeFree_iword (s : State) : (takeFree s).1.iword = s.iword := rfl
@[simp] theorem takeFree_focus (s : State) : (takeFree s).1.focus = s.focus := rfl
@[simp] theorem takeFree_cycle (s : State) : (takeFree s).1.cycle = s.cycle := rfl
@[simp] theorem takeFree_cores (s : State) : (takeFree s).1.cores = s.cores := rfl
@[simp] theorem takeFree_clusters (s : State) : (takeFree s).1.clusters = s.clusters := rfl
@[simp] theorem takeFree_dies (s : State) : (takeFree s).1.dies = s.dies := rfl
@[simp] theorem takeFree_contexts (s : State) : (takeFree s).1.contexts = s.contexts := rfl
@[simp] theorem takeFree_oldGens (s : State) : (takeFree s).1.oldGens = s.oldGens := rfl
@[simp] theorem takeFree_rotors (s : State) : (takeFree s).1.rotors = s.rotors := rfl
@[simp] theorem takeFree_mem (s : State) : (takeFree s).1.mem = s.mem := rfl
@[simp] theorem takeFree_futures (s : State) : (takeFree s).1.futures = s.futures := rfl
@[simp] theorem takeFree_poisoned (s : State) : (takeFree s).1.poisoned = s.poisoned := rfl
@[simp] theorem takeFree_modules (s : State) : (takeFree s).1.modules = s.modules := rfl
@[simp] theorem takeFree_absent (s : State) : (takeFree s).1.absent = s.absent := rfl
@[simp] theorem takeFree_power (s : State) : (takeFree s).1.power = s.power := rfl
@[simp] theorem takeFree_images (s : State) : (takeFree s).1.images = s.images := rfl
@[simp] theorem takeFree_runningImage (s : State) : (takeFree s).1.runningImage = s.runningImage := rfl
@[simp] theorem takeFree_rollback (s : State) : (takeFree s).1.rollback = s.rollback := rfl
@[simp] theorem takeFree_status (s : State) : (takeFree s).1.status = s.status := rfl
@[simp] theorem takeFree_hostq (s : State) : (takeFree s).1.hostq = s.hostq := rfl
@[simp] theorem takeFree_peers (s : State) : (takeFree s).1.peers = s.peers := rfl
@[simp] theorem takeFree_routes (s : State) : (takeFree s).1.routes = s.routes := rfl
@[simp] theorem takeFree_dieLinks (s : State) : (takeFree s).1.dieLinks = s.dieLinks := rfl
@[simp] theorem takeFree_waits (s : State) : (takeFree s).1.waits = s.waits := rfl
@[simp] theorem takeFree_waitovf (s : State) : (takeFree s).1.waitovf = s.waitovf := rfl
@[simp] theorem takeFree_corrected (s : State) : (takeFree s).1.corrected = s.corrected := rfl
@[simp] theorem takeFree_telemetry (s : State) : (takeFree s).1.telemetry = s.telemetry := rfl
@[simp] theorem takeFree_attest (s : State) : (takeFree s).1.attest = s.attest := rfl
@[simp] theorem takeFree_net (s : State) : (takeFree s).1.net = s.net := rfl
@[simp] theorem takeFree_deviceNumber (s : State) : (takeFree s).1.deviceNumber = s.deviceNumber := rfl
@[simp] theorem takeFree_hostRead (s : State) : (takeFree s).1.hostRead = s.hostRead := rfl

@[simp] theorem setX_phase (t : Thread) (i : BitVec 5) (v : Word) : (setX t i v).phase = t.phase := rfl
@[simp] theorem setX_parkedFrom (t : Thread) (i : BitVec 5) (v : Word) : (setX t i v).parkedFrom = t.parkedFrom := rfl
@[simp] theorem setX_haltedFrom (t : Thread) (i : BitVec 5) (v : Word) : (setX t i v).haltedFrom = t.haltedFrom := rfl
@[simp] theorem setX_wait (t : Thread) (i : BitVec 5) (v : Word) : (setX t i v).wait = t.wait := rfl
@[simp] theorem setX_parkLen (t : Thread) (i : BitVec 5) (v : Word) : (setX t i v).parkLen = t.parkLen := rfl
@[simp] theorem setX_retiring (t : Thread) (i : BitVec 5) (v : Word) : (setX t i v).retiring = t.retiring := rfl
@[simp] theorem setX_pc (t : Thread) (i : BitVec 5) (v : Word) : (setX t i v).pc = t.pc := rfl
@[simp] theorem setX_v (t : Thread) (i : BitVec 5) (v : Word) : (setX t i v).v = t.v := rfl
@[simp] theorem setX_acc (t : Thread) (i : BitVec 5) (v : Word) : (setX t i v).acc = t.acc := rfl
@[simp] theorem setX_latchA (t : Thread) (i : BitVec 5) (v : Word) : (setX t i v).latchA = t.latchA := rfl
@[simp] theorem setX_latchB (t : Thread) (i : BitVec 5) (v : Word) : (setX t i v).latchB = t.latchB := rfl
@[simp] theorem setX_g (t : Thread) (i : BitVec 5) (v : Word) : (setX t i v).g = t.g := rfl
@[simp] theorem setX_tb (t : Thread) (i : BitVec 5) (v : Word) : (setX t i v).tb = t.tb := rfl
@[simp] theorem setX_seg (t : Thread) (i : BitVec 5) (v : Word) : (setX t i v).seg = t.seg := rfl
@[simp] theorem setX_csr (t : Thread) (i : BitVec 5) (v : Word) : (setX t i v).csr = t.csr := rfl
@[simp] theorem setX_savedChain (t : Thread) (i : BitVec 5) (v : Word) : (setX t i v).savedChain = t.savedChain := rfl
@[simp] theorem setX_yielded (t : Thread) (i : BitVec 5) (v : Word) : (setX t i v).yielded = t.yielded := rfl
@[simp] theorem setX_lastIssue (t : Thread) (i : BitVec 5) (v : Word) : (setX t i v).lastIssue = t.lastIssue := rfl
@[simp] theorem setX_doubling (t : Thread) (i : BitVec 5) (v : Word) : (setX t i v).doubling = t.doubling := rfl
@[simp] theorem setX_soon (t : Thread) (i : BitVec 5) (v : Word) : (setX t i v).soon = t.soon := rfl
@[simp] theorem setX_event (t : Thread) (i : BitVec 5) (v : Word) : (setX t i v).event = t.event := rfl
@[simp] theorem setX_matq (t : Thread) (i : BitVec 5) (v : Word) : (setX t i v).matq = t.matq := rfl
@[simp] theorem setX_copyq (t : Thread) (i : BitVec 5) (v : Word) : (setX t i v).copyq = t.copyq := rfl
@[simp] theorem setX_copyScope (t : Thread) (i : BitVec 5) (v : Word) : (setX t i v).copyScope = t.copyScope := rfl
@[simp] theorem setX_drainScope (t : Thread) (i : BitVec 5) (v : Word) : (setX t i v).drainScope = t.drainScope := rfl
@[simp] theorem setX_msgLost (t : Thread) (i : BitVec 5) (v : Word) : (setX t i v).msgLost = t.msgLost := rfl
@[simp] theorem setX_timerTrap (t : Thread) (i : BitVec 5) (v : Word) : (setX t i v).timerTrap = t.timerTrap := rfl
@[simp] theorem setX_lost (t : Thread) (i : BitVec 5) (v : Word) : (setX t i v).lost = t.lost := rfl
@[simp] theorem setX_lostTask (t : Thread) (i : BitVec 5) (v : Word) : (setX t i v).lostTask = t.lostTask := rfl
@[simp] theorem setX_mailbox (t : Thread) (i : BitVec 5) (v : Word) : (setX t i v).mailbox = t.mailbox := rfl
@[simp] theorem setX_bounces (t : Thread) (i : BitVec 5) (v : Word) : (setX t i v).bounces = t.bounces := rfl
@[simp] theorem setX_refusal (t : Thread) (i : BitVec 5) (v : Word) : (setX t i v).refusal = t.refusal := rfl
@[simp] theorem setX_overflowed (t : Thread) (i : BitVec 5) (v : Word) : (setX t i v).overflowed = t.overflowed := rfl
@[simp] theorem setX_number (t : Thread) (i : BitVec 5) (v : Word) : (setX t i v).number = t.number := rfl
@[simp] theorem setX_inbox (t : Thread) (i : BitVec 5) (v : Word) : (setX t i v).inbox = t.inbox := rfl
@[simp] theorem setX_passing (t : Thread) (i : BitVec 5) (v : Word) : (setX t i v).passing = t.passing := rfl
@[simp] theorem setX_chainIn (t : Thread) (i : BitVec 5) (v : Word) : (setX t i v).chainIn = t.chainIn := rfl
@[simp] theorem setX_popped (t : Thread) (i : BitVec 5) (v : Word) : (setX t i v).popped = t.popped := rfl
@[simp] theorem setX_fetched (t : Thread) (i : BitVec 5) (v : Word) : (setX t i v).fetched = t.fetched := rfl
@[simp] theorem setX_up (t : Thread) (i : BitVec 5) (v : Word) : (setX t i v).up = t.up := rfl
@[simp] theorem setX_down (t : Thread) (i : BitVec 5) (v : Word) : (setX t i v).down = t.down := rfl
@[simp] theorem setX_parties (t : Thread) (i : BitVec 5) (v : Word) : (setX t i v).parties = t.parties := rfl
@[simp] theorem setX_unacked (t : Thread) (i : BitVec 5) (v : Word) : (setX t i v).unacked = t.unacked := rfl
@[simp] theorem setX_asyncWaits (t : Thread) (i : BitVec 5) (v : Word) : (setX t i v).asyncWaits = t.asyncWaits := rfl
@[simp] theorem setX_launch (t : Thread) (i : BitVec 5) (v : Word) : (setX t i v).launch = t.launch := rfl
@[simp] theorem setX_rank (t : Thread) (i : BitVec 5) (v : Word) : (setX t i v).rank = t.rank := rfl
@[simp] theorem setX_ltag (t : Thread) (i : BitVec 5) (v : Word) : (setX t i v).ltag = t.ltag := rfl
@[simp] theorem setX_taskBase (t : Thread) (i : BitVec 5) (v : Word) : (setX t i v).taskBase = t.taskBase := rfl
@[simp] theorem setX_taskRun (t : Thread) (i : BitVec 5) (v : Word) : (setX t i v).taskRun = t.taskRun := rfl
@[simp] theorem setX_held (t : Thread) (i : BitVec 5) (v : Word) : (setX t i v).held = t.held := rfl
@[simp] theorem setX_rev (t : Thread) (i : BitVec 5) (v : Word) : (setX t i v).rev = t.rev := rfl
@[simp] theorem setX_depth (t : Thread) (i : BitVec 5) (v : Word) : (setX t i v).depth = t.depth := rfl
@[simp] theorem setX_children (t : Thread) (i : BitVec 5) (v : Word) : (setX t i v).children = t.children := rfl
@[simp] theorem setX_joinMerged (t : Thread) (i : BitVec 5) (v : Word) : (setX t i v).joinMerged = t.joinMerged := rfl
@[simp] theorem setX_joinDropped (t : Thread) (i : BitVec 5) (v : Word) : (setX t i v).joinDropped = t.joinDropped := rfl
@[simp] theorem setX_window (t : Thread) (i : BitVec 5) (v : Word) : (setX t i v).window = t.window := rfl
@[simp] theorem setX_geo (t : Thread) (i : BitVec 5) (v : Word) : (setX t i v).geo = t.geo := rfl
@[simp] theorem setX_quad (t : Thread) (i : BitVec 5) (v : Word) : (setX t i v).quad = t.quad := rfl
@[simp] theorem setX_recorded (t : Thread) (i : BitVec 5) (v : Word) : (setX t i v).recorded = t.recorded := rfl
@[simp] theorem setX_handler (t : Thread) (i : BitVec 5) (v : Word) : (setX t i v).handler = t.handler := rfl
@[simp] theorem setX_issues (t : Thread) (i : BitVec 5) (v : Word) : (setX t i v).issues = t.issues := rfl
@[simp] theorem setX_current (t : Thread) (i : BitVec 5) (v : Word) : (setX t i v).current = t.current := rfl

@[simp] theorem setV_phase (t : Thread) (i : BitVec 5) (v : VReg) : (setV t i v).phase = t.phase := rfl
@[simp] theorem setV_parkedFrom (t : Thread) (i : BitVec 5) (v : VReg) : (setV t i v).parkedFrom = t.parkedFrom := rfl
@[simp] theorem setV_haltedFrom (t : Thread) (i : BitVec 5) (v : VReg) : (setV t i v).haltedFrom = t.haltedFrom := rfl
@[simp] theorem setV_wait (t : Thread) (i : BitVec 5) (v : VReg) : (setV t i v).wait = t.wait := rfl
@[simp] theorem setV_parkLen (t : Thread) (i : BitVec 5) (v : VReg) : (setV t i v).parkLen = t.parkLen := rfl
@[simp] theorem setV_retiring (t : Thread) (i : BitVec 5) (v : VReg) : (setV t i v).retiring = t.retiring := rfl
@[simp] theorem setV_pc (t : Thread) (i : BitVec 5) (v : VReg) : (setV t i v).pc = t.pc := rfl
@[simp] theorem setV_x (t : Thread) (i : BitVec 5) (v : VReg) : (setV t i v).x = t.x := rfl
@[simp] theorem setV_acc (t : Thread) (i : BitVec 5) (v : VReg) : (setV t i v).acc = t.acc := rfl
@[simp] theorem setV_latchA (t : Thread) (i : BitVec 5) (v : VReg) : (setV t i v).latchA = t.latchA := rfl
@[simp] theorem setV_latchB (t : Thread) (i : BitVec 5) (v : VReg) : (setV t i v).latchB = t.latchB := rfl
@[simp] theorem setV_g (t : Thread) (i : BitVec 5) (v : VReg) : (setV t i v).g = t.g := rfl
@[simp] theorem setV_tb (t : Thread) (i : BitVec 5) (v : VReg) : (setV t i v).tb = t.tb := rfl
@[simp] theorem setV_seg (t : Thread) (i : BitVec 5) (v : VReg) : (setV t i v).seg = t.seg := rfl
@[simp] theorem setV_csr (t : Thread) (i : BitVec 5) (v : VReg) : (setV t i v).csr = t.csr := rfl
@[simp] theorem setV_savedChain (t : Thread) (i : BitVec 5) (v : VReg) : (setV t i v).savedChain = t.savedChain := rfl
@[simp] theorem setV_yielded (t : Thread) (i : BitVec 5) (v : VReg) : (setV t i v).yielded = t.yielded := rfl
@[simp] theorem setV_lastIssue (t : Thread) (i : BitVec 5) (v : VReg) : (setV t i v).lastIssue = t.lastIssue := rfl
@[simp] theorem setV_doubling (t : Thread) (i : BitVec 5) (v : VReg) : (setV t i v).doubling = t.doubling := rfl
@[simp] theorem setV_soon (t : Thread) (i : BitVec 5) (v : VReg) : (setV t i v).soon = t.soon := rfl
@[simp] theorem setV_event (t : Thread) (i : BitVec 5) (v : VReg) : (setV t i v).event = t.event := rfl
@[simp] theorem setV_matq (t : Thread) (i : BitVec 5) (v : VReg) : (setV t i v).matq = t.matq := rfl
@[simp] theorem setV_copyq (t : Thread) (i : BitVec 5) (v : VReg) : (setV t i v).copyq = t.copyq := rfl
@[simp] theorem setV_copyScope (t : Thread) (i : BitVec 5) (v : VReg) : (setV t i v).copyScope = t.copyScope := rfl
@[simp] theorem setV_drainScope (t : Thread) (i : BitVec 5) (v : VReg) : (setV t i v).drainScope = t.drainScope := rfl
@[simp] theorem setV_msgLost (t : Thread) (i : BitVec 5) (v : VReg) : (setV t i v).msgLost = t.msgLost := rfl
@[simp] theorem setV_timerTrap (t : Thread) (i : BitVec 5) (v : VReg) : (setV t i v).timerTrap = t.timerTrap := rfl
@[simp] theorem setV_lost (t : Thread) (i : BitVec 5) (v : VReg) : (setV t i v).lost = t.lost := rfl
@[simp] theorem setV_lostTask (t : Thread) (i : BitVec 5) (v : VReg) : (setV t i v).lostTask = t.lostTask := rfl
@[simp] theorem setV_mailbox (t : Thread) (i : BitVec 5) (v : VReg) : (setV t i v).mailbox = t.mailbox := rfl
@[simp] theorem setV_bounces (t : Thread) (i : BitVec 5) (v : VReg) : (setV t i v).bounces = t.bounces := rfl
@[simp] theorem setV_refusal (t : Thread) (i : BitVec 5) (v : VReg) : (setV t i v).refusal = t.refusal := rfl
@[simp] theorem setV_overflowed (t : Thread) (i : BitVec 5) (v : VReg) : (setV t i v).overflowed = t.overflowed := rfl
@[simp] theorem setV_number (t : Thread) (i : BitVec 5) (v : VReg) : (setV t i v).number = t.number := rfl
@[simp] theorem setV_inbox (t : Thread) (i : BitVec 5) (v : VReg) : (setV t i v).inbox = t.inbox := rfl
@[simp] theorem setV_passing (t : Thread) (i : BitVec 5) (v : VReg) : (setV t i v).passing = t.passing := rfl
@[simp] theorem setV_chainIn (t : Thread) (i : BitVec 5) (v : VReg) : (setV t i v).chainIn = t.chainIn := rfl
@[simp] theorem setV_popped (t : Thread) (i : BitVec 5) (v : VReg) : (setV t i v).popped = t.popped := rfl
@[simp] theorem setV_fetched (t : Thread) (i : BitVec 5) (v : VReg) : (setV t i v).fetched = t.fetched := rfl
@[simp] theorem setV_up (t : Thread) (i : BitVec 5) (v : VReg) : (setV t i v).up = t.up := rfl
@[simp] theorem setV_down (t : Thread) (i : BitVec 5) (v : VReg) : (setV t i v).down = t.down := rfl
@[simp] theorem setV_parties (t : Thread) (i : BitVec 5) (v : VReg) : (setV t i v).parties = t.parties := rfl
@[simp] theorem setV_unacked (t : Thread) (i : BitVec 5) (v : VReg) : (setV t i v).unacked = t.unacked := rfl
@[simp] theorem setV_asyncWaits (t : Thread) (i : BitVec 5) (v : VReg) : (setV t i v).asyncWaits = t.asyncWaits := rfl
@[simp] theorem setV_launch (t : Thread) (i : BitVec 5) (v : VReg) : (setV t i v).launch = t.launch := rfl
@[simp] theorem setV_rank (t : Thread) (i : BitVec 5) (v : VReg) : (setV t i v).rank = t.rank := rfl
@[simp] theorem setV_ltag (t : Thread) (i : BitVec 5) (v : VReg) : (setV t i v).ltag = t.ltag := rfl
@[simp] theorem setV_taskBase (t : Thread) (i : BitVec 5) (v : VReg) : (setV t i v).taskBase = t.taskBase := rfl
@[simp] theorem setV_taskRun (t : Thread) (i : BitVec 5) (v : VReg) : (setV t i v).taskRun = t.taskRun := rfl
@[simp] theorem setV_held (t : Thread) (i : BitVec 5) (v : VReg) : (setV t i v).held = t.held := rfl
@[simp] theorem setV_rev (t : Thread) (i : BitVec 5) (v : VReg) : (setV t i v).rev = t.rev := rfl
@[simp] theorem setV_depth (t : Thread) (i : BitVec 5) (v : VReg) : (setV t i v).depth = t.depth := rfl
@[simp] theorem setV_children (t : Thread) (i : BitVec 5) (v : VReg) : (setV t i v).children = t.children := rfl
@[simp] theorem setV_joinMerged (t : Thread) (i : BitVec 5) (v : VReg) : (setV t i v).joinMerged = t.joinMerged := rfl
@[simp] theorem setV_joinDropped (t : Thread) (i : BitVec 5) (v : VReg) : (setV t i v).joinDropped = t.joinDropped := rfl
@[simp] theorem setV_window (t : Thread) (i : BitVec 5) (v : VReg) : (setV t i v).window = t.window := rfl
@[simp] theorem setV_geo (t : Thread) (i : BitVec 5) (v : VReg) : (setV t i v).geo = t.geo := rfl
@[simp] theorem setV_quad (t : Thread) (i : BitVec 5) (v : VReg) : (setV t i v).quad = t.quad := rfl
@[simp] theorem setV_recorded (t : Thread) (i : BitVec 5) (v : VReg) : (setV t i v).recorded = t.recorded := rfl
@[simp] theorem setV_handler (t : Thread) (i : BitVec 5) (v : VReg) : (setV t i v).handler = t.handler := rfl
@[simp] theorem setV_issues (t : Thread) (i : BitVec 5) (v : VReg) : (setV t i v).issues = t.issues := rfl
@[simp] theorem setV_current (t : Thread) (i : BitVec 5) (v : VReg) : (setV t i v).current = t.current := rfl

@[simp] theorem setTb_phase (t : Thread) (i : BitVec 2) (v : Word) : (setTb t i v).phase = t.phase := rfl
@[simp] theorem setTb_parkedFrom (t : Thread) (i : BitVec 2) (v : Word) : (setTb t i v).parkedFrom = t.parkedFrom := rfl
@[simp] theorem setTb_haltedFrom (t : Thread) (i : BitVec 2) (v : Word) : (setTb t i v).haltedFrom = t.haltedFrom := rfl
@[simp] theorem setTb_wait (t : Thread) (i : BitVec 2) (v : Word) : (setTb t i v).wait = t.wait := rfl
@[simp] theorem setTb_parkLen (t : Thread) (i : BitVec 2) (v : Word) : (setTb t i v).parkLen = t.parkLen := rfl
@[simp] theorem setTb_retiring (t : Thread) (i : BitVec 2) (v : Word) : (setTb t i v).retiring = t.retiring := rfl
@[simp] theorem setTb_pc (t : Thread) (i : BitVec 2) (v : Word) : (setTb t i v).pc = t.pc := rfl
@[simp] theorem setTb_x (t : Thread) (i : BitVec 2) (v : Word) : (setTb t i v).x = t.x := rfl
@[simp] theorem setTb_v (t : Thread) (i : BitVec 2) (v : Word) : (setTb t i v).v = t.v := rfl
@[simp] theorem setTb_acc (t : Thread) (i : BitVec 2) (v : Word) : (setTb t i v).acc = t.acc := rfl
@[simp] theorem setTb_latchA (t : Thread) (i : BitVec 2) (v : Word) : (setTb t i v).latchA = t.latchA := rfl
@[simp] theorem setTb_latchB (t : Thread) (i : BitVec 2) (v : Word) : (setTb t i v).latchB = t.latchB := rfl
@[simp] theorem setTb_g (t : Thread) (i : BitVec 2) (v : Word) : (setTb t i v).g = t.g := rfl
@[simp] theorem setTb_seg (t : Thread) (i : BitVec 2) (v : Word) : (setTb t i v).seg = t.seg := rfl
@[simp] theorem setTb_csr (t : Thread) (i : BitVec 2) (v : Word) : (setTb t i v).csr = t.csr := rfl
@[simp] theorem setTb_savedChain (t : Thread) (i : BitVec 2) (v : Word) : (setTb t i v).savedChain = t.savedChain := rfl
@[simp] theorem setTb_yielded (t : Thread) (i : BitVec 2) (v : Word) : (setTb t i v).yielded = t.yielded := rfl
@[simp] theorem setTb_lastIssue (t : Thread) (i : BitVec 2) (v : Word) : (setTb t i v).lastIssue = t.lastIssue := rfl
@[simp] theorem setTb_doubling (t : Thread) (i : BitVec 2) (v : Word) : (setTb t i v).doubling = t.doubling := rfl
@[simp] theorem setTb_soon (t : Thread) (i : BitVec 2) (v : Word) : (setTb t i v).soon = t.soon := rfl
@[simp] theorem setTb_event (t : Thread) (i : BitVec 2) (v : Word) : (setTb t i v).event = t.event := rfl
@[simp] theorem setTb_matq (t : Thread) (i : BitVec 2) (v : Word) : (setTb t i v).matq = t.matq := rfl
@[simp] theorem setTb_copyq (t : Thread) (i : BitVec 2) (v : Word) : (setTb t i v).copyq = t.copyq := rfl
@[simp] theorem setTb_copyScope (t : Thread) (i : BitVec 2) (v : Word) : (setTb t i v).copyScope = t.copyScope := rfl
@[simp] theorem setTb_drainScope (t : Thread) (i : BitVec 2) (v : Word) : (setTb t i v).drainScope = t.drainScope := rfl
@[simp] theorem setTb_msgLost (t : Thread) (i : BitVec 2) (v : Word) : (setTb t i v).msgLost = t.msgLost := rfl
@[simp] theorem setTb_timerTrap (t : Thread) (i : BitVec 2) (v : Word) : (setTb t i v).timerTrap = t.timerTrap := rfl
@[simp] theorem setTb_lost (t : Thread) (i : BitVec 2) (v : Word) : (setTb t i v).lost = t.lost := rfl
@[simp] theorem setTb_lostTask (t : Thread) (i : BitVec 2) (v : Word) : (setTb t i v).lostTask = t.lostTask := rfl
@[simp] theorem setTb_mailbox (t : Thread) (i : BitVec 2) (v : Word) : (setTb t i v).mailbox = t.mailbox := rfl
@[simp] theorem setTb_bounces (t : Thread) (i : BitVec 2) (v : Word) : (setTb t i v).bounces = t.bounces := rfl
@[simp] theorem setTb_refusal (t : Thread) (i : BitVec 2) (v : Word) : (setTb t i v).refusal = t.refusal := rfl
@[simp] theorem setTb_overflowed (t : Thread) (i : BitVec 2) (v : Word) : (setTb t i v).overflowed = t.overflowed := rfl
@[simp] theorem setTb_number (t : Thread) (i : BitVec 2) (v : Word) : (setTb t i v).number = t.number := rfl
@[simp] theorem setTb_inbox (t : Thread) (i : BitVec 2) (v : Word) : (setTb t i v).inbox = t.inbox := rfl
@[simp] theorem setTb_passing (t : Thread) (i : BitVec 2) (v : Word) : (setTb t i v).passing = t.passing := rfl
@[simp] theorem setTb_chainIn (t : Thread) (i : BitVec 2) (v : Word) : (setTb t i v).chainIn = t.chainIn := rfl
@[simp] theorem setTb_popped (t : Thread) (i : BitVec 2) (v : Word) : (setTb t i v).popped = t.popped := rfl
@[simp] theorem setTb_fetched (t : Thread) (i : BitVec 2) (v : Word) : (setTb t i v).fetched = t.fetched := rfl
@[simp] theorem setTb_up (t : Thread) (i : BitVec 2) (v : Word) : (setTb t i v).up = t.up := rfl
@[simp] theorem setTb_down (t : Thread) (i : BitVec 2) (v : Word) : (setTb t i v).down = t.down := rfl
@[simp] theorem setTb_parties (t : Thread) (i : BitVec 2) (v : Word) : (setTb t i v).parties = t.parties := rfl
@[simp] theorem setTb_unacked (t : Thread) (i : BitVec 2) (v : Word) : (setTb t i v).unacked = t.unacked := rfl
@[simp] theorem setTb_asyncWaits (t : Thread) (i : BitVec 2) (v : Word) : (setTb t i v).asyncWaits = t.asyncWaits := rfl
@[simp] theorem setTb_launch (t : Thread) (i : BitVec 2) (v : Word) : (setTb t i v).launch = t.launch := rfl
@[simp] theorem setTb_rank (t : Thread) (i : BitVec 2) (v : Word) : (setTb t i v).rank = t.rank := rfl
@[simp] theorem setTb_ltag (t : Thread) (i : BitVec 2) (v : Word) : (setTb t i v).ltag = t.ltag := rfl
@[simp] theorem setTb_taskBase (t : Thread) (i : BitVec 2) (v : Word) : (setTb t i v).taskBase = t.taskBase := rfl
@[simp] theorem setTb_taskRun (t : Thread) (i : BitVec 2) (v : Word) : (setTb t i v).taskRun = t.taskRun := rfl
@[simp] theorem setTb_held (t : Thread) (i : BitVec 2) (v : Word) : (setTb t i v).held = t.held := rfl
@[simp] theorem setTb_rev (t : Thread) (i : BitVec 2) (v : Word) : (setTb t i v).rev = t.rev := rfl
@[simp] theorem setTb_depth (t : Thread) (i : BitVec 2) (v : Word) : (setTb t i v).depth = t.depth := rfl
@[simp] theorem setTb_children (t : Thread) (i : BitVec 2) (v : Word) : (setTb t i v).children = t.children := rfl
@[simp] theorem setTb_joinMerged (t : Thread) (i : BitVec 2) (v : Word) : (setTb t i v).joinMerged = t.joinMerged := rfl
@[simp] theorem setTb_joinDropped (t : Thread) (i : BitVec 2) (v : Word) : (setTb t i v).joinDropped = t.joinDropped := rfl
@[simp] theorem setTb_window (t : Thread) (i : BitVec 2) (v : Word) : (setTb t i v).window = t.window := rfl
@[simp] theorem setTb_geo (t : Thread) (i : BitVec 2) (v : Word) : (setTb t i v).geo = t.geo := rfl
@[simp] theorem setTb_quad (t : Thread) (i : BitVec 2) (v : Word) : (setTb t i v).quad = t.quad := rfl
@[simp] theorem setTb_recorded (t : Thread) (i : BitVec 2) (v : Word) : (setTb t i v).recorded = t.recorded := rfl
@[simp] theorem setTb_handler (t : Thread) (i : BitVec 2) (v : Word) : (setTb t i v).handler = t.handler := rfl
@[simp] theorem setTb_issues (t : Thread) (i : BitVec 2) (v : Word) : (setTb t i v).issues = t.issues := rfl
@[simp] theorem setTb_current (t : Thread) (i : BitVec 2) (v : Word) : (setTb t i v).current = t.current := rfl

@[simp] theorem setSeg_phase (t : Thread) (i : BitVec 3) (v : SegWord) : (setSeg t i v).phase = t.phase := rfl
@[simp] theorem setSeg_parkedFrom (t : Thread) (i : BitVec 3) (v : SegWord) : (setSeg t i v).parkedFrom = t.parkedFrom := rfl
@[simp] theorem setSeg_haltedFrom (t : Thread) (i : BitVec 3) (v : SegWord) : (setSeg t i v).haltedFrom = t.haltedFrom := rfl
@[simp] theorem setSeg_wait (t : Thread) (i : BitVec 3) (v : SegWord) : (setSeg t i v).wait = t.wait := rfl
@[simp] theorem setSeg_parkLen (t : Thread) (i : BitVec 3) (v : SegWord) : (setSeg t i v).parkLen = t.parkLen := rfl
@[simp] theorem setSeg_retiring (t : Thread) (i : BitVec 3) (v : SegWord) : (setSeg t i v).retiring = t.retiring := rfl
@[simp] theorem setSeg_pc (t : Thread) (i : BitVec 3) (v : SegWord) : (setSeg t i v).pc = t.pc := rfl
@[simp] theorem setSeg_x (t : Thread) (i : BitVec 3) (v : SegWord) : (setSeg t i v).x = t.x := rfl
@[simp] theorem setSeg_v (t : Thread) (i : BitVec 3) (v : SegWord) : (setSeg t i v).v = t.v := rfl
@[simp] theorem setSeg_acc (t : Thread) (i : BitVec 3) (v : SegWord) : (setSeg t i v).acc = t.acc := rfl
@[simp] theorem setSeg_latchA (t : Thread) (i : BitVec 3) (v : SegWord) : (setSeg t i v).latchA = t.latchA := rfl
@[simp] theorem setSeg_latchB (t : Thread) (i : BitVec 3) (v : SegWord) : (setSeg t i v).latchB = t.latchB := rfl
@[simp] theorem setSeg_g (t : Thread) (i : BitVec 3) (v : SegWord) : (setSeg t i v).g = t.g := rfl
@[simp] theorem setSeg_tb (t : Thread) (i : BitVec 3) (v : SegWord) : (setSeg t i v).tb = t.tb := rfl
@[simp] theorem setSeg_csr (t : Thread) (i : BitVec 3) (v : SegWord) : (setSeg t i v).csr = t.csr := rfl
@[simp] theorem setSeg_savedChain (t : Thread) (i : BitVec 3) (v : SegWord) : (setSeg t i v).savedChain = t.savedChain := rfl
@[simp] theorem setSeg_yielded (t : Thread) (i : BitVec 3) (v : SegWord) : (setSeg t i v).yielded = t.yielded := rfl
@[simp] theorem setSeg_lastIssue (t : Thread) (i : BitVec 3) (v : SegWord) : (setSeg t i v).lastIssue = t.lastIssue := rfl
@[simp] theorem setSeg_doubling (t : Thread) (i : BitVec 3) (v : SegWord) : (setSeg t i v).doubling = t.doubling := rfl
@[simp] theorem setSeg_soon (t : Thread) (i : BitVec 3) (v : SegWord) : (setSeg t i v).soon = t.soon := rfl
@[simp] theorem setSeg_event (t : Thread) (i : BitVec 3) (v : SegWord) : (setSeg t i v).event = t.event := rfl
@[simp] theorem setSeg_matq (t : Thread) (i : BitVec 3) (v : SegWord) : (setSeg t i v).matq = t.matq := rfl
@[simp] theorem setSeg_copyq (t : Thread) (i : BitVec 3) (v : SegWord) : (setSeg t i v).copyq = t.copyq := rfl
@[simp] theorem setSeg_copyScope (t : Thread) (i : BitVec 3) (v : SegWord) : (setSeg t i v).copyScope = t.copyScope := rfl
@[simp] theorem setSeg_drainScope (t : Thread) (i : BitVec 3) (v : SegWord) : (setSeg t i v).drainScope = t.drainScope := rfl
@[simp] theorem setSeg_msgLost (t : Thread) (i : BitVec 3) (v : SegWord) : (setSeg t i v).msgLost = t.msgLost := rfl
@[simp] theorem setSeg_timerTrap (t : Thread) (i : BitVec 3) (v : SegWord) : (setSeg t i v).timerTrap = t.timerTrap := rfl
@[simp] theorem setSeg_lost (t : Thread) (i : BitVec 3) (v : SegWord) : (setSeg t i v).lost = t.lost := rfl
@[simp] theorem setSeg_lostTask (t : Thread) (i : BitVec 3) (v : SegWord) : (setSeg t i v).lostTask = t.lostTask := rfl
@[simp] theorem setSeg_mailbox (t : Thread) (i : BitVec 3) (v : SegWord) : (setSeg t i v).mailbox = t.mailbox := rfl
@[simp] theorem setSeg_bounces (t : Thread) (i : BitVec 3) (v : SegWord) : (setSeg t i v).bounces = t.bounces := rfl
@[simp] theorem setSeg_refusal (t : Thread) (i : BitVec 3) (v : SegWord) : (setSeg t i v).refusal = t.refusal := rfl
@[simp] theorem setSeg_overflowed (t : Thread) (i : BitVec 3) (v : SegWord) : (setSeg t i v).overflowed = t.overflowed := rfl
@[simp] theorem setSeg_number (t : Thread) (i : BitVec 3) (v : SegWord) : (setSeg t i v).number = t.number := rfl
@[simp] theorem setSeg_inbox (t : Thread) (i : BitVec 3) (v : SegWord) : (setSeg t i v).inbox = t.inbox := rfl
@[simp] theorem setSeg_passing (t : Thread) (i : BitVec 3) (v : SegWord) : (setSeg t i v).passing = t.passing := rfl
@[simp] theorem setSeg_chainIn (t : Thread) (i : BitVec 3) (v : SegWord) : (setSeg t i v).chainIn = t.chainIn := rfl
@[simp] theorem setSeg_popped (t : Thread) (i : BitVec 3) (v : SegWord) : (setSeg t i v).popped = t.popped := rfl
@[simp] theorem setSeg_fetched (t : Thread) (i : BitVec 3) (v : SegWord) : (setSeg t i v).fetched = t.fetched := rfl
@[simp] theorem setSeg_up (t : Thread) (i : BitVec 3) (v : SegWord) : (setSeg t i v).up = t.up := rfl
@[simp] theorem setSeg_down (t : Thread) (i : BitVec 3) (v : SegWord) : (setSeg t i v).down = t.down := rfl
@[simp] theorem setSeg_parties (t : Thread) (i : BitVec 3) (v : SegWord) : (setSeg t i v).parties = t.parties := rfl
@[simp] theorem setSeg_unacked (t : Thread) (i : BitVec 3) (v : SegWord) : (setSeg t i v).unacked = t.unacked := rfl
@[simp] theorem setSeg_asyncWaits (t : Thread) (i : BitVec 3) (v : SegWord) : (setSeg t i v).asyncWaits = t.asyncWaits := rfl
@[simp] theorem setSeg_launch (t : Thread) (i : BitVec 3) (v : SegWord) : (setSeg t i v).launch = t.launch := rfl
@[simp] theorem setSeg_rank (t : Thread) (i : BitVec 3) (v : SegWord) : (setSeg t i v).rank = t.rank := rfl
@[simp] theorem setSeg_ltag (t : Thread) (i : BitVec 3) (v : SegWord) : (setSeg t i v).ltag = t.ltag := rfl
@[simp] theorem setSeg_taskBase (t : Thread) (i : BitVec 3) (v : SegWord) : (setSeg t i v).taskBase = t.taskBase := rfl
@[simp] theorem setSeg_taskRun (t : Thread) (i : BitVec 3) (v : SegWord) : (setSeg t i v).taskRun = t.taskRun := rfl
@[simp] theorem setSeg_held (t : Thread) (i : BitVec 3) (v : SegWord) : (setSeg t i v).held = t.held := rfl
@[simp] theorem setSeg_rev (t : Thread) (i : BitVec 3) (v : SegWord) : (setSeg t i v).rev = t.rev := rfl
@[simp] theorem setSeg_depth (t : Thread) (i : BitVec 3) (v : SegWord) : (setSeg t i v).depth = t.depth := rfl
@[simp] theorem setSeg_children (t : Thread) (i : BitVec 3) (v : SegWord) : (setSeg t i v).children = t.children := rfl
@[simp] theorem setSeg_joinMerged (t : Thread) (i : BitVec 3) (v : SegWord) : (setSeg t i v).joinMerged = t.joinMerged := rfl
@[simp] theorem setSeg_joinDropped (t : Thread) (i : BitVec 3) (v : SegWord) : (setSeg t i v).joinDropped = t.joinDropped := rfl
@[simp] theorem setSeg_window (t : Thread) (i : BitVec 3) (v : SegWord) : (setSeg t i v).window = t.window := rfl
@[simp] theorem setSeg_geo (t : Thread) (i : BitVec 3) (v : SegWord) : (setSeg t i v).geo = t.geo := rfl
@[simp] theorem setSeg_quad (t : Thread) (i : BitVec 3) (v : SegWord) : (setSeg t i v).quad = t.quad := rfl
@[simp] theorem setSeg_recorded (t : Thread) (i : BitVec 3) (v : SegWord) : (setSeg t i v).recorded = t.recorded := rfl
@[simp] theorem setSeg_handler (t : Thread) (i : BitVec 3) (v : SegWord) : (setSeg t i v).handler = t.handler := rfl
@[simp] theorem setSeg_issues (t : Thread) (i : BitVec 3) (v : SegWord) : (setSeg t i v).issues = t.issues := rfl
@[simp] theorem setSeg_current (t : Thread) (i : BitVec 3) (v : SegWord) : (setSeg t i v).current = t.current := rfl

@[simp] theorem takeDraws_phase (t : Thread) (n : Nat) : (takeDraws t n).phase = t.phase := rfl
@[simp] theorem takeDraws_parkedFrom (t : Thread) (n : Nat) : (takeDraws t n).parkedFrom = t.parkedFrom := rfl
@[simp] theorem takeDraws_haltedFrom (t : Thread) (n : Nat) : (takeDraws t n).haltedFrom = t.haltedFrom := rfl
@[simp] theorem takeDraws_wait (t : Thread) (n : Nat) : (takeDraws t n).wait = t.wait := rfl
@[simp] theorem takeDraws_parkLen (t : Thread) (n : Nat) : (takeDraws t n).parkLen = t.parkLen := rfl
@[simp] theorem takeDraws_retiring (t : Thread) (n : Nat) : (takeDraws t n).retiring = t.retiring := rfl
@[simp] theorem takeDraws_pc (t : Thread) (n : Nat) : (takeDraws t n).pc = t.pc := rfl
@[simp] theorem takeDraws_x (t : Thread) (n : Nat) : (takeDraws t n).x = t.x := rfl
@[simp] theorem takeDraws_v (t : Thread) (n : Nat) : (takeDraws t n).v = t.v := rfl
@[simp] theorem takeDraws_acc (t : Thread) (n : Nat) : (takeDraws t n).acc = t.acc := rfl
@[simp] theorem takeDraws_latchA (t : Thread) (n : Nat) : (takeDraws t n).latchA = t.latchA := rfl
@[simp] theorem takeDraws_latchB (t : Thread) (n : Nat) : (takeDraws t n).latchB = t.latchB := rfl
@[simp] theorem takeDraws_g (t : Thread) (n : Nat) : (takeDraws t n).g = t.g := rfl
@[simp] theorem takeDraws_tb (t : Thread) (n : Nat) : (takeDraws t n).tb = t.tb := rfl
@[simp] theorem takeDraws_seg (t : Thread) (n : Nat) : (takeDraws t n).seg = t.seg := rfl
@[simp] theorem takeDraws_savedChain (t : Thread) (n : Nat) : (takeDraws t n).savedChain = t.savedChain := rfl
@[simp] theorem takeDraws_yielded (t : Thread) (n : Nat) : (takeDraws t n).yielded = t.yielded := rfl
@[simp] theorem takeDraws_lastIssue (t : Thread) (n : Nat) : (takeDraws t n).lastIssue = t.lastIssue := rfl
@[simp] theorem takeDraws_doubling (t : Thread) (n : Nat) : (takeDraws t n).doubling = t.doubling := rfl
@[simp] theorem takeDraws_soon (t : Thread) (n : Nat) : (takeDraws t n).soon = t.soon := rfl
@[simp] theorem takeDraws_event (t : Thread) (n : Nat) : (takeDraws t n).event = t.event := rfl
@[simp] theorem takeDraws_matq (t : Thread) (n : Nat) : (takeDraws t n).matq = t.matq := rfl
@[simp] theorem takeDraws_copyq (t : Thread) (n : Nat) : (takeDraws t n).copyq = t.copyq := rfl
@[simp] theorem takeDraws_copyScope (t : Thread) (n : Nat) : (takeDraws t n).copyScope = t.copyScope := rfl
@[simp] theorem takeDraws_drainScope (t : Thread) (n : Nat) : (takeDraws t n).drainScope = t.drainScope := rfl
@[simp] theorem takeDraws_msgLost (t : Thread) (n : Nat) : (takeDraws t n).msgLost = t.msgLost := rfl
@[simp] theorem takeDraws_timerTrap (t : Thread) (n : Nat) : (takeDraws t n).timerTrap = t.timerTrap := rfl
@[simp] theorem takeDraws_lost (t : Thread) (n : Nat) : (takeDraws t n).lost = t.lost := rfl
@[simp] theorem takeDraws_lostTask (t : Thread) (n : Nat) : (takeDraws t n).lostTask = t.lostTask := rfl
@[simp] theorem takeDraws_mailbox (t : Thread) (n : Nat) : (takeDraws t n).mailbox = t.mailbox := rfl
@[simp] theorem takeDraws_bounces (t : Thread) (n : Nat) : (takeDraws t n).bounces = t.bounces := rfl
@[simp] theorem takeDraws_refusal (t : Thread) (n : Nat) : (takeDraws t n).refusal = t.refusal := rfl
@[simp] theorem takeDraws_overflowed (t : Thread) (n : Nat) : (takeDraws t n).overflowed = t.overflowed := rfl
@[simp] theorem takeDraws_number (t : Thread) (n : Nat) : (takeDraws t n).number = t.number := rfl
@[simp] theorem takeDraws_inbox (t : Thread) (n : Nat) : (takeDraws t n).inbox = t.inbox := rfl
@[simp] theorem takeDraws_passing (t : Thread) (n : Nat) : (takeDraws t n).passing = t.passing := rfl
@[simp] theorem takeDraws_chainIn (t : Thread) (n : Nat) : (takeDraws t n).chainIn = t.chainIn := rfl
@[simp] theorem takeDraws_popped (t : Thread) (n : Nat) : (takeDraws t n).popped = t.popped := rfl
@[simp] theorem takeDraws_fetched (t : Thread) (n : Nat) : (takeDraws t n).fetched = t.fetched := rfl
@[simp] theorem takeDraws_up (t : Thread) (n : Nat) : (takeDraws t n).up = t.up := rfl
@[simp] theorem takeDraws_down (t : Thread) (n : Nat) : (takeDraws t n).down = t.down := rfl
@[simp] theorem takeDraws_parties (t : Thread) (n : Nat) : (takeDraws t n).parties = t.parties := rfl
@[simp] theorem takeDraws_unacked (t : Thread) (n : Nat) : (takeDraws t n).unacked = t.unacked := rfl
@[simp] theorem takeDraws_asyncWaits (t : Thread) (n : Nat) : (takeDraws t n).asyncWaits = t.asyncWaits := rfl
@[simp] theorem takeDraws_launch (t : Thread) (n : Nat) : (takeDraws t n).launch = t.launch := rfl
@[simp] theorem takeDraws_rank (t : Thread) (n : Nat) : (takeDraws t n).rank = t.rank := rfl
@[simp] theorem takeDraws_ltag (t : Thread) (n : Nat) : (takeDraws t n).ltag = t.ltag := rfl
@[simp] theorem takeDraws_taskBase (t : Thread) (n : Nat) : (takeDraws t n).taskBase = t.taskBase := rfl
@[simp] theorem takeDraws_taskRun (t : Thread) (n : Nat) : (takeDraws t n).taskRun = t.taskRun := rfl
@[simp] theorem takeDraws_held (t : Thread) (n : Nat) : (takeDraws t n).held = t.held := rfl
@[simp] theorem takeDraws_rev (t : Thread) (n : Nat) : (takeDraws t n).rev = t.rev := rfl
@[simp] theorem takeDraws_depth (t : Thread) (n : Nat) : (takeDraws t n).depth = t.depth := rfl
@[simp] theorem takeDraws_children (t : Thread) (n : Nat) : (takeDraws t n).children = t.children := rfl
@[simp] theorem takeDraws_joinMerged (t : Thread) (n : Nat) : (takeDraws t n).joinMerged = t.joinMerged := rfl
@[simp] theorem takeDraws_joinDropped (t : Thread) (n : Nat) : (takeDraws t n).joinDropped = t.joinDropped := rfl
@[simp] theorem takeDraws_window (t : Thread) (n : Nat) : (takeDraws t n).window = t.window := rfl
@[simp] theorem takeDraws_geo (t : Thread) (n : Nat) : (takeDraws t n).geo = t.geo := rfl
@[simp] theorem takeDraws_quad (t : Thread) (n : Nat) : (takeDraws t n).quad = t.quad := rfl
@[simp] theorem takeDraws_recorded (t : Thread) (n : Nat) : (takeDraws t n).recorded = t.recorded := rfl
@[simp] theorem takeDraws_handler (t : Thread) (n : Nat) : (takeDraws t n).handler = t.handler := rfl
@[simp] theorem takeDraws_issues (t : Thread) (n : Nat) : (takeDraws t n).issues = t.issues := rfl
@[simp] theorem takeDraws_current (t : Thread) (n : Nat) : (takeDraws t n).current = t.current := rfl

@[simp] theorem putG_phase (t : Thread) (i : BitVec 3) (g : Guard) : (putG t i g).phase = t.phase := by unfold putG; split <;> rfl
@[simp] theorem putG_parkedFrom (t : Thread) (i : BitVec 3) (g : Guard) : (putG t i g).parkedFrom = t.parkedFrom := by unfold putG; split <;> rfl
@[simp] theorem putG_haltedFrom (t : Thread) (i : BitVec 3) (g : Guard) : (putG t i g).haltedFrom = t.haltedFrom := by unfold putG; split <;> rfl
@[simp] theorem putG_wait (t : Thread) (i : BitVec 3) (g : Guard) : (putG t i g).wait = t.wait := by unfold putG; split <;> rfl
@[simp] theorem putG_parkLen (t : Thread) (i : BitVec 3) (g : Guard) : (putG t i g).parkLen = t.parkLen := by unfold putG; split <;> rfl
@[simp] theorem putG_retiring (t : Thread) (i : BitVec 3) (g : Guard) : (putG t i g).retiring = t.retiring := by unfold putG; split <;> rfl
@[simp] theorem putG_pc (t : Thread) (i : BitVec 3) (g : Guard) : (putG t i g).pc = t.pc := by unfold putG; split <;> rfl
@[simp] theorem putG_x (t : Thread) (i : BitVec 3) (g : Guard) : (putG t i g).x = t.x := by unfold putG; split <;> rfl
@[simp] theorem putG_v (t : Thread) (i : BitVec 3) (g : Guard) : (putG t i g).v = t.v := by unfold putG; split <;> rfl
@[simp] theorem putG_acc (t : Thread) (i : BitVec 3) (g : Guard) : (putG t i g).acc = t.acc := by unfold putG; split <;> rfl
@[simp] theorem putG_latchA (t : Thread) (i : BitVec 3) (g : Guard) : (putG t i g).latchA = t.latchA := by unfold putG; split <;> rfl
@[simp] theorem putG_latchB (t : Thread) (i : BitVec 3) (g : Guard) : (putG t i g).latchB = t.latchB := by unfold putG; split <;> rfl
@[simp] theorem putG_tb (t : Thread) (i : BitVec 3) (g : Guard) : (putG t i g).tb = t.tb := by unfold putG; split <;> rfl
@[simp] theorem putG_seg (t : Thread) (i : BitVec 3) (g : Guard) : (putG t i g).seg = t.seg := by unfold putG; split <;> rfl
@[simp] theorem putG_csr (t : Thread) (i : BitVec 3) (g : Guard) : (putG t i g).csr = t.csr := by unfold putG; split <;> rfl
@[simp] theorem putG_savedChain (t : Thread) (i : BitVec 3) (g : Guard) : (putG t i g).savedChain = t.savedChain := by unfold putG; split <;> rfl
@[simp] theorem putG_yielded (t : Thread) (i : BitVec 3) (g : Guard) : (putG t i g).yielded = t.yielded := by unfold putG; split <;> rfl
@[simp] theorem putG_lastIssue (t : Thread) (i : BitVec 3) (g : Guard) : (putG t i g).lastIssue = t.lastIssue := by unfold putG; split <;> rfl
@[simp] theorem putG_doubling (t : Thread) (i : BitVec 3) (g : Guard) : (putG t i g).doubling = t.doubling := by unfold putG; split <;> rfl
@[simp] theorem putG_soon (t : Thread) (i : BitVec 3) (g : Guard) : (putG t i g).soon = t.soon := by unfold putG; split <;> rfl
@[simp] theorem putG_event (t : Thread) (i : BitVec 3) (g : Guard) : (putG t i g).event = t.event := by unfold putG; split <;> rfl
@[simp] theorem putG_matq (t : Thread) (i : BitVec 3) (g : Guard) : (putG t i g).matq = t.matq := by unfold putG; split <;> rfl
@[simp] theorem putG_copyq (t : Thread) (i : BitVec 3) (g : Guard) : (putG t i g).copyq = t.copyq := by unfold putG; split <;> rfl
@[simp] theorem putG_copyScope (t : Thread) (i : BitVec 3) (g : Guard) : (putG t i g).copyScope = t.copyScope := by unfold putG; split <;> rfl
@[simp] theorem putG_drainScope (t : Thread) (i : BitVec 3) (g : Guard) : (putG t i g).drainScope = t.drainScope := by unfold putG; split <;> rfl
@[simp] theorem putG_msgLost (t : Thread) (i : BitVec 3) (g : Guard) : (putG t i g).msgLost = t.msgLost := by unfold putG; split <;> rfl
@[simp] theorem putG_timerTrap (t : Thread) (i : BitVec 3) (g : Guard) : (putG t i g).timerTrap = t.timerTrap := by unfold putG; split <;> rfl
@[simp] theorem putG_lost (t : Thread) (i : BitVec 3) (g : Guard) : (putG t i g).lost = t.lost := by unfold putG; split <;> rfl
@[simp] theorem putG_lostTask (t : Thread) (i : BitVec 3) (g : Guard) : (putG t i g).lostTask = t.lostTask := by unfold putG; split <;> rfl
@[simp] theorem putG_mailbox (t : Thread) (i : BitVec 3) (g : Guard) : (putG t i g).mailbox = t.mailbox := by unfold putG; split <;> rfl
@[simp] theorem putG_bounces (t : Thread) (i : BitVec 3) (g : Guard) : (putG t i g).bounces = t.bounces := by unfold putG; split <;> rfl
@[simp] theorem putG_refusal (t : Thread) (i : BitVec 3) (g : Guard) : (putG t i g).refusal = t.refusal := by unfold putG; split <;> rfl
@[simp] theorem putG_overflowed (t : Thread) (i : BitVec 3) (g : Guard) : (putG t i g).overflowed = t.overflowed := by unfold putG; split <;> rfl
@[simp] theorem putG_number (t : Thread) (i : BitVec 3) (g : Guard) : (putG t i g).number = t.number := by unfold putG; split <;> rfl
@[simp] theorem putG_inbox (t : Thread) (i : BitVec 3) (g : Guard) : (putG t i g).inbox = t.inbox := by unfold putG; split <;> rfl
@[simp] theorem putG_passing (t : Thread) (i : BitVec 3) (g : Guard) : (putG t i g).passing = t.passing := by unfold putG; split <;> rfl
@[simp] theorem putG_chainIn (t : Thread) (i : BitVec 3) (g : Guard) : (putG t i g).chainIn = t.chainIn := by unfold putG; split <;> rfl
@[simp] theorem putG_popped (t : Thread) (i : BitVec 3) (g : Guard) : (putG t i g).popped = t.popped := by unfold putG; split <;> rfl
@[simp] theorem putG_fetched (t : Thread) (i : BitVec 3) (g : Guard) : (putG t i g).fetched = t.fetched := by unfold putG; split <;> rfl
@[simp] theorem putG_up (t : Thread) (i : BitVec 3) (g : Guard) : (putG t i g).up = t.up := by unfold putG; split <;> rfl
@[simp] theorem putG_down (t : Thread) (i : BitVec 3) (g : Guard) : (putG t i g).down = t.down := by unfold putG; split <;> rfl
@[simp] theorem putG_parties (t : Thread) (i : BitVec 3) (g : Guard) : (putG t i g).parties = t.parties := by unfold putG; split <;> rfl
@[simp] theorem putG_unacked (t : Thread) (i : BitVec 3) (g : Guard) : (putG t i g).unacked = t.unacked := by unfold putG; split <;> rfl
@[simp] theorem putG_asyncWaits (t : Thread) (i : BitVec 3) (g : Guard) : (putG t i g).asyncWaits = t.asyncWaits := by unfold putG; split <;> rfl
@[simp] theorem putG_launch (t : Thread) (i : BitVec 3) (g : Guard) : (putG t i g).launch = t.launch := by unfold putG; split <;> rfl
@[simp] theorem putG_rank (t : Thread) (i : BitVec 3) (g : Guard) : (putG t i g).rank = t.rank := by unfold putG; split <;> rfl
@[simp] theorem putG_ltag (t : Thread) (i : BitVec 3) (g : Guard) : (putG t i g).ltag = t.ltag := by unfold putG; split <;> rfl
@[simp] theorem putG_taskBase (t : Thread) (i : BitVec 3) (g : Guard) : (putG t i g).taskBase = t.taskBase := by unfold putG; split <;> rfl
@[simp] theorem putG_taskRun (t : Thread) (i : BitVec 3) (g : Guard) : (putG t i g).taskRun = t.taskRun := by unfold putG; split <;> rfl
@[simp] theorem putG_held (t : Thread) (i : BitVec 3) (g : Guard) : (putG t i g).held = t.held := by unfold putG; split <;> rfl
@[simp] theorem putG_rev (t : Thread) (i : BitVec 3) (g : Guard) : (putG t i g).rev = t.rev := by unfold putG; split <;> rfl
@[simp] theorem putG_depth (t : Thread) (i : BitVec 3) (g : Guard) : (putG t i g).depth = t.depth := by unfold putG; split <;> rfl
@[simp] theorem putG_children (t : Thread) (i : BitVec 3) (g : Guard) : (putG t i g).children = t.children := by unfold putG; split <;> rfl
@[simp] theorem putG_joinMerged (t : Thread) (i : BitVec 3) (g : Guard) : (putG t i g).joinMerged = t.joinMerged := by unfold putG; split <;> rfl
@[simp] theorem putG_joinDropped (t : Thread) (i : BitVec 3) (g : Guard) : (putG t i g).joinDropped = t.joinDropped := by unfold putG; split <;> rfl
@[simp] theorem putG_window (t : Thread) (i : BitVec 3) (g : Guard) : (putG t i g).window = t.window := by unfold putG; split <;> rfl
@[simp] theorem putG_geo (t : Thread) (i : BitVec 3) (g : Guard) : (putG t i g).geo = t.geo := by unfold putG; split <;> rfl
@[simp] theorem putG_quad (t : Thread) (i : BitVec 3) (g : Guard) : (putG t i g).quad = t.quad := by unfold putG; split <;> rfl
@[simp] theorem putG_recorded (t : Thread) (i : BitVec 3) (g : Guard) : (putG t i g).recorded = t.recorded := by unfold putG; split <;> rfl
@[simp] theorem putG_handler (t : Thread) (i : BitVec 3) (g : Guard) : (putG t i g).handler = t.handler := by unfold putG; split <;> rfl
@[simp] theorem putG_issues (t : Thread) (i : BitVec 3) (g : Guard) : (putG t i g).issues = t.issues := by unfold putG; split <;> rfl
@[simp] theorem putG_current (t : Thread) (i : BitVec 3) (g : Guard) : (putG t i g).current = t.current := by unfold putG; split <;> rfl

@[simp] theorem setG_phase (t : Thread) (i : BitVec 3) (m : BitVec 8) : (setG t i m).phase = t.phase := putG_phase t i _
@[simp] theorem setG_parkedFrom (t : Thread) (i : BitVec 3) (m : BitVec 8) : (setG t i m).parkedFrom = t.parkedFrom := putG_parkedFrom t i _
@[simp] theorem setG_haltedFrom (t : Thread) (i : BitVec 3) (m : BitVec 8) : (setG t i m).haltedFrom = t.haltedFrom := putG_haltedFrom t i _
@[simp] theorem setG_wait (t : Thread) (i : BitVec 3) (m : BitVec 8) : (setG t i m).wait = t.wait := putG_wait t i _
@[simp] theorem setG_parkLen (t : Thread) (i : BitVec 3) (m : BitVec 8) : (setG t i m).parkLen = t.parkLen := putG_parkLen t i _
@[simp] theorem setG_retiring (t : Thread) (i : BitVec 3) (m : BitVec 8) : (setG t i m).retiring = t.retiring := putG_retiring t i _
@[simp] theorem setG_pc (t : Thread) (i : BitVec 3) (m : BitVec 8) : (setG t i m).pc = t.pc := putG_pc t i _
@[simp] theorem setG_x (t : Thread) (i : BitVec 3) (m : BitVec 8) : (setG t i m).x = t.x := putG_x t i _
@[simp] theorem setG_v (t : Thread) (i : BitVec 3) (m : BitVec 8) : (setG t i m).v = t.v := putG_v t i _
@[simp] theorem setG_acc (t : Thread) (i : BitVec 3) (m : BitVec 8) : (setG t i m).acc = t.acc := putG_acc t i _
@[simp] theorem setG_latchA (t : Thread) (i : BitVec 3) (m : BitVec 8) : (setG t i m).latchA = t.latchA := putG_latchA t i _
@[simp] theorem setG_latchB (t : Thread) (i : BitVec 3) (m : BitVec 8) : (setG t i m).latchB = t.latchB := putG_latchB t i _
@[simp] theorem setG_tb (t : Thread) (i : BitVec 3) (m : BitVec 8) : (setG t i m).tb = t.tb := putG_tb t i _
@[simp] theorem setG_seg (t : Thread) (i : BitVec 3) (m : BitVec 8) : (setG t i m).seg = t.seg := putG_seg t i _
@[simp] theorem setG_csr (t : Thread) (i : BitVec 3) (m : BitVec 8) : (setG t i m).csr = t.csr := putG_csr t i _
@[simp] theorem setG_savedChain (t : Thread) (i : BitVec 3) (m : BitVec 8) : (setG t i m).savedChain = t.savedChain := putG_savedChain t i _
@[simp] theorem setG_yielded (t : Thread) (i : BitVec 3) (m : BitVec 8) : (setG t i m).yielded = t.yielded := putG_yielded t i _
@[simp] theorem setG_lastIssue (t : Thread) (i : BitVec 3) (m : BitVec 8) : (setG t i m).lastIssue = t.lastIssue := putG_lastIssue t i _
@[simp] theorem setG_doubling (t : Thread) (i : BitVec 3) (m : BitVec 8) : (setG t i m).doubling = t.doubling := putG_doubling t i _
@[simp] theorem setG_soon (t : Thread) (i : BitVec 3) (m : BitVec 8) : (setG t i m).soon = t.soon := putG_soon t i _
@[simp] theorem setG_event (t : Thread) (i : BitVec 3) (m : BitVec 8) : (setG t i m).event = t.event := putG_event t i _
@[simp] theorem setG_matq (t : Thread) (i : BitVec 3) (m : BitVec 8) : (setG t i m).matq = t.matq := putG_matq t i _
@[simp] theorem setG_copyq (t : Thread) (i : BitVec 3) (m : BitVec 8) : (setG t i m).copyq = t.copyq := putG_copyq t i _
@[simp] theorem setG_copyScope (t : Thread) (i : BitVec 3) (m : BitVec 8) : (setG t i m).copyScope = t.copyScope := putG_copyScope t i _
@[simp] theorem setG_drainScope (t : Thread) (i : BitVec 3) (m : BitVec 8) : (setG t i m).drainScope = t.drainScope := putG_drainScope t i _
@[simp] theorem setG_msgLost (t : Thread) (i : BitVec 3) (m : BitVec 8) : (setG t i m).msgLost = t.msgLost := putG_msgLost t i _
@[simp] theorem setG_timerTrap (t : Thread) (i : BitVec 3) (m : BitVec 8) : (setG t i m).timerTrap = t.timerTrap := putG_timerTrap t i _
@[simp] theorem setG_lost (t : Thread) (i : BitVec 3) (m : BitVec 8) : (setG t i m).lost = t.lost := putG_lost t i _
@[simp] theorem setG_lostTask (t : Thread) (i : BitVec 3) (m : BitVec 8) : (setG t i m).lostTask = t.lostTask := putG_lostTask t i _
@[simp] theorem setG_mailbox (t : Thread) (i : BitVec 3) (m : BitVec 8) : (setG t i m).mailbox = t.mailbox := putG_mailbox t i _
@[simp] theorem setG_bounces (t : Thread) (i : BitVec 3) (m : BitVec 8) : (setG t i m).bounces = t.bounces := putG_bounces t i _
@[simp] theorem setG_refusal (t : Thread) (i : BitVec 3) (m : BitVec 8) : (setG t i m).refusal = t.refusal := putG_refusal t i _
@[simp] theorem setG_overflowed (t : Thread) (i : BitVec 3) (m : BitVec 8) : (setG t i m).overflowed = t.overflowed := putG_overflowed t i _
@[simp] theorem setG_number (t : Thread) (i : BitVec 3) (m : BitVec 8) : (setG t i m).number = t.number := putG_number t i _
@[simp] theorem setG_inbox (t : Thread) (i : BitVec 3) (m : BitVec 8) : (setG t i m).inbox = t.inbox := putG_inbox t i _
@[simp] theorem setG_passing (t : Thread) (i : BitVec 3) (m : BitVec 8) : (setG t i m).passing = t.passing := putG_passing t i _
@[simp] theorem setG_chainIn (t : Thread) (i : BitVec 3) (m : BitVec 8) : (setG t i m).chainIn = t.chainIn := putG_chainIn t i _
@[simp] theorem setG_popped (t : Thread) (i : BitVec 3) (m : BitVec 8) : (setG t i m).popped = t.popped := putG_popped t i _
@[simp] theorem setG_fetched (t : Thread) (i : BitVec 3) (m : BitVec 8) : (setG t i m).fetched = t.fetched := putG_fetched t i _
@[simp] theorem setG_up (t : Thread) (i : BitVec 3) (m : BitVec 8) : (setG t i m).up = t.up := putG_up t i _
@[simp] theorem setG_down (t : Thread) (i : BitVec 3) (m : BitVec 8) : (setG t i m).down = t.down := putG_down t i _
@[simp] theorem setG_parties (t : Thread) (i : BitVec 3) (m : BitVec 8) : (setG t i m).parties = t.parties := putG_parties t i _
@[simp] theorem setG_unacked (t : Thread) (i : BitVec 3) (m : BitVec 8) : (setG t i m).unacked = t.unacked := putG_unacked t i _
@[simp] theorem setG_asyncWaits (t : Thread) (i : BitVec 3) (m : BitVec 8) : (setG t i m).asyncWaits = t.asyncWaits := putG_asyncWaits t i _
@[simp] theorem setG_launch (t : Thread) (i : BitVec 3) (m : BitVec 8) : (setG t i m).launch = t.launch := putG_launch t i _
@[simp] theorem setG_rank (t : Thread) (i : BitVec 3) (m : BitVec 8) : (setG t i m).rank = t.rank := putG_rank t i _
@[simp] theorem setG_ltag (t : Thread) (i : BitVec 3) (m : BitVec 8) : (setG t i m).ltag = t.ltag := putG_ltag t i _
@[simp] theorem setG_taskBase (t : Thread) (i : BitVec 3) (m : BitVec 8) : (setG t i m).taskBase = t.taskBase := putG_taskBase t i _
@[simp] theorem setG_taskRun (t : Thread) (i : BitVec 3) (m : BitVec 8) : (setG t i m).taskRun = t.taskRun := putG_taskRun t i _
@[simp] theorem setG_held (t : Thread) (i : BitVec 3) (m : BitVec 8) : (setG t i m).held = t.held := putG_held t i _
@[simp] theorem setG_rev (t : Thread) (i : BitVec 3) (m : BitVec 8) : (setG t i m).rev = t.rev := putG_rev t i _
@[simp] theorem setG_depth (t : Thread) (i : BitVec 3) (m : BitVec 8) : (setG t i m).depth = t.depth := putG_depth t i _
@[simp] theorem setG_children (t : Thread) (i : BitVec 3) (m : BitVec 8) : (setG t i m).children = t.children := putG_children t i _
@[simp] theorem setG_joinMerged (t : Thread) (i : BitVec 3) (m : BitVec 8) : (setG t i m).joinMerged = t.joinMerged := putG_joinMerged t i _
@[simp] theorem setG_joinDropped (t : Thread) (i : BitVec 3) (m : BitVec 8) : (setG t i m).joinDropped = t.joinDropped := putG_joinDropped t i _
@[simp] theorem setG_window (t : Thread) (i : BitVec 3) (m : BitVec 8) : (setG t i m).window = t.window := putG_window t i _
@[simp] theorem setG_geo (t : Thread) (i : BitVec 3) (m : BitVec 8) : (setG t i m).geo = t.geo := putG_geo t i _
@[simp] theorem setG_quad (t : Thread) (i : BitVec 3) (m : BitVec 8) : (setG t i m).quad = t.quad := putG_quad t i _
@[simp] theorem setG_recorded (t : Thread) (i : BitVec 3) (m : BitVec 8) : (setG t i m).recorded = t.recorded := putG_recorded t i _
@[simp] theorem setG_handler (t : Thread) (i : BitVec 3) (m : BitVec 8) : (setG t i m).handler = t.handler := putG_handler t i _
@[simp] theorem setG_issues (t : Thread) (i : BitVec 3) (m : BitVec 8) : (setG t i m).issues = t.issues := putG_issues t i _
@[simp] theorem setG_current (t : Thread) (i : BitVec 3) (m : BitVec 8) : (setG t i m).current = t.current := putG_current t i _

@[simp] theorem coreSetSlot_pool (c : Core) (i : Fin 16) (t : Thread) : (coreSetSlot c i t).pool = c.pool := rfl
@[simp] theorem coreSetSlot_full (c : Core) (i : Fin 16) (t : Thread) : (coreSetSlot c i t).full = c.full := rfl
@[simp] theorem coreSetSlot_poison (c : Core) (i : Fin 16) (t : Thread) : (coreSetSlot c i t).poison = c.poison := rfl
@[simp] theorem coreSetSlot_part (c : Core) (i : Fin 16) (t : Thread) : (coreSetSlot c i t).part = c.part := rfl
@[simp] theorem coreSetSlot_kimg (c : Core) (i : Fin 16) (t : Thread) : (coreSetSlot c i t).kimg = c.kimg := rfl
@[simp] theorem coreSetSlot_live (c : Core) (i : Fin 16) (t : Thread) : (coreSetSlot c i t).live = c.live := rfl
@[simp] theorem coreSetSlot_status (c : Core) (i : Fin 16) (t : Thread) : (coreSetSlot c i t).status = c.status := rfl
@[simp] theorem coreSetSlot_tags (c : Core) (i : Fin 16) (t : Thread) : (coreSetSlot c i t).tags = c.tags := rfl
@[simp] theorem coreSetSlot_binds (c : Core) (i : Fin 16) (t : Thread) : (coreSetSlot c i t).binds = c.binds := rfl
@[simp] theorem coreSetSlot_inq (c : Core) (i : Fin 16) (t : Thread) : (coreSetSlot c i t).inq = c.inq := rfl
@[simp] theorem coreSetSlot_arrived (c : Core) (i : Fin 16) (t : Thread) : (coreSetSlot c i t).arrived = c.arrived := rfl
@[simp] theorem coreSetSlot_deferred (c : Core) (i : Fin 16) (t : Thread) : (coreSetSlot c i t).deferred = c.deferred := rfl
@[simp] theorem coreSetSlot_handles (c : Core) (i : Fin 16) (t : Thread) : (coreSetSlot c i t).handles = c.handles := rfl
@[simp] theorem coreSetSlot_ready (c : Core) (i : Fin 16) (t : Thread) : (coreSetSlot c i t).ready = c.ready := rfl
@[simp] theorem coreSetSlot_sleepers (c : Core) (i : Fin 16) (t : Thread) : (coreSetSlot c i t).sleepers = c.sleepers := rfl
@[simp] theorem coreSetSlot_handlerBounces (c : Core) (i : Fin 16) (t : Thread) : (coreSetSlot c i t).handlerBounces = c.handlerBounces := rfl
@[simp] theorem coreSetSlot_donated (c : Core) (i : Fin 16) (t : Thread) : (coreSetSlot c i t).donated = c.donated := rfl
@[simp] theorem coreSetSlot_matServed (c : Core) (i : Fin 16) (t : Thread) : (coreSetSlot c i t).matServed = c.matServed := rfl
@[simp] theorem coreSetSlot_copyServed (c : Core) (i : Fin 16) (t : Thread) : (coreSetSlot c i t).copyServed = c.copyServed := rfl
@[simp] theorem coreSetSlot_sourceAsks (c : Core) (i : Fin 16) (t : Thread) : (coreSetSlot c i t).sourceAsks = c.sourceAsks := rfl
@[simp] theorem coreSetSlot_lastCb4 (c : Core) (i : Fin 16) (t : Thread) : (coreSetSlot c i t).lastCb4 = c.lastCb4 := rfl
@[simp] theorem coreSetSlot_cb4Leave (c : Core) (i : Fin 16) (t : Thread) : (coreSetSlot c i t).cb4Leave = c.cb4Leave := rfl
@[simp] theorem coreSetSlot_gated (c : Core) (i : Fin 16) (t : Thread) : (coreSetSlot c i t).gated = c.gated := rfl
@[simp] theorem coreSetSlot_quarters (c : Core) (i : Fin 16) (t : Thread) : (coreSetSlot c i t).quarters = c.quarters := rfl
@[simp] theorem coreSetSlot_imageDue (c : Core) (i : Fin 16) (t : Thread) : (coreSetSlot c i t).imageDue = c.imageDue := rfl
@[simp] theorem coreSetSlot_placed (c : Core) (i : Fin 16) (t : Thread) : (coreSetSlot c i t).placed = c.placed := rfl
@[simp] theorem coreSetSlot_halting (c : Core) (i : Fin 16) (t : Thread) : (coreSetSlot c i t).halting = c.halting := rfl

@[simp] theorem poolWrite_slots (c : Core) (off : Nat) (bs : List Byte) : (poolWrite c off bs).slots = c.slots := rfl
@[simp] theorem poolWrite_full (c : Core) (off : Nat) (bs : List Byte) : (poolWrite c off bs).full = c.full := rfl
@[simp] theorem poolWrite_poison (c : Core) (off : Nat) (bs : List Byte) : (poolWrite c off bs).poison = c.poison := rfl
@[simp] theorem poolWrite_part (c : Core) (off : Nat) (bs : List Byte) : (poolWrite c off bs).part = c.part := rfl
@[simp] theorem poolWrite_kimg (c : Core) (off : Nat) (bs : List Byte) : (poolWrite c off bs).kimg = c.kimg := rfl
@[simp] theorem poolWrite_live (c : Core) (off : Nat) (bs : List Byte) : (poolWrite c off bs).live = c.live := rfl
@[simp] theorem poolWrite_status (c : Core) (off : Nat) (bs : List Byte) : (poolWrite c off bs).status = c.status := rfl
@[simp] theorem poolWrite_tags (c : Core) (off : Nat) (bs : List Byte) : (poolWrite c off bs).tags = c.tags := rfl
@[simp] theorem poolWrite_binds (c : Core) (off : Nat) (bs : List Byte) : (poolWrite c off bs).binds = c.binds := rfl
@[simp] theorem poolWrite_inq (c : Core) (off : Nat) (bs : List Byte) : (poolWrite c off bs).inq = c.inq := rfl
@[simp] theorem poolWrite_arrived (c : Core) (off : Nat) (bs : List Byte) : (poolWrite c off bs).arrived = c.arrived := rfl
@[simp] theorem poolWrite_deferred (c : Core) (off : Nat) (bs : List Byte) : (poolWrite c off bs).deferred = c.deferred := rfl
@[simp] theorem poolWrite_handles (c : Core) (off : Nat) (bs : List Byte) : (poolWrite c off bs).handles = c.handles := rfl
@[simp] theorem poolWrite_ready (c : Core) (off : Nat) (bs : List Byte) : (poolWrite c off bs).ready = c.ready := rfl
@[simp] theorem poolWrite_sleepers (c : Core) (off : Nat) (bs : List Byte) : (poolWrite c off bs).sleepers = c.sleepers := rfl
@[simp] theorem poolWrite_handlerBounces (c : Core) (off : Nat) (bs : List Byte) : (poolWrite c off bs).handlerBounces = c.handlerBounces := rfl
@[simp] theorem poolWrite_donated (c : Core) (off : Nat) (bs : List Byte) : (poolWrite c off bs).donated = c.donated := rfl
@[simp] theorem poolWrite_matServed (c : Core) (off : Nat) (bs : List Byte) : (poolWrite c off bs).matServed = c.matServed := rfl
@[simp] theorem poolWrite_copyServed (c : Core) (off : Nat) (bs : List Byte) : (poolWrite c off bs).copyServed = c.copyServed := rfl
@[simp] theorem poolWrite_sourceAsks (c : Core) (off : Nat) (bs : List Byte) : (poolWrite c off bs).sourceAsks = c.sourceAsks := rfl
@[simp] theorem poolWrite_lastCb4 (c : Core) (off : Nat) (bs : List Byte) : (poolWrite c off bs).lastCb4 = c.lastCb4 := rfl
@[simp] theorem poolWrite_cb4Leave (c : Core) (off : Nat) (bs : List Byte) : (poolWrite c off bs).cb4Leave = c.cb4Leave := rfl
@[simp] theorem poolWrite_gated (c : Core) (off : Nat) (bs : List Byte) : (poolWrite c off bs).gated = c.gated := rfl
@[simp] theorem poolWrite_quarters (c : Core) (off : Nat) (bs : List Byte) : (poolWrite c off bs).quarters = c.quarters := rfl
@[simp] theorem poolWrite_imageDue (c : Core) (off : Nat) (bs : List Byte) : (poolWrite c off bs).imageDue = c.imageDue := rfl
@[simp] theorem poolWrite_placed (c : Core) (off : Nat) (bs : List Byte) : (poolWrite c off bs).placed = c.placed := rfl
@[simp] theorem poolWrite_halting (c : Core) (off : Nat) (bs : List Byte) : (poolWrite c off bs).halting = c.halting := rfl

@[simp] theorem setFull_slots (c : Core) (g : Nat) (on : Bool) : (setFull c g on).slots = c.slots := rfl
@[simp] theorem setFull_pool (c : Core) (g : Nat) (on : Bool) : (setFull c g on).pool = c.pool := rfl
@[simp] theorem setFull_poison (c : Core) (g : Nat) (on : Bool) : (setFull c g on).poison = c.poison := rfl
@[simp] theorem setFull_part (c : Core) (g : Nat) (on : Bool) : (setFull c g on).part = c.part := rfl
@[simp] theorem setFull_kimg (c : Core) (g : Nat) (on : Bool) : (setFull c g on).kimg = c.kimg := rfl
@[simp] theorem setFull_live (c : Core) (g : Nat) (on : Bool) : (setFull c g on).live = c.live := rfl
@[simp] theorem setFull_status (c : Core) (g : Nat) (on : Bool) : (setFull c g on).status = c.status := rfl
@[simp] theorem setFull_tags (c : Core) (g : Nat) (on : Bool) : (setFull c g on).tags = c.tags := rfl
@[simp] theorem setFull_binds (c : Core) (g : Nat) (on : Bool) : (setFull c g on).binds = c.binds := rfl
@[simp] theorem setFull_inq (c : Core) (g : Nat) (on : Bool) : (setFull c g on).inq = c.inq := rfl
@[simp] theorem setFull_arrived (c : Core) (g : Nat) (on : Bool) : (setFull c g on).arrived = c.arrived := rfl
@[simp] theorem setFull_deferred (c : Core) (g : Nat) (on : Bool) : (setFull c g on).deferred = c.deferred := rfl
@[simp] theorem setFull_handles (c : Core) (g : Nat) (on : Bool) : (setFull c g on).handles = c.handles := rfl
@[simp] theorem setFull_ready (c : Core) (g : Nat) (on : Bool) : (setFull c g on).ready = c.ready := rfl
@[simp] theorem setFull_sleepers (c : Core) (g : Nat) (on : Bool) : (setFull c g on).sleepers = c.sleepers := rfl
@[simp] theorem setFull_handlerBounces (c : Core) (g : Nat) (on : Bool) : (setFull c g on).handlerBounces = c.handlerBounces := rfl
@[simp] theorem setFull_donated (c : Core) (g : Nat) (on : Bool) : (setFull c g on).donated = c.donated := rfl
@[simp] theorem setFull_matServed (c : Core) (g : Nat) (on : Bool) : (setFull c g on).matServed = c.matServed := rfl
@[simp] theorem setFull_copyServed (c : Core) (g : Nat) (on : Bool) : (setFull c g on).copyServed = c.copyServed := rfl
@[simp] theorem setFull_sourceAsks (c : Core) (g : Nat) (on : Bool) : (setFull c g on).sourceAsks = c.sourceAsks := rfl
@[simp] theorem setFull_lastCb4 (c : Core) (g : Nat) (on : Bool) : (setFull c g on).lastCb4 = c.lastCb4 := rfl
@[simp] theorem setFull_cb4Leave (c : Core) (g : Nat) (on : Bool) : (setFull c g on).cb4Leave = c.cb4Leave := rfl
@[simp] theorem setFull_gated (c : Core) (g : Nat) (on : Bool) : (setFull c g on).gated = c.gated := rfl
@[simp] theorem setFull_quarters (c : Core) (g : Nat) (on : Bool) : (setFull c g on).quarters = c.quarters := rfl
@[simp] theorem setFull_imageDue (c : Core) (g : Nat) (on : Bool) : (setFull c g on).imageDue = c.imageDue := rfl
@[simp] theorem setFull_placed (c : Core) (g : Nat) (on : Bool) : (setFull c g on).placed = c.placed := rfl
@[simp] theorem setFull_halting (c : Core) (g : Nat) (on : Bool) : (setFull c g on).halting = c.halting := rfl

@[simp] theorem signalSlots_pool (c : Core) (n : Nat) : (signalSlots c n).pool = c.pool := by unfold signalSlots; rfl
@[simp] theorem signalSlots_full (c : Core) (n : Nat) : (signalSlots c n).full = c.full := by unfold signalSlots; rfl
@[simp] theorem signalSlots_poison (c : Core) (n : Nat) : (signalSlots c n).poison = c.poison := by unfold signalSlots; rfl
@[simp] theorem signalSlots_part (c : Core) (n : Nat) : (signalSlots c n).part = c.part := by unfold signalSlots; rfl
@[simp] theorem signalSlots_kimg (c : Core) (n : Nat) : (signalSlots c n).kimg = c.kimg := by unfold signalSlots; rfl
@[simp] theorem signalSlots_live (c : Core) (n : Nat) : (signalSlots c n).live = c.live := by unfold signalSlots; rfl
@[simp] theorem signalSlots_status (c : Core) (n : Nat) : (signalSlots c n).status = c.status := by unfold signalSlots; rfl
@[simp] theorem signalSlots_tags (c : Core) (n : Nat) : (signalSlots c n).tags = c.tags := by unfold signalSlots; rfl
@[simp] theorem signalSlots_binds (c : Core) (n : Nat) : (signalSlots c n).binds = c.binds := by unfold signalSlots; rfl
@[simp] theorem signalSlots_inq (c : Core) (n : Nat) : (signalSlots c n).inq = c.inq := by unfold signalSlots; rfl
@[simp] theorem signalSlots_arrived (c : Core) (n : Nat) : (signalSlots c n).arrived = c.arrived := by unfold signalSlots; rfl
@[simp] theorem signalSlots_deferred (c : Core) (n : Nat) : (signalSlots c n).deferred = c.deferred := by unfold signalSlots; rfl
@[simp] theorem signalSlots_handles (c : Core) (n : Nat) : (signalSlots c n).handles = c.handles := by unfold signalSlots; rfl
@[simp] theorem signalSlots_ready (c : Core) (n : Nat) : (signalSlots c n).ready = c.ready := by unfold signalSlots; rfl
@[simp] theorem signalSlots_sleepers (c : Core) (n : Nat) : (signalSlots c n).sleepers = c.sleepers := by unfold signalSlots; rfl
@[simp] theorem signalSlots_handlerBounces (c : Core) (n : Nat) : (signalSlots c n).handlerBounces = c.handlerBounces := by unfold signalSlots; rfl
@[simp] theorem signalSlots_donated (c : Core) (n : Nat) : (signalSlots c n).donated = c.donated := by unfold signalSlots; rfl
@[simp] theorem signalSlots_matServed (c : Core) (n : Nat) : (signalSlots c n).matServed = c.matServed := by unfold signalSlots; rfl
@[simp] theorem signalSlots_copyServed (c : Core) (n : Nat) : (signalSlots c n).copyServed = c.copyServed := by unfold signalSlots; rfl
@[simp] theorem signalSlots_sourceAsks (c : Core) (n : Nat) : (signalSlots c n).sourceAsks = c.sourceAsks := by unfold signalSlots; rfl
@[simp] theorem signalSlots_lastCb4 (c : Core) (n : Nat) : (signalSlots c n).lastCb4 = c.lastCb4 := by unfold signalSlots; rfl
@[simp] theorem signalSlots_cb4Leave (c : Core) (n : Nat) : (signalSlots c n).cb4Leave = c.cb4Leave := by unfold signalSlots; rfl
@[simp] theorem signalSlots_gated (c : Core) (n : Nat) : (signalSlots c n).gated = c.gated := by unfold signalSlots; rfl
@[simp] theorem signalSlots_quarters (c : Core) (n : Nat) : (signalSlots c n).quarters = c.quarters := by unfold signalSlots; rfl
@[simp] theorem signalSlots_imageDue (c : Core) (n : Nat) : (signalSlots c n).imageDue = c.imageDue := by unfold signalSlots; rfl
@[simp] theorem signalSlots_placed (c : Core) (n : Nat) : (signalSlots c n).placed = c.placed := by unfold signalSlots; rfl
@[simp] theorem signalSlots_halting (c : Core) (n : Nat) : (signalSlots c n).halting = c.halting := by unfold signalSlots; rfl

@[simp] theorem clearPoison_slots (c : Core) (off n : Nat) : (clearPoison c off n).slots = c.slots := rfl
@[simp] theorem clearPoison_pool (c : Core) (off n : Nat) : (clearPoison c off n).pool = c.pool := rfl
@[simp] theorem clearPoison_full (c : Core) (off n : Nat) : (clearPoison c off n).full = c.full := rfl
@[simp] theorem clearPoison_part (c : Core) (off n : Nat) : (clearPoison c off n).part = c.part := rfl
@[simp] theorem clearPoison_kimg (c : Core) (off n : Nat) : (clearPoison c off n).kimg = c.kimg := rfl
@[simp] theorem clearPoison_live (c : Core) (off n : Nat) : (clearPoison c off n).live = c.live := rfl
@[simp] theorem clearPoison_status (c : Core) (off n : Nat) : (clearPoison c off n).status = c.status := rfl
@[simp] theorem clearPoison_tags (c : Core) (off n : Nat) : (clearPoison c off n).tags = c.tags := rfl
@[simp] theorem clearPoison_binds (c : Core) (off n : Nat) : (clearPoison c off n).binds = c.binds := rfl
@[simp] theorem clearPoison_inq (c : Core) (off n : Nat) : (clearPoison c off n).inq = c.inq := rfl
@[simp] theorem clearPoison_arrived (c : Core) (off n : Nat) : (clearPoison c off n).arrived = c.arrived := rfl
@[simp] theorem clearPoison_deferred (c : Core) (off n : Nat) : (clearPoison c off n).deferred = c.deferred := rfl
@[simp] theorem clearPoison_handles (c : Core) (off n : Nat) : (clearPoison c off n).handles = c.handles := rfl
@[simp] theorem clearPoison_ready (c : Core) (off n : Nat) : (clearPoison c off n).ready = c.ready := rfl
@[simp] theorem clearPoison_sleepers (c : Core) (off n : Nat) : (clearPoison c off n).sleepers = c.sleepers := rfl
@[simp] theorem clearPoison_handlerBounces (c : Core) (off n : Nat) : (clearPoison c off n).handlerBounces = c.handlerBounces := rfl
@[simp] theorem clearPoison_donated (c : Core) (off n : Nat) : (clearPoison c off n).donated = c.donated := rfl
@[simp] theorem clearPoison_matServed (c : Core) (off n : Nat) : (clearPoison c off n).matServed = c.matServed := rfl
@[simp] theorem clearPoison_copyServed (c : Core) (off n : Nat) : (clearPoison c off n).copyServed = c.copyServed := rfl
@[simp] theorem clearPoison_sourceAsks (c : Core) (off n : Nat) : (clearPoison c off n).sourceAsks = c.sourceAsks := rfl
@[simp] theorem clearPoison_lastCb4 (c : Core) (off n : Nat) : (clearPoison c off n).lastCb4 = c.lastCb4 := rfl
@[simp] theorem clearPoison_cb4Leave (c : Core) (off n : Nat) : (clearPoison c off n).cb4Leave = c.cb4Leave := rfl
@[simp] theorem clearPoison_gated (c : Core) (off n : Nat) : (clearPoison c off n).gated = c.gated := rfl
@[simp] theorem clearPoison_quarters (c : Core) (off n : Nat) : (clearPoison c off n).quarters = c.quarters := rfl
@[simp] theorem clearPoison_imageDue (c : Core) (off n : Nat) : (clearPoison c off n).imageDue = c.imageDue := rfl
@[simp] theorem clearPoison_placed (c : Core) (off n : Nat) : (clearPoison c off n).placed = c.placed := rfl
@[simp] theorem clearPoison_halting (c : Core) (off n : Nat) : (clearPoison c off n).halting = c.halting := rfl

end Sys2Proof.Machine
end

