-- ==== Sys2Proof/Laws/Base.lean ====
section
/-!
SUPPORT. What the named operations of Machine/Base.lean do: sparse tables, memories in canonical form, cores and slots,
registers and guards.
-/

namespace Sys2Proof.Machine

/-! ## Sparse tables -/

@[simp] theorem mapGet?_mapSet {α : Type} (m : SMap α) (k : Nat) (a : α) : mapGet? (mapSet m k a) k = some a := by
  induction m with
  | nil => simp [mapSet, mapGet?]
  | cons p r ih =>
    obtain ⟨j, b⟩ := p
    simp only [mapSet]
    split
    · simp [mapGet?]
    · split
      · simp [mapGet?]
      · simp [mapGet?, *]

theorem mapGet?_mapSet_ne {α : Type} (m : SMap α) (k j : Nat) (a : α) (h : j ≠ k) :
    mapGet? (mapSet m k a) j = mapGet? m j := by
  induction m with
  | nil => simp [mapSet, mapGet?, Ne.symm h]
  | cons p r ih =>
    obtain ⟨i, b⟩ := p
    simp only [mapSet]
    split
    · simp [mapGet?, Ne.symm h]
    · split
      · subst_vars; simp [mapGet?, Ne.symm h]
      · simp only [mapGet?]; rw [ih]

@[simp] theorem mapGet_mapSet {α : Type} (m : SMap α) (k : Nat) (a d : α) : mapGet (mapSet m k a) k d = a := by
  simp [mapGet]

theorem mapGet_mapSet_ne {α : Type} (m : SMap α) (k j : Nat) (a d : α) (h : j ≠ k) :
    mapGet (mapSet m k a) j d = mapGet m j d := by
  simp [mapGet, mapGet?_mapSet_ne m k j a h]

@[simp] theorem mapSet_mapSet {α : Type} (m : SMap α) (k : Nat) (a b : α) : mapSet (mapSet m k a) k b = mapSet m k b := by
  induction m with
  | nil => simp [mapSet]
  | cons p r ih =>
    obtain ⟨i, c⟩ := p
    simp only [mapSet]
    split
    · simp [mapSet]
    · split
      · simp [mapSet]
      · simp only [mapSet]; simp [*]

/-! ## Memories in canonical form -/

/-- Every listed address is at least `lo`, addresses rise, and no blank byte is listed. -/
def risingFrom : List Host.Cell → Nat → Bool
  | [], _ => true
  | (a, b) :: r, lo => decide (lo ≤ a) && b != blankByte && risingFrom r (a + 1)

theorem risingFrom_mono {m : List Host.Cell} {lo lo' : Nat} (h : risingFrom m lo = true) (hl : lo' ≤ lo) :
    risingFrom m lo' = true := by
  cases m with
  | nil => rfl
  | cons p r =>
    obtain ⟨a, b⟩ := p
    simp only [risingFrom, Bool.and_eq_true, decide_eq_true_eq] at h ⊢
    exact ⟨⟨by omega, h.1.2⟩, h.2⟩

theorem memoryWf_iff (m : List Host.Cell) : Memory.wf m = risingFrom m 0 := by
  have key : ∀ (r : List Host.Cell) (a : Nat) (b : Byte) (lo : Nat), lo ≤ a →
      Memory.wf ((a, b) :: r) = risingFrom ((a, b) :: r) lo := by
    intro r
    induction r with
    | nil => intro a b lo h; simp [Memory.wf, risingFrom, h]
    | cons p r ih =>
      obtain ⟨a', b'⟩ := p
      intro a b lo h
      simp only [Memory.wf]
      by_cases hlt : a < a'
      · rw [ih a' b' (a + 1) hlt]
        simp [risingFrom, h, hlt]
      · have h' : ¬ (a + 1 ≤ a') := by omega
        simp [risingFrom, hlt, h']
  cases m with
  | nil => rfl
  | cons p r => exact key r p.1 p.2 0 (Nat.zero_le _)

theorem risingFrom_mapSet {m : List Host.Cell} {lo a : Nat} {b : Byte} (h : risingFrom m lo = true) (ha : lo ≤ a)
    (hb : b ≠ blankByte) : risingFrom (mapSet m a b) lo = true := by
  induction m generalizing lo with
  | nil => simp [mapSet, risingFrom, ha, hb]
  | cons p r ih =>
    obtain ⟨i, c⟩ := p
    simp only [risingFrom, Bool.and_eq_true, decide_eq_true_eq, bne_iff_ne] at h
    simp only [mapSet]
    split
    · rename_i hlt
      simp only [risingFrom, Bool.and_eq_true, decide_eq_true_eq, bne_iff_ne]
      exact ⟨⟨ha, hb⟩, ⟨hlt, h.1.2⟩, h.2⟩
    · split
      · rename_i _ he
        subst he
        simp only [risingFrom, Bool.and_eq_true, decide_eq_true_eq, bne_iff_ne]
        exact ⟨⟨ha, hb⟩, h.2⟩
      · simp only [risingFrom, Bool.and_eq_true, decide_eq_true_eq, bne_iff_ne]
        exact ⟨h.1, ih h.2 (by omega)⟩

theorem risingFrom_filter {m : List Host.Cell} {lo : Nat} (f : Host.Cell → Bool) (h : risingFrom m lo = true) :
    risingFrom (m.filter f) lo = true := by
  induction m generalizing lo with
  | nil => rfl
  | cons p r ih =>
    obtain ⟨i, c⟩ := p
    simp only [risingFrom, Bool.and_eq_true, decide_eq_true_eq, bne_iff_ne] at h
    simp only [List.filter_cons]
    split
    · simp only [risingFrom, Bool.and_eq_true, decide_eq_true_eq, bne_iff_ne]
      exact ⟨h.1, ih h.2⟩
    · exact risingFrom_mono (ih h.2) (by omega)

theorem risingFrom_mapErase {m : List Host.Cell} {lo a : Nat} (h : risingFrom m lo = true) :
    risingFrom (mapErase m a) lo = true :=
  risingFrom_filter _ h

/-- Taking bytes away keeps the canonical form. -/
theorem filter_wf {m : List Host.Cell} (f : Host.Cell → Bool) (h : Memory.wf m = true) : Memory.wf (m.filter f) = true := by
  rw [memoryWf_iff] at h ⊢
  exact risingFrom_filter f h

/-- Writing a byte keeps the canonical form. -/
theorem cellSet_wf {m : List Host.Cell} (a : Nat) (b : Byte) (h : Memory.wf m = true) : Memory.wf (cellSet m a b) = true := by
  rw [memoryWf_iff] at h ⊢
  unfold cellSet
  split
  · exact risingFrom_mapErase h
  · exact risingFrom_mapSet h (Nat.zero_le _) (by assumption)

/-- Writing bytes keeps the canonical form. -/
theorem cellsSet_wf {m : List Host.Cell} (a : Nat) (bs : List Byte) (h : Memory.wf m = true) :
    Memory.wf (cellsSet m a bs) = true := by
  induction bs generalizing m a with
  | nil => exact h
  | cons b bs ih => exact ih (a + 1) (cellSet_wf a b h)

theorem mapGet?_mapErase {α : Type} (m : SMap α) (a : Nat) : mapGet? (mapErase m a) a = none := by
  induction m with
  | nil => rfl
  | cons p r ih =>
    obtain ⟨i, c⟩ := p
    simp only [mapErase, List.filter_cons] at ih ⊢
    by_cases he : i = a
    · rw [if_neg (by simp [he])]; exact ih
    · rw [if_pos (by simp [he]), mapGet?, if_neg he]; exact ih

theorem mapGet?_mapErase_ne {α : Type} (m : SMap α) (a j : Nat) (h : j ≠ a) : mapGet? (mapErase m a) j = mapGet? m j := by
  induction m with
  | nil => rfl
  | cons p r ih =>
    obtain ⟨i, c⟩ := p
    simp only [mapErase, List.filter_cons] at ih ⊢
    by_cases he : i = a
    · subst he; rw [if_neg (by simp), mapGet?, if_neg (Ne.symm h)]; exact ih
    · rw [if_pos (by simp [he]), mapGet?, mapGet?]; split <;> first | rfl | exact ih

/-- A byte written is read back. -/
theorem cellGet_cellSet (m : List Host.Cell) (a : Nat) (b : Byte) : cellGet (cellSet m a b) a = b := by
  unfold cellSet cellGet
  split
  · rename_i hb; simp [mapGet, mapGet?_mapErase m a, hb]
  · simp

/-- A byte write leaves every other byte alone. -/
theorem cellGet_cellSet_ne (m : List Host.Cell) (a j : Nat) (b : Byte) (h : j ≠ a) : cellGet (cellSet m a b) j = cellGet m j := by
  unfold cellSet cellGet
  split
  · simp [mapGet, mapGet?_mapErase_ne m a j h]
  · exact mapGet_mapSet_ne m a j b _ h

theorem cellGet_cellsSet_ne (m : List Host.Cell) (a j : Nat) (bs : List Byte) (h : j < a ∨ a + bs.length ≤ j) :
    cellGet (cellsSet m a bs) j = cellGet m j := by
  induction bs generalizing m a with
  | nil => rfl
  | cons b bs ih =>
    simp only [cellsSet, List.length_cons] at h ⊢
    rw [ih _ (a + 1) (by omega), cellGet_cellSet_ne m a j b (by omega)]

/-- Bytes written are read back. -/
theorem cellsGet_cellsSet (m : List Host.Cell) (a : Nat) (bs : List Byte) :
    cellsGet (cellsSet m a bs) a bs.length = bs := by
  induction bs generalizing m a with
  | nil => rfl
  | cons b bs ih =>
    simp only [cellsSet, List.length_cons, cellsGet]
    rw [ih, cellGet_cellsSet_ne _ _ _ _ (Or.inl (by omega)), cellGet_cellSet]

/-! ## Vectors -/

theorem vector_get_set {α : Type} {n : Nat} (v : Vector α n) (i : Nat) (h : i < n) (a : α) :
    (v.set i a h).get ⟨i, h⟩ = a := by
  show (v.set i a h)[i] = a
  simp

theorem vector_get_set_ne {α : Type} {n : Nat} (v : Vector α n) (i j : Nat) (h : i < n) (hj : j < n) (a : α) (hn : i ≠ j) :
    (v.set i a h).get ⟨j, hj⟩ = v.get ⟨j, hj⟩ := by
  show (v.set i a h)[j] = v[j]
  simp [hn]

/-! ## Cores, slots and threads -/

@[simp] theorem getCore_setCore (s : State) (k : Nat) (c : Core) : getCore (setCore s k c) k = c := by
  simp [getCore, setCore]

theorem getCore_setCore_ne (s : State) (k j : Nat) (c : Core) (h : j ≠ k) : getCore (setCore s k c) j = getCore s j :=
  mapGet_mapSet_ne s.cores k j c _ h

@[simp] theorem setCore_setCore (s : State) (k : Nat) (c e : Core) : setCore (setCore s k c) k e = setCore s k e := by
  simp [setCore]

@[simp] theorem coreSlot_coreSetSlot (c : Core) (i : Fin 16) (t : Thread) : coreSlot (coreSetSlot c i t) i = t := by
  exact vector_get_set _ _ _ _

theorem coreSlot_coreSetSlot_ne (c : Core) (i j : Fin 16) (t : Thread) (h : j ≠ i) :
    coreSlot (coreSetSlot c i t) j = coreSlot c j := by
  have h' : i.val ≠ j.val := fun e => h (Fin.ext e.symm)
  exact vector_get_set_ne _ _ _ i.isLt j.isLt _ h'

@[simp] theorem coreSetSlot_coreSetSlot (c : Core) (i : Fin 16) (t u : Thread) :
    coreSetSlot (coreSetSlot c i t) i u = coreSetSlot c i u := by
  simp [coreSetSlot]

@[simp] theorem getThread_setThread (s : State) (k : Nat) (i : Fin 16) (t : Thread) :
    getThread (setThread s k i t) k i = t := by
  simp [getThread, setThread]

theorem getThread_setThread_ne (s : State) (k j : Nat) (i n : Fin 16) (t : Thread) (h : j ≠ k ∨ n ≠ i) :
    getThread (setThread s k i t) j n = getThread s j n := by
  unfold getThread setThread
  by_cases hk : j = k
  · subst hk
    rw [getCore_setCore, coreSlot_coreSetSlot_ne _ _ _ _ (by tauto)]
  · rw [getCore_setCore_ne _ _ _ _ hk]

@[simp] theorem setThread_setThread (s : State) (k : Nat) (i : Fin 16) (t u : Thread) :
    setThread (setThread s k i t) k i u = setThread s k i u := by
  simp [setThread]

@[simp] theorem slotOf_val (i : Fin 16) : slotOf i.val = i := by
  apply Fin.ext; simp [slotOf, Fin.ofNat, Nat.mod_eq_of_lt i.isLt]

@[simp] theorem refThread_curRef (s : State) : refThread s (curRef s) = curThread s := by
  simp [refThread, curRef, curThread]

@[simp] theorem modRef_curRef (s : State) (f : Thread → Thread) : modRef s (curRef s) f = modCur s f := by
  simp [modRef, curRef, modCur, putThread, curThread, modThread]

@[simp] theorem curThread_putThread (s : State) (t : Thread) : curThread (putThread s t) = t := by
  simp [curThread, putThread]

@[simp] theorem putThread_putThread (s : State) (t u : Thread) : putThread (putThread s t) u = putThread s u := by
  simp [putThread]

@[simp] theorem curRef_putThread (s : State) (t : Thread) : curRef (putThread s t) = curRef s := rfl

@[simp] theorem inMsgSlot_putThread (s : State) (t : Thread) : inMsgSlot (putThread s t) = inMsgSlot s := rfl

@[simp] theorem curCtx_putThread (s : State) (t : Thread) : curCtx (putThread s t) = curCtx s := rfl

@[simp] theorem modCur_putThread (s : State) (t : Thread) (f : Thread → Thread) :
    modCur (putThread s t) f = putThread s (f t) := by
  simp [modCur]

/-! ## Registers and guards -/

@[simp] theorem getX_setX (t : Thread) (i : BitVec 5) (v : Word) : getX (setX t i v) i = v := by
  exact vector_get_set _ _ _ _

theorem getX_setX_ne (t : Thread) (i j : BitVec 5) (v : Word) (h : j ≠ i) : getX (setX t i v) j = getX t j := by
  have h' : i.toNat ≠ j.toNat := fun e => h (BitVec.eq_of_toNat_eq e.symm)
  exact vector_get_set_ne _ _ _ i.isLt j.isLt _ h'

@[simp] theorem getV_setV (t : Thread) (i : BitVec 5) (v : VReg) : getV (setV t i v) i = v := by
  exact vector_get_set _ _ _ _

theorem getV_setV_ne (t : Thread) (i j : BitVec 5) (v : VReg) (h : j ≠ i) : getV (setV t i v) j = getV t j := by
  have h' : i.toNat ≠ j.toNat := fun e => h (BitVec.eq_of_toNat_eq e.symm)
  exact vector_get_set_ne _ _ _ i.isLt j.isLt _ h'

@[simp] theorem getTb_setTb (t : Thread) (i : BitVec 2) (v : Word) : getTb (setTb t i v) i = v := by
  exact vector_get_set _ _ _ _

@[simp] theorem getSeg_setSeg (t : Thread) (i : BitVec 3) (v : SegWord) : getSeg (setSeg t i v) i = v := by
  exact vector_get_set _ _ _ _

/-- `g7` is RESOLVED with mask 0xFF (R107). -/
@[simp] theorem getG_seven (t : Thread) : getG t 7 = ⟨false, 0xFF⟩ := rfl

/-- A write to `g7` is discarded (R107). -/
@[simp] theorem putG_seven (t : Thread) (g : Guard) : putG t 7 g = t := rfl

theorem getG_putG (t : Thread) (i : BitVec 3) (g : Guard) (h : i ≠ 7) : getG (putG t i g) i = g := by
  simp only [getG, putG, if_neg h]
  exact vector_get_set _ _ _ _

theorem getG_putG_ne (t : Thread) (i j : BitVec 3) (g : Guard) (h : j ≠ i) : getG (putG t i g) j = getG t j := by
  have h' : i.toNat ≠ j.toNat := fun e => h (BitVec.eq_of_toNat_eq e.symm)
  unfold putG getG
  split
  · rfl
  · split
    · rfl
    · exact vector_get_set_ne _ _ _ i.isLt j.isLt _ h'

/-! ## The parts of the device under a change of one of them -/

@[simp] theorem getCore_modCore (s : State) (k : Nat) (f : Core → Core) : getCore (modCore s k f) k = f (getCore s k) := by
  simp [modCore]

theorem getCore_modCore_ne (s : State) (k j : Nat) (f : Core → Core) (h : j ≠ k) : getCore (modCore s k f) j = getCore s j := by
  simp [modCore, getCore_setCore_ne s k j _ h]

@[simp] theorem getThread_modThread (s : State) (k : Nat) (i : Fin 16) (f : Thread → Thread) :
    getThread (modThread s k i f) k i = f (getThread s k i) := by
  simp [modThread]

@[simp] theorem refThread_modRef (s : State) (r : Ref) (f : Thread → Thread) : refThread (modRef s r f) r = f (refThread s r) := by
  simp [refThread, modRef]

@[simp] theorem getCtx?_setCtx (s : State) (n : Nat) (c : Context) : getCtx? (setCtx s n c) n = some c := by
  simp [getCtx?, setCtx]

theorem getCtx?_setCtx_ne (s : State) (n j : Nat) (c : Context) (h : j ≠ n) : getCtx? (setCtx s n c) j = getCtx? s j := by
  simp [getCtx?, setCtx, mapGet?_mapSet_ne _ _ _ _ h]

theorem modCtx_some {s : State} {n : Nat} {c : Context} (h : getCtx? s n = some c) (f : Context → Context) :
    modCtx s n f = setCtx s n (f c) := by
  simp [modCtx, h]

@[simp] theorem getCluster_setCluster (s : State) (k : Nat) (c : Cluster) : getCluster (setCluster s k c) k = c := by
  simp [getCluster, setCluster]

@[simp] theorem getDie_modDie (s : State) (k : Nat) (f : Die → Die) : getDie (modDie s k f) k = f (getDie s k) := by
  simp [getDie, modDie]

end Sys2Proof.Machine
end

