-- ==== Sys2Proof/Laws/Arrivals.lean ====
section
/-!
SUPPORT. What an arrival takes from the net, and what the message slot takes from its queue.
-/

namespace Sys2Proof.Machine

/-- A packet that no earlier one of its way precedes leaves the net, where its context is not SAVED. -/
theorem takeMsg_some {s : State} {msg : Nat} {p : Packet} (h : s.net[msg]? = some p) (hf : ∀ q ∈ s.net.take msg, wayOf q ≠ wayOf p)
    (hs : ctxSaved s (packetCtx p) = false) :
    takeMsg s msg = some (p, { s with net := s.net.eraseIdx msg }) := by
  have h2 : (s.net.take msg).any (fun q => wayOf q == wayOf p) = false := by
    simp only [List.any_eq_false, beq_iff_eq]
    exact hf
  simp [takeMsg, h, h2, hs]

/-- An arrival of a packet that may arrive is what its step makes of it; one of another kind changes nothing. -/
theorem onMsg_some {s : State} {msg : Nat} {p : Packet} (h : s.net[msg]? = some p) (hf : ∀ q ∈ s.net.take msg, wayOf q ≠ wayOf p)
    (hs : ctxSaved s (packetCtx p) = false) (f : Packet → State → Option State) : onMsg msg s f = .next ((f p { s with net := s.net.eraseIdx msg }).getD s) := by
  simp [onMsg, takeMsg_some h hf hs]

theorem onMsg_next (msg : Nat) (s : State) (f : Packet → State → Option State) : ∃ t, onMsg msg s f = .next t := by
  unfold onMsg
  split <;> exact ⟨_, rfl⟩

/-- The oldest message of a queue whose slot serves leaves it, where it did not arrive in this cycle. -/
theorem takeInq_some {s : State} {core : Nat} {m : Message} (h : slotServes s core = true) (hq : (getCore s core).inq.head? = some m)
    (ha : (getCore s core).arrived < (getCore s core).inq.length) :
    takeInq s core = some (m, modCore s core fun c => { c with inq := c.inq.tail }) := by
  cases hc : (getCore s core).inq with
  | nil => simp [hc] at hq
  | cons a r =>
    simp only [hc, List.head?_cons, Option.some.injEq] at hq
    subst hq
    have ha : (getCore s core).arrived ≤ r.length := by simpa [hc, Nat.lt_succ_iff] using ha
    simp [takeInq, h, hc, modCore, ha]

theorem onInq_next (core : Nat) (s : State) (f : Message → State → Option State) : ∃ t, onInq core s f = .next t := by
  unfold onInq
  split <;> exact ⟨_, rfl⟩

end Sys2Proof.Machine
end

