-- ==== Sys2Proof/Laws/Memory.lean ====
section
/-!
SUPPORT. Every operation that writes main memory keeps its canonical form, and a write is read back.
-/

namespace Sys2Proof.Machine

theorem memWrite_sound {s : State} (pa : Nat) (bs : List Byte) (h : Sound s) : Sound (memWrite s pa bs) := cellsSet_wf pa bs h

theorem foldl_cellSet_wf (cells : List Host.Cell) (pa : Nat) {m : List Host.Cell} (h : Memory.wf m = true) :
    Memory.wf (cells.foldl (fun m b => cellSet m (pa + b.1) b.2) m) = true := by
  induction cells generalizing m with
  | nil => exact h
  | cons c r ih => exact ih (cellSet_wf _ _ h)

theorem fillRange_wf {m : List Host.Cell} (pa n : Nat) (bytes : List Host.Cell) (h : Memory.wf m = true) :
    Memory.wf (fillRange m pa n bytes) = true :=
  foldl_cellSet_wf bytes pa (filter_wf _ h)

theorem dropLines_mem (s : State) (pa n : Nat) : (dropLines s pa n).mem = s.mem := rfl

theorem restoreFrame_sound {s : State} (l : Leaf) (frame : Nat) (cells : List Host.Cell) (h : Sound s) :
    Sound (restoreFrame s l frame cells) := by
  simp only [Sound, restoreFrame, dropLines_mem]
  split
  · exact fillRange_wf _ _ _ h
  · exact fillRange_wf _ _ _ (fillRange_wf _ _ _ h)

theorem clearedDevice_sound {s : State} (power : Bool) (h : Sound s) : Sound (clearedDevice s power) := filter_wf _ h

theorem reset_sound : Sound State.reset := rfl

/-- A write is read back, and every other byte stays. -/
theorem memBytes_memWrite (s : State) (pa : Nat) (bs : List Byte) : memBytes (memWrite s pa bs) pa bs.length = bs :=
  cellsGet_cellsSet s.mem pa bs

theorem memByte_memWrite_ne (s : State) (pa a : Nat) (bs : List Byte) (h : a < pa ∨ pa + bs.length ≤ a) :
    memByte (memWrite s pa bs) a = memByte s a :=
  cellGet_cellsSet_ne s.mem pa a bs h

end Sys2Proof.Machine
end

