-- ==== Sys2Proof/Laws/Run.lean ====
section
/-!
SUPPORT. What the shell of an instruction does: an instruction before which nothing stands has its effect, and the state
after it, by how it ends.
-/

namespace Sys2Proof.Machine

/-- Nothing stands before the instruction: the shell answers what its effect answers. -/
theorem runRes_of_runs {s : State} {u : Uses} (h : Runs s u) (body : State → Res) : runRes u s body = body s := by
  have hc : checkUses s u = none := by
    have e1 : ¬ (u.priv && !(curThread s).csr.sys) = true := by
      intro e
      rw [Bool.and_eq_true] at e
      simp [h.mode e.1] at e
    have e2 : ¬ (!usesDeclared s u) = true := by simp [h.declared]
    have e3 : ¬ (u.f64 && decide (coreIndex s.cur.1 ≠ 0)) = true := by
      intro e
      rw [Bool.and_eq_true] at e
      simp [h.f64 e.1] at e
    have e4 : ¬ (u.rounds && (curThread s).csr.rnd == 7) = true := by
      intro e
      rw [Bool.and_eq_true, beq_iff_eq] at e
      exact h.rounding e.1 e.2
    have e5 : ¬ (u.noMsg && inMsgSlot s || u.onlyMsg && !inMsgSlot s) = true := by
      intro e
      rw [Bool.or_eq_true, Bool.and_eq_true, Bool.and_eq_true] at e
      rcases e with e | e
      · simp [h.slot e.1] at e
      · simp [h.msgOnly e.1] at e
    simp only [checkUses, if_neg e1, h.csr, if_neg e2, if_neg e3, if_neg e4, if_neg e5]
  have hp : chainPorts s u = .go false false := by
    unfold chainPorts
    cases hch : (curThread s).csr.chain
    · simp only [hch, Bool.not_false, Bool.true_or, if_true]
    · cases hm : inMsgSlot s
      · have hn := h.ports hch hm
        have e1 : u.xr.contains 28 = false := Bool.eq_false_iff.2 fun e => hn.1 (List.contains_iff_mem.1 e)
        have e2 : (u.xw == some 29) = false := Bool.eq_false_iff.2 fun e => hn.2 (eq_of_beq e)
        simp only [e1, e2, Bool.false_and, Bool.or_self, Bool.false_eq_true, if_false, ite_self]
      · simp only [Bool.or_true, if_true]
  have hg : u.gs.any (fun g => (getG (curThread s) g).pending) = false := by
    rw [List.any_eq_false]
    intro g hg
    simp [h.guards g hg]
  simp [runRes, hc, hp, hg]

theorem run_of_runs {s : State} {u : Uses} (h : Runs s u) (len : Nat) (body : State → Res) :
    run len u s body = .next (finish len (body s)) := by
  rw [run, runRes_of_runs h]

theorem curRef_slot (s : State) : ((curRef s).slot = 15) ↔ inMsgSlot s = true := by
  simp [curRef, inMsgSlot]

theorem flagTrap_none {fl e : FFlags} (h : fl &&& e = 0) : flagTrap fl e = none := by
  simp [flagTrap, h]

@[simp] theorem flagTrap_zero (e : FFlags) : flagTrap 0 e = none := by
  simp [flagTrap]

theorem advance_putThread (s : State) (t : Thread) (len : Nat) : advance (putThread s t) len = moved s len t := by
  simp [advance, moved]

theorem modRef_moved (s : State) (len : Nat) (t : Thread) (f : Thread → Thread) :
    modRef (moved s len t) (curRef s) f = putThread s (f { t with pc := t.pc + wordOf len }) :=
  (modRef_curRef (moved s len t) f).trans (modCur_putThread s _ f)

theorem refThread_put (s : State) (t : Thread) : refThread (putThread s t) (curRef s) = t :=
  (refThread_curRef (putThread s t)).trans (curThread_putThread s t)

/-- An instruction that completes on its thread alone. -/
theorem finish_ok {s : State} {t : Thread} {fl : FFlags} (len : Nat) (he : t.csr.ftrapen = (curThread s).csr.ftrapen)
    (h : Untrapped s fl) : finish len (.ok (putThread s t) fl) = flagged s len t fl := by
  have key : finish len (.ok (putThread s t) fl) =
      if (curRef s).slot = 15 then flagged s len t fl
      else match flagTrap fl t.csr.ftrapen with
        | some c => takeTrap (flagged s len t fl) (curRef s) (t.pc + wordOf len) c (wordOf fl.toNat)
        | none => flagged s len t fl := by
    simp only [finish, advance_putThread, raiseFlags, modRef_moved, refThread_put, curRef_putThread]
    rfl
  rw [key]
  rcases h with h | h
  · rw [flagTrap_none (by rw [he]; exact h)]; simp
  · rw [if_pos ((curRef_slot s).2 h)]

theorem raiseFlags_moved_zero (s : State) (len : Nat) (t : Thread) : raiseFlags (moved s len t) (curRef s) 0 = moved s len t := by
  have key : raiseFlags (moved s len t) (curRef s) 0 =
      putThread s { t with pc := t.pc + wordOf len, csr := { t.csr with fflags := t.csr.fflags ||| 0 } } := by
    simp only [raiseFlags, modRef_moved, refThread_put, flagTrap_zero, ite_self]
  have e : t.csr.fflags ||| 0 = t.csr.fflags := BitVec.or_zero
  rw [key, e]
  rfl

/-- An instruction that completes without flags moves its thread on, and no more. -/
theorem finish_ok_adv (s : State) (len : Nat) : finish len (.ok s 0) = advance s len :=
  raiseFlags_moved_zero s len (curThread s)

theorem finish_ok_zero (s : State) (t : Thread) (len : Nat) : finish len (.ok (putThread s t) 0) = moved s len t := by
  rw [finish_ok_adv, advance_putThread]

theorem advance_send (s : State) (p : Packet) (len : Nat) : advance (send s p) len = send (advance s len) p := rfl

/-- An instruction that continues at an address. -/
theorem finish_goto (s : State) (t : Thread) (pc : Word) (len : Nat) :
    finish len (.goto (putThread s t) pc) = jumped s t pc := by
  simp [finish, jumped]

/-- An instruction on its thread alone, completing without flags. -/
theorem runT_ok {s : State} {u : Uses} (h : Runs s u) (len : Nat) (f : Thread → TRes) (t : Thread)
    (hf : f (curThread s) = .ok t 0) : runT len u s f = .next (moved s len t) := by
  rw [runT, run_of_runs h]
  simp only [liftT, hf]
  rw [finish_ok_zero]

theorem runT_flags {s : State} {u : Uses} (h : Runs s u) (len : Nat) (f : Thread → TRes) (t : Thread) (fl : FFlags)
    (hf : f (curThread s) = .ok t fl) (he : t.csr.ftrapen = (curThread s).csr.ftrapen) (hu : Untrapped s fl) :
    runT len u s f = .next (flagged s len t fl) := by
  rw [runT, run_of_runs h]
  simp only [liftT, hf]
  rw [finish_ok len he hu]

theorem runT_goto {s : State} {u : Uses} (h : Runs s u) (len : Nat) (f : Thread → TRes) (t : Thread) (pc : Word)
    (hf : f (curThread s) = .goto t pc) : runT len u s f = .next (jumped s t pc) := by
  rw [runT, run_of_runs h]
  simp only [liftT, hf]
  rw [finish_goto]

theorem regReg_ok {s : State} {d a b : BitVec 5} (len : Nat) (f : Word → Word → Word)
    (h : Runs s { xr := [a, b], xw := some d }) :
    regReg len d a b f s = .next (moved s len (setX (curThread s) d (f (getX (curThread s) a) (getX (curThread s) b)))) :=
  runT_ok h len _ _ rfl

theorem regOne_ok {s : State} {d a : BitVec 5} (len : Nat) (f : Word → Word) (h : Runs s { xr := [a], xw := some d }) :
    regOne len d a f s = .next (moved s len (setX (curThread s) d (f (getX (curThread s) a)))) :=
  runT_ok h len _ _ rfl

/-- A check that fails, or a thread's own trap, takes the trap and has no other effect. -/
theorem finish_trap (s : State) (len : Nat) (c : BitVec 8) (v : Word) :
    finish len (.trap s c v) = takeTrap s (curRef s) (curThread s).pc c v := rfl

theorem run_trap {s : State} {u : Uses} (h : Runs s u) (len : Nat) (body : State → Res) (c : BitVec 8) (v : Word)
    (hb : body s = .trap s c v) : run len u s body = .next (takeTrap s (curRef s) (curThread s).pc c v) := by
  rw [run_of_runs h, hb, finish_trap]

/-- Nothing stands before an instruction that names nothing, or a RESOLVED guard alone. -/
theorem runs_none (s : State) : Runs s {} :=
  ⟨by simp, rfl, by simp [usesDeclared], by simp, by simp, by simp, by simp, by simp, by simp⟩

theorem runs_guard {s : State} {g : BitVec 3} (h : (getG (curThread s) g).pending = false) : Runs s { gs := [g] } :=
  ⟨by simp, rfl, by simp [usesDeclared], by simp, by simp, by simp, by simp, by simp, by simpa using h⟩

/-- Every instruction's shell goes on: it never stops the machine. -/
theorem run_next (len : Nat) (u : Uses) (s : State) (body : State → Res) : ∃ t, run len u s body = .next t := ⟨_, rfl⟩

theorem runT_next (len : Nat) (u : Uses) (s : State) (f : Thread → TRes) : ∃ t, runT len u s f = .next t := ⟨_, rfl⟩

end Sys2Proof.Machine
end

