-- ==== Sys2Proof/Tests/Slice0.lean ====
section
/-!
SUPPORT. The model's own tests: ill-formed terms, words of the encodings, single steps on small states, and for each statement
with hypotheses, states and operands that meet them.
-/

namespace Sys2Proof

/-! ## Well-formedness: a term that each check refuses -/

theorem test_wf_extend : (Instr.sext 1 2 3).wf = false ∧ (Instr.zext 1 2 31).wf = false := by decide
theorem test_wf_field : (Instr.bext 1 2 32 32).wf = false ∧ (Instr.bexts 1 2 63 1).wf = false ∧ (Instr.bins 1 2 0 63).wf = true := by decide
theorem test_wf_bins : (Instr.bins 1 2 1 63).wf = false := by decide
theorem test_wf_lanes : (Instr.vadd 1 2 3 7 3).wf = false ∧ (Instr.vsub 1 2 3 7 3).wf = false ∧ (Instr.vmul 1 2 3 7 3).wf = false
    ∧ (Instr.vmulh 1 2 3 7 3).wf = false ∧ (Instr.vmulhn 1 2 3 7 3).wf = false ∧ (Instr.vand 1 2 3 7 3).wf = false
    ∧ (Instr.vor 1 2 3 7 3).wf = false ∧ (Instr.vxor 1 2 3 7 3).wf = false ∧ (Instr.vandn 1 2 3 7 3).wf = false
    ∧ (Instr.vshl 1 2 3 7 3).wf = false ∧ (Instr.vshr 1 2 3 7 3).wf = false ∧ (Instr.vsra 1 2 3 7 3).wf = false
    ∧ (Instr.vmin 1 2 3 7 3).wf = false ∧ (Instr.vmax 1 2 3 7 3).wf = false ∧ (Instr.vminn 1 2 3 7 3).wf = false
    ∧ (Instr.vmaxn 1 2 3 7 3).wf = false ∧ (Instr.vabs 1 2 7 3).wf = false ∧ (Instr.vneg 1 2 7 3).wf = false
    ∧ (Instr.vadds 1 2 3 7 3).wf = false ∧ (Instr.vsubs 1 2 3 7 3).wf = false := by decide
theorem test_wf_convert : (Instr.vcvt 1 2 7 0 5 5).wf = false ∧ (Instr.vcvt 1 2 7 1 0 6).wf = false
    ∧ (Instr.vcvt 1 2 7 1 3 0).wf = true := by decide
theorem test_wf_receive : (Instr.trecv 0 3).wf = false := by decide
theorem test_wf_zero : (Instr.movC 0 0).wf = false := by decide

/-! ## Words of the encodings, bit by bit from bit 31 down (R77 to R86, and each family's own table) -/

theorem test_decode_int : decode 0b0000100011_00101_00100_00011_000000_1 = .ok (.lea 3 4 5 3)
    ∧ decode 0b0000000011_00101_00100_00011_000001_1 = .ok (.mulhsu 3 4 5)
    ∧ decode 0b100000000000001_00100_00011_000101_1 = .ok (.xori 3 4 0x4001)
    ∧ decode 0b110_000000_011111_00100_00011_000110_1 = .ok (.sraiw 3 4 31)
    ∧ decode 0b010_000111_001001_00100_00011_000111_1 = .ok (.bins 3 4 9 7)
    ∧ decode 0b10000000000000000001_00011_001000_1 = .ok (.lui 3 0x80001)
    ∧ decode 0b01000000000000000001_00011_001001_1 = .ok (.addpc 3 0x40001) := ⟨rfl, rfl, rfl, rfl, rfl, rfl, rfl⟩

theorem test_decode_guard : decode 0b0000000010_00101_00100_10_011_001010_1 = .ok (.cmpLt 3 2 4 5)
    ∧ decode 0b001_100000000001_00100_10_011_001011_1 = .ok (.cmpiNe 3 2 4 0x801)
    ∧ decode 0b0000000010_00101_00100_00011_001100_1 = .ok (.gxor 3 4 5)
    ∧ decode 0b0000001110_00101_00100_00011_001100_1 = .ok (.sel 3 4 5 6) := ⟨rfl, rfl, rfl, rfl⟩

theorem test_decode_float : decode 0b00011_00110_00101_00100_00011_001101_1 = .ok (.fnmsubS 3 4 5 6)
    ∧ decode 0b0000110010_00000_00100_00011_001110_1 = .ok (.fcvtLSSat 3 4)
    ∧ decode 0b0000001011_00101_00100_00011_001110_1 = .ok (.faddD 3 4 5) := ⟨rfl, rfl, rfl⟩

theorem test_decode_jumps : decode 0b100000000001_101_00101_00100_001111_1 = .ok (.bcGeu 4 5 0x801)
    ∧ decode 0b10000000000000000001_00011_010000_1 = .ok (.jal 3 0x80001)
    ∧ decode 0b100000000000001_00100_00011_010001_1 = .ok (.jalr 3 4 0x4001)
    ∧ decode 0b00000000000000000001_000_10_010010_1 = .ok (.ptb 2 1)
    ∧ decode 0b0000000001_00000_00_101_000_10_010011_1 = .ok (.btn 2 5)
    ∧ decode 0b1_00101_00010_1111_0 = .ok (.btnC 2 5) := ⟨rfl, rfl, rfl, rfl, rfl, rfl⟩

theorem test_decode_memory : decode 0b100000001_101_110_00100_00011_010100_1 = .ok (.ldWu 3 4 6 0x101)
    ∧ decode 0b100000001_011_110_00100_00011_010101_1 = .ok (.st 3 4 6 3 0x101)
    ∧ decode 0b100000001_11_1_110_00100_00011_010110_1 = .ok (.ldsC 3 4 6 1 0x101)
    ∧ decode 0b100000001_10_1_110_00100_00011_010111_1 = .ok (.stfE 3 4 6 0 0x101)
    ∧ decode 0b0000000010_00_110_00100_00011_011000_1 = .ok (.fetest 3 4 6)
    ∧ decode 0b100000001_110_110_00100_00011_011001_1 = .ok (.ldvb 3 4 6 0x101)
    ∧ decode 0b000001_1_010_00_110_00100_00011_011010_1 = .ok (.ldxb 3 4 6 2 1)
    ∧ decode 0b000010_1_010_0101_0_00100_00011_011100_1 = .ok (.rfetch 3 4 5 2 1)
    ∧ decode 0b1_00101_00011_1100_0 = .error .field := ⟨rfl, rfl, rfl, rfl, rfl, rfl, rfl, rfl, rfl⟩

theorem test_decode_atomics : decode 0b111_10_00110_00101_00100_00011_011110_1 = .error .field
    ∧ decode 0b111_10_00110_00100_00100_00011_011110_1 = .ok (.atomCas 3 4 2 6 2)
    ∧ decode 0b101_01_00110_00101_00100_00011_011111_1 = .ok (.atomwMin 3 4 5 6 1)
    ∧ decode 0b100_11_00110_00101_00100_00011_100000_1 = .ok (.atomxFminD 3 4 5 6 3)
    ∧ decode 0b110_00_00110_00101_00100_00011_100000_1 = .error .func
    ∧ decode 0b00110_00000_00101_00100_00011_100001_1 = .ok (.xmaxe 3 4 5)
    ∧ decode 0b0000000010_00000_00100_00000_100010_1 = .ok (.fenceRel 4) := ⟨rfl, rfl, rfl, rfl, rfl, rfl, rfl⟩

theorem test_decode_vector : decode 0b00011_01_101_00101_00100_00011_100011_1 = .ok (.vmulh 3 4 5 5 1)
    ∧ decode 0b00011_11_101_00101_00100_00011_100011_1 = .error .func
    ∧ decode 0b001011_1_101_00000_00100_00011_100100_1 = .ok (.vexp2 3 4 5 1)
    ∧ decode 0b01_101_00110_00101_00100_00011_100101_1 = .ok (.vfms 3 4 5 6 5)
    ∧ decode 0b0111_000_101_00110_00101_10_011_100110_1 = .ok (.vcmpFlt 3 2 5 6 5)
    ∧ decode 0b0101_001_101_00101_00100_00011_100110_1 = .ok (.vshuf 3 4 5 5)
    ∧ decode 0b000_011_1_101_00000_00100_00011_100111_1 = .ok (.vcvt 3 4 5 1 3 0)
    ∧ decode 0b01_101_00110_00101_00100_00011_101001_1 = .ok (.vdot4i 3 4 5 6 5)
    ∧ decode 0b1_00101_00011_0001_0 = .ok (.vaddC 3 5) := ⟨rfl, rfl, rfl, rfl, rfl, rfl, rfl, rfl, rfl⟩

theorem test_decode_engines : decode 0b000110_1_010_0101_0_000_10_00_011_101000_1 = .ok (.mdrainr 3 2 5 2 1)
    ∧ decode 0b001000_0_111_00000_00100_00000_101000_1 = .ok (.mfmt 4)
    ∧ decode 0b000011_1_010_0101_0_00100_00011_101010_1 = .ok (.cpyb 3 4 5 2 1)
    ∧ decode 0b0000000010_00101_00100_00000_101011_1 = .ok (.hpass 4 5)
    ∧ decode 0b0000000011_00000_00100_00011_101100_1 = .ok (.prank 3 4)
    ∧ decode 0b000010_1_010_00101_00100_00_011_101101_1 = .ok (.mwait 3 4 5 2 1)
    ∧ decode 0b000011_1_010_00101_00100_10_000_101110_1 = .ok (.pnode 2 4 5 2 1) := ⟨rfl, rfl, rfl, rfl, rfl, rfl, rfl⟩

theorem test_decode_units : decode 0b0000000100_00000_00100_00011_101111_1 = .ok (.rstat 3 4)
    ∧ decode 0b0000000001_00010_00000_101_00_110000_1 = .ok (.trecv 5 2)
    ∧ decode 0b0000001001_00101_00100_00_011_110001_1 = .ok (.pxins 3 4 5)
    ∧ decode 0b000011_1_010_00101_00000_101_00_110010_1 = .ok (.fquad 5 5 2 1)
    ∧ decode 0b000100_1_010_00010_00000_00_011_110010_1 = .ok (.rframeClose 3 2 1)
    ∧ decode 0b000001_1_010_00000_00100_00011_110011_1 = .ok (.tsarm 3 4 2 1)
    ∧ decode 0b010_000000010011_00100_00011_110100_1 = .ok (.csrs 3 4 0x013)
    ∧ decode 0b0000000011_00000_00100_00_011_110101_1 = .ok (.segld 3 4)
    ∧ decode 0b0000000000_01111_00100_00000_110101_1 = .ok (.trap 4 15) := ⟨rfl, rfl, rfl, rfl, rfl, rfl, rfl, rfl, rfl⟩

end Sys2Proof

namespace Sys2Proof.Machine

set_option Elab.async false

/-! ## Small states -/

/-- A thread with values in some of its registers. -/
def withX (l : List (BitVec 5 × Word)) (t : Thread) : Thread := l.foldl (fun t p => setX t p.1 p.2) t

/-- A descriptor with all rights: base, limit, kind, and the target of a CORE segment. -/
def descOf (base limit kind target : Nat) : SegWord :=
  BitVec.ofNat 128 (base + limit * 2 ^ 56 + kind * 2 ^ 88 + 15 * 2 ^ 90 + target * 2 ^ 104)

/-- The bench: a context of one cluster, a page of memory at VA 0x10000, and a thread in slot 0 of core 0 in system mode, with
`seg1` its scratchpad, `seg2` the page, and `seg3` the scratchpad of core 1. -/
def benchCore (h : Core → Core) (f : Thread → Thread) : State :=
  let s := { placeProgram State.reset with agenda := [], cur := (programCore, 0) }
  modCore s programCore fun c => h (coreSetSlot c 0 (f { coreSlot c 0 with
    seg := (((coreSlot c 0).seg.set 1 (descOf 0 1024 0 0)).set 2 (descOf 0x10000 65536 2 0)).set 3 (descOf 0 1024 1 1) }))
def bench (f : Thread → Thread) : State := benchCore id f

/-- The same thread in user mode. -/
def userMode (t : Thread) : Thread := { t with csr := { t.csr with sys := false } }

/-- A guard PENDING. -/
def pend (g : BitVec 3) (t : Thread) : Thread := pendG t g

/-! ## Deciding the hypotheses -/

def runsB (s : State) (u : Uses) : Bool :=
  (!u.priv || (curThread s).csr.sys) && u.csr.isNone && usesDeclared s u && (!u.f64 || coreIndex s.cur.1 == 0)
    && (!u.rounds || (curThread s).csr.rnd != 7) && (!u.noMsg || !inMsgSlot s) && (!u.onlyMsg || inMsgSlot s)
    && (!(curThread s).csr.chain) && u.gs.all fun g => !(getG (curThread s) g).pending

theorem runs_of {s : State} {u : Uses} (h : runsB s u = true) : Runs s u := by
  simp only [runsB, Bool.and_eq_true] at h
  obtain ⟨⟨⟨⟨⟨⟨⟨⟨h1, h2⟩, h3⟩, h4⟩, h5⟩, h6⟩, h7⟩, h8⟩, h9⟩ := h
  refine ⟨?_, ?_, h3, ?_, ?_, ?_, ?_, ?_, ?_⟩
  · intro h; simpa [h] using h1
  · simpa using h2
  · intro h; simpa [h] using h4
  · intro h; simpa [h] using h5
  · intro h; simpa [h] using h6
  · intro h; simpa [h] using h7
  · intro h; simp [h] at h8
  · simpa using h9

def passesB (s : State) (sg : BitVec 3) (off : Word) (z need : Nat) (align : Bool) : Bool :=
  let d := getSeg (curThread s) sg
  hasRights (segRights d) need && decide (off.toNat + z ≤ segLimit d)
    && (segKind d != kindLocal || decide (segBase d + off.toNat + z ≤ curSP s))
    && (segKind d != kindGlobal || decide (segBase d + off.toNat + z ≤ 2 ^ 56))
    && (!align || (segBase d + off.toNat) % z == 0)
    && (!hasRights need needS || segKind d != kindGlobal || z == 8)

theorem passes_of {s : State} {sg : BitVec 3} {off : Word} {z need : Nat} {align : Bool}
    (h : passesB s sg off z need align = true) : Passes s sg off z need align := by
  simp only [passesB, Bool.and_eq_true, Bool.or_eq_true, bne_iff_ne, beq_iff_eq, decide_eq_true_eq, Bool.not_eq_true'] at h
  obtain ⟨⟨⟨⟨⟨h1, h2⟩, h3⟩, h4⟩, h5⟩, h6⟩ := h
  refine ⟨h1, h2, ?_, ?_, ?_, ?_⟩
  · intro h; exact h3.resolve_left (fun k => k h)
  · intro h; exact h4.resolve_left (fun k => k h)
  · intro h; exact h5.resolve_left (by simp [h])
  · intro h k; rcases h6 with (h6 | h6) | h6
    · simp [h] at h6
    · exact absurd k h6
    · exact h6

/-- What a computation comes to, with a property of it. -/
theorem ok_of {ε α : Type} {x : Except ε α} {p : α → Bool}
    (h : (match x with
      | .ok a => p a
      | .error _ => false) = true) : ∃ a, x = .ok a ∧ p a = true := by
  cases x with
  | ok a => exact ⟨a, rfl, h⟩
  | error _ => exact nomatch h

theorem some_of {α : Type} {x : Option α} {p : α → Bool}
    (h : (match x with
      | some a => p a
      | none => false) = true) : ∃ a, x = some a ∧ p a = true := by
  cases x with
  | some a => exact ⟨a, rfl, h⟩
  | none => exact nomatch h

/-! ## States and operands that meet the hypotheses of the statements -/

theorem witness_ScalarResult : ∃ i c s, scalarOf i = some c ∧ Runs s c.uses :=
  ⟨.add 3 1 2, _, bench id, rfl, runs_of (by decide)⟩

/-- A thread with CHAIN set, an upstream thread, a word in its queue, and a downstream thread. -/
def chained (w : List Word) (up down : Option Ref) (t : Thread) : Thread :=
  { t with csr := { t.csr with chain := true }, up := up, down := down, chainIn := w }

theorem witness_ChainPorts : ∃ i c s up down, scalarOf i = some c ∧ (curThread s).csr.chain = true ∧ inMsgSlot s = false
    ∧ usesDeclared s c.uses = true ∧ (∀ g ∈ c.uses.gs, (getG (curThread s) g).pending = false) ∧ 28#5 ∈ c.uses.xr ∧ c.dest = 29#5
    ∧ (curThread s).up = some up ∧ (curThread s).chainIn = [5] ∧ (curThread s).down = some down ∧ (curThread s).unacked = 0
    ∧ chainRoom s (curThread s) = true :=
  ⟨.add 29 28 2, _, bench (chained [5] (some ⟨programCore, 1⟩) (some ⟨programCore, 2⟩)), ⟨programCore, 1⟩, ⟨programCore, 2⟩, rfl, by decide,
    by decide, by decide,
    by decide, by decide, by decide, by decide, by decide, by decide, by decide, by decide⟩

theorem witness_ChainPorts_waits :
    (∃ i c s, scalarOf i = some c ∧ (curThread s).csr.chain = true ∧ inMsgSlot s = false ∧ usesDeclared s c.uses = true
      ∧ 28#5 ∈ c.uses.xr ∧ (curThread s).up = none)
    ∧ (∃ i c s, scalarOf i = some c ∧ (curThread s).csr.chain = true ∧ inMsgSlot s = false ∧ usesDeclared s c.uses = true
      ∧ 28#5 ∉ c.uses.xr ∧ c.dest = 29#5 ∧ (curThread s).down = none)
    ∧ (∃ i c s, scalarOf i = some c ∧ (curThread s).csr.chain = true ∧ inMsgSlot s = false ∧ usesDeclared s c.uses = true
      ∧ 28#5 ∈ c.uses.xr ∧ (curThread s).up ≠ none ∧ (curThread s).chainIn = [] ∧ c.dest ≠ 29#5)
    ∧ ∃ i c s, scalarOf i = some c ∧ (curThread s).csr.chain = true ∧ inMsgSlot s = false ∧ usesDeclared s c.uses = true
      ∧ 28#5 ∉ c.uses.xr ∧ c.dest = 29#5 ∧ (curThread s).down ≠ none ∧ (curThread s).unacked ≠ 0 :=
  ⟨⟨.add 3 28 2, _, bench (chained [] none none), rfl, by decide, by decide, by decide, by decide, by decide⟩,
    ⟨.add 29 1 2, _, bench (chained [] none none), rfl, by decide, by decide, by decide, by decide, by decide, by decide⟩,
    ⟨.add 3 28 2, _, bench (chained [] (some ⟨programCore, 1⟩) none), rfl, by decide, by decide, by decide, by decide, by decide,
      by decide, by decide⟩,
    ⟨.add 29 1 2, _, bench fun t => { chained [] none (some ⟨programCore, 2⟩) t with unacked := 1 }, rfl, by decide, by decide,
      by decide, by decide, by decide, by decide, by decide⟩⟩

theorem witness_FloatResult : ∃ i c s, floatOf i = some c ∧ Runs s c.uses ∧ Untrapped s (c.value (curThread s)).2 :=
  ⟨.faddS 3 1 2, _, bench id, rfl, runs_of (by decide), .inl (by decide)⟩

theorem witness_FloatTrap : ∃ i c s, floatOf i = some c ∧ Runs s c.uses ∧ inMsgSlot s = false
    ∧ (c.value (curThread s)).2 &&& (curThread s).csr.ftrapen ≠ 0 :=
  ⟨.fdivS 3 1 2, _, bench fun t => { t with csr := { t.csr with ftrapen := 31 } }, rfl, runs_of (by decide), by decide, by decide⟩

/-- The bench on core 1, which lacks the F64 extension. -/
def elsewhere (f : Thread → Thread) : State :=
  let s := bench id
  { setCore s (programCore + 1) (coreSetSlot (getCore s programCore) 0 (f (coreSlot (getCore s programCore) 0))) with
    cur := (programCore + 1, 0) }

theorem witness_CheckTraps :
    (∃ i c s, scalarOf i = some c ∧ usesDeclared s c.uses = false)
    ∧ (∃ i c s, floatOf i = some c ∧ c.uses.rounds = true ∧ usesDeclared s c.uses = true ∧ c.uses.f64 = false
      ∧ (curThread s).csr.rnd = 7)
    ∧ (∃ i c s, floatOf i = some c ∧ c.uses.f64 = true ∧ coreIndex s.cur.1 ≠ 0 ∧ usesDeclared s c.uses = true
      ∧ (curThread s).csr.tm = true)
    ∧ (∃ i c s k, floatOf i = some c ∧ c.uses.f64 = true ∧ coreIndex s.cur.1 ≠ 0 ∧ usesDeclared s c.uses = true
      ∧ inMsgSlot s = false ∧ (curThread s).csr.tm = false ∧ f64Target s = some k ∧ canLeave (curThread s) = true)
    ∧ (∃ s : State, (curThread s).csr.sys = false) :=
  ⟨⟨.add 8 1 2, _, benchCore (fun c => { c with part := 0x4C0 }) id, rfl, by decide⟩,
    ⟨.faddS 3 1 2, _, bench fun t => { t with csr := { t.csr with rnd := 7 } }, rfl, by decide, by decide, by decide, by decide⟩,
    ⟨.faddD 3 1 2, _, elsewhere fun t => { t with csr := { t.csr with tm := true } }, rfl, by decide, by decide, by decide, by decide⟩,
    ⟨.faddD 3 1 2, _, elsewhere id, programCore, rfl, by decide, by decide, by decide, by decide, by decide, by decide +kernel, by decide⟩,
    ⟨bench userMode, by decide⟩⟩

theorem witness_CsrTraps : (0x00D ∉ csrTable ∧ 0xFFF ∉ csrTable) ∧ (0x000 ∈ csrTable ∧ 0x032 ∈ csrTable)
    ∧ (0x010 ∈ csrTable ∧ 0x013 ∈ csrTable)
    ∧ ∃ s, (curThread s).csr.sys = true ∧ Runs s { xw := some 3 } ∧ Runs s { xr := [1], xw := some 3 } :=
  ⟨by decide, by decide, by decide, bench id, by decide, runs_of (by decide), runs_of (by decide)⟩

theorem witness_GuardResult : ∃ i c s, guardOf i = some c ∧ Runs s c.uses ∧ Untrapped s (c.value (curThread s)).2 :=
  ⟨.cmpEq 2 1 1 2, _, bench id, rfl, runs_of (by decide), .inl (by decide)⟩

theorem witness_GuardResult_waits :
    (∃ s : State, inMsgSlot s = false ∧ (curThread s).csr.chain = false ∧ usesDeclared s { xr := [1, 2], xw := some 3 } = true
      ∧ (getG (curThread s) 2).pending = true) ∧ ∃ s : State, (getG (curThread s) 2).pending = false :=
  ⟨⟨bench (pend 2), by decide, by decide, by decide, by decide⟩, ⟨bench id, by decide⟩⟩

theorem witness_ControlResult : (∃ i a b o c s, branchOf i = some (a, b, o, c) ∧ Runs s { xr := [a, b] })
    ∧ (∃ s, Runs s { xw := some 3 } ∧ Runs s { xr := [4], xw := some 3 } ∧ Runs s { xr := [4] })
    ∧ (∃ s : State, (getG (curThread s) 2).pending = false)
    ∧ ∃ s : State, inMsgSlot s = false ∧ (getG (curThread s) 2).pending = true :=
  ⟨⟨.bcEq 1 2 0x801, 1, 2, 0x801, _, bench id, rfl, runs_of (by decide)⟩,
    ⟨bench id, runs_of (by decide), runs_of (by decide), runs_of (by decide)⟩, ⟨bench id, by decide⟩,
    ⟨bench (pend 2), by decide, by decide⟩⟩

theorem witness_ControlResult_undeclared : ∃ s : State, usesDeclared s { xr := [1, 8] } = false ∧ usesDeclared s { xw := some 8 } = false
    ∧ usesDeclared s { xr := [1], xw := some 31 } = false ∧ usesDeclared s { xr := [31] } = false :=
  ⟨benchCore (fun c => { c with part := 0x4C0 }) id, by decide, by decide, by decide, by decide⟩

theorem witness_VectorResult : ∃ i c s, vecOf i = some c ∧ Runs s c.uses ∧ Untrapped s (lanesOf c (curThread s)).2.1 :=
  ⟨.vadd 1 2 3 7 0, _, bench id, rfl, runs_of (by decide), .inl (by decide)⟩

theorem witness_LaneRule : ∃ w n : Nat, 0 < w ∧ w * n ≤ 256 := ⟨32, 8, by decide, by decide⟩

theorem witness_VectorOther :
    (∃ s, Runs s { vs := [1, 2], gs := [7], rounds := true } ∧ Untrapped s 0)
    ∧ (∃ i g k a b m c s, laneTest i = some (g, k, a, b, m, c) ∧ Runs s { vs := [a.toNat, b.toNat], gs := [m, g] })
    ∧ ∃ s, Runs s { xr := [2], xw := some 3, vs := [1] } ∧ Runs s { xw := some 3, vs := [1], gs := [7] }
      ∧ Runs s { xw := some 3, vs := [1], gs := [7], rounds := true } :=
  ⟨⟨bench id, runs_of (by decide), .inl (by decide)⟩, ⟨.vcmpFlt 2 1 1 2 7, 2, 1, 1, 2, 7, _, bench id, rfl, runs_of (by decide)⟩,
    ⟨bench id, runs_of (by decide), runs_of (by decide), runs_of (by decide)⟩⟩

theorem witness_CsrResult : ∃ s, CsrOpen s 0x013 true ∧ Runs s { xr := [1], xw := some 3 } ∧ CsrOpen s 0x025 false
    ∧ Runs s { xw := some 3 } ∧ inMsgSlot s = false ∧ ∃ x, getCtx? s (curCtx s) = some x :=
  ⟨bench id, ⟨by decide, by decide, by decide⟩, runs_of (by decide), ⟨by decide, by decide, by decide⟩, runs_of (by decide),
    by decide, Option.isSome_iff_exists.mp (by decide +kernel)⟩

theorem witness_TrapEntry : ∃ (s : State) (r : Ref), r.slot < 15 ∧ (refThread s r).csr.tm = false ∧ (refThread s r).phase ≠ .halted :=
  ⟨bench id, ⟨programCore, 0⟩, by decide, by decide, by decide⟩

theorem witness_TrapEntry_others : (∃ (s : State) (r : Ref), r.slot < 15 ∧ (refThread s r).csr.tm = true)
    ∧ ∃ (s : State) (r : Ref), r.slot = 15 :=
  ⟨⟨bench fun t => { t with csr := { t.csr with tm := true } }, ⟨programCore, 0⟩, by decide, by decide⟩,
    ⟨bench id, ⟨programCore, 15⟩, by decide⟩⟩

theorem witness_SystemResult : (∃ s, Runs s { xr := [1] } ∧ inMsgSlot s = false ∧ (curThread s).csr.tm = false)
    ∧ (∃ s : State, inMsgSlot s = false ∧ (curThread s).csr.tm = true) ∧ ∃ s : State, inMsgSlot s = true :=
  ⟨⟨bench id, runs_of (by decide), by decide, by decide⟩,
    ⟨bench fun t => { t with csr := { t.csr with tm := true } }, by decide, by decide⟩,
    ⟨{ bench id with cur := (programCore, 15) }, by decide⟩⟩


/-! ## Supervisor instructions -/

/-- A context record with PAGER. -/
def delegating (s : State) : State := modCtx s 1 fun c => { c with record := c.record ||| (1#1024 <<< 176) }

/-- A synchronising access that waits for the first word of the page. -/
def waitOne : FutureWait := ⟨⟨programCore, 0⟩, 0x180000 / 8, 0, 3, 0, 0x10000, 0⟩

theorem witness_SupervisorResult_faults :
    (∃ (g : BitVec 3) (a : BitVec 5) (die : Nat) (r : FaultRec) (s : State), (getX (curThread s) a).toNat = die ∧ die < 8
      ∧ Runs s { xr := [a], xs := groupRegs g, priv := true, noMsg := true } ∧ delegated s = true
      ∧ (getDie s die).faults.find? (·.ctx == curCtx s) = some r ∧ (curThread s).unacked = 0)
    ∧ (∀ l ∈ [[], [(0, [waitOne])]], ∃ s, Runs s { xr := [1, 2], priv := true, noMsg := true }
      ∧ getX (curThread s) 2 = 1 ∧ (curThread s).unacked = 0
      ∧ translatedWaits s (curCtx s) none = (if l.isEmpty then [] else [waitOne.who]))
    ∧ ∀ l ∈ [[], [(0, [waitOne])]], ∃ s, Runs s { xr := [1, 2], priv := true, noMsg := true }
      ∧ getX (curThread s) 2 = 0 ∧ (getX (curThread s) 1).toNat < 2 ^ 56
      ∧ translatedWaits s (curCtx s) (some (getX (curThread s) 1).toNat) = (if l.isEmpty then [] else [waitOne.who]) :=
  let r : FaultRec := ⟨1, 0x20000, 0, 0, 1, 0x20, 0, 0⟩
  ⟨⟨2, 1, 7, r, modDie (delegating (bench (withX [(1, 7)]))) 7 fun d => { d with faults := [{ r with ctx := 2 }, r] },
      by decide +kernel, by decide, runs_of (by decide +kernel), by decide +kernel, by decide +kernel, by decide +kernel⟩,
    by
      intro l hl
      simp only [List.mem_cons, List.not_mem_nil, or_false] at hl
      refine ⟨{ bench (withX [(2, 1)]) with waits := l }, ?_⟩
      rcases hl with rfl | rfl <;> exact ⟨runs_of (by decide +kernel), by decide +kernel, by decide +kernel, by decide +kernel⟩,
    by
      intro l hl
      simp only [List.mem_cons, List.not_mem_nil, or_false] at hl
      refine ⟨{ bench (withX [(1, 0x10000)]) with waits := l }, ?_⟩
      rcases hl with rfl | rfl <;> exact ⟨runs_of (by decide +kernel), by decide +kernel, by decide +kernel, by decide +kernel⟩⟩

/-- Entry 0 of the segment table: grant for seg4, and a descriptor of kind GLOBAL. -/
def tabled (s : State) : State :=
  memWrite s 0x190000 (leBytes 16 (0x10000 + 4096 * 2 ^ 56 + 2 * 2 ^ 88 + 3 * 2 ^ 90) ++ leBytes 8 (1 + 2 ^ 12))

theorem witness_SupervisorResult_segments :
    (∃ (c : Context) (s : State), getCtx? s (curCtx s) = some c ∧ Runs s { xr := [1], noMsg := true }
      ∧ (getX (curThread s) 1).toNat < ctxSegcnt c ∧ memPoisoned s (ctxSegtab c) 32 = false
      ∧ fieldOf (wordOf (memNat s (ctxSegtab c + 16) 8)) 0 1 = 1 ∧ fieldOf (wordOf (memNat s (ctxSegtab c + 16) 8)) (8 + 4) 1 = 1
      ∧ fieldOf (wordOf (memNat s (ctxSegtab c + 16) 8)) 1 1 ≠ 1
      ∧ descriptorOk s (curCtx s) (BitVec.ofNat 128 (memNat s (ctxSegtab c) 16)) = true)
    ∧ ∃ s, Runs s { xr := [1], xw := some 2, priv := true } ∧ (getX (curThread s) 1).toNat = 2 :=
  ⟨by
    have h := some_of (x := getCtx? (tabled (bench id)) (curCtx (tabled (bench id))))
      (p := fun c => ctxSegcnt c == 1 && ctxSegtab c == 0x190000) (by decide +kernel)
    obtain ⟨c, hc, hp⟩ := h
    rw [Bool.and_eq_true, beq_iff_eq, beq_iff_eq] at hp
    refine ⟨c, tabled (bench id), hc, runs_of (by decide +kernel), ?_⟩
    rw [hp.1, hp.2]
    decide +kernel,
  ⟨bench (withX [(1, 2)]), runs_of (by decide +kernel), by decide +kernel⟩⟩

/-- The page of the bench with another state and count of pins. -/
def repage (st pins fmt : Nat) (s : State) : State :=
  memWrite s 0x130010 (leBytes 8 (programPage + st * 2 ^ 13 + (if fmt = 0 then 0x5E else 0x4E) + pins * 2 ^ 56) ++ leBytes 8 fmt)

theorem witness_SupervisorResult_pins :
    let s := bench (withX [(1, 0x1FFFF)])
    Runs s { xr := [1], xw := some 2, priv := true, noMsg := true } ∧ (getX (curThread s) 1).toNat < 2 ^ 56
    ∧ (∃ l, rawLeaf s (curCtx s) (getX (curThread s) 1).toNat = some l ∧ (ptePins l.base < 255 && pteState l.base == stResident) = true)
    ∧ ∃ l, rawLeaf (repage 3 254 0 s) (curCtx s) (getX (curThread s) 1).toNat = some l
      ∧ (ptePins l.base == 254 && pteState l.base == stPinned) = true :=
  ⟨runs_of (by decide +kernel), by decide +kernel, some_of (by decide +kernel), some_of (by decide +kernel)⟩

/-! ## Loads and stores -/

theorem witness_SegmentCheck : (∃ s, Passes s 1 1016 8 needR true) ∧ (∃ s, ¬ Passes s 1 1017 8 needR true)
    ∧ ∃ s, Passes s 2 0xFFF8 8 (needR ||| needS) true :=
  ⟨⟨bench id, passes_of (by decide +kernel)⟩, ⟨bench id, fun h => absurd h.limit (by decide +kernel)⟩,
    ⟨bench id, passes_of (by decide +kernel)⟩⟩

theorem witness_LoadResult_here : ∃ i c s, loadOf i = some c ∧ Runs s c.uses ∧ segKind (getSeg (curThread s) c.sg) = kindLocal
    ∧ Passes s c.sg (c.off (curThread s)) c.size needR true ∧ selfPending s = false
    ∧ poolPoisoned (curCore s) (addressOf s c.sg (c.off (curThread s))) c.size = false :=
  ⟨.ldD 3 1 1 0x1FF, _, bench (withX [(1, 1024)]), rfl, runs_of (by decide +kernel), by decide +kernel,
    passes_of (by decide +kernel), by decide +kernel, by decide +kernel⟩

theorem witness_LoadResult_elsewhere :
    (∃ i c s, loadOf i = some c ∧ Runs s c.uses ∧ inMsgSlot s = false
      ∧ Passes s c.sg (c.off (curThread s)) c.size needR true ∧ segKind (getSeg (curThread s) c.sg) = kindCore
      ∧ portShut s (coreKey (curCtx s) (segTarget (getSeg (curThread s) c.sg))) = false)
    ∧ ∃ i c s, loadOf i = some c ∧ Runs s c.uses ∧ inMsgSlot s = false ∧ Passes s c.sg (c.off (curThread s)) c.size needR true
      ∧ segKind (getSeg (curThread s) c.sg) = kindGlobal
      ∧ ∃ r, viewRead s (curView s) (addressOf s c.sg (c.off (curThread s))) c.size accLoad = .ok r
        ∧ (r.2.2.length == 32 && r.1.net.isEmpty && !ctxSaved r.1 (curCtx r.1)) = true :=
  ⟨⟨.ldB 3 1 3 0, _, bench (withX [(1, 1023)]), rfl, runs_of (by decide +kernel), by decide +kernel, passes_of (by decide +kernel),
      by decide +kernel, by decide +kernel⟩,
    ⟨.ldv 3 1 2 0, _, bench (withX [(1, 0xFFE0)]), rfl, runs_of (by decide +kernel), by decide +kernel,
      passes_of (by decide +kernel), by decide +kernel, ok_of (by decide +kernel)⟩⟩

theorem witness_StoreFrame : ∃ i c s, storeOf i = some c ∧ Runs s c.uses ∧ segKind (getSeg (curThread s) c.sg) = kindLocal
    ∧ Passes s c.sg (c.off (curThread s)) (c.bytes (curThread s)).length needW true ∧ selfPending s = false :=
  ⟨.st 3 1 1 3 0x1FF, _, bench (withX [(1, 1024)]), rfl, runs_of (by decide +kernel), by decide +kernel,
    passes_of (by decide +kernel), by decide +kernel⟩

theorem witness_StoreResult_here : ∃ i c s, storeOf i = some c ∧ Runs s c.uses ∧ segKind (getSeg (curThread s) c.sg) = kindLocal
    ∧ Passes s c.sg (c.off (curThread s)) (c.bytes (curThread s)).length needW true ∧ selfPending s = false :=
  ⟨.stvh 3 1 1 0, _, bench id, rfl, runs_of (by decide +kernel), by decide +kernel, passes_of (by decide +kernel), by decide +kernel⟩

theorem witness_StoreResult_elsewhere :
    (∃ i c s, storeOf i = some c ∧ Runs s c.uses ∧ Passes s c.sg (c.off (curThread s)) (c.bytes (curThread s)).length needW true
      ∧ segKind (getSeg (curThread s) c.sg) = kindCore ∧ (curThread s).unacked < 65535
      ∧ portShut s (coreKey (curCtx s) (segTarget (getSeg (curThread s) c.sg))) = false)
    ∧ ∃ i c s, storeOf i = some c ∧ Runs s c.uses ∧ Passes s c.sg (c.off (curThread s)) (c.bytes (curThread s)).length needW true
      ∧ segKind (getSeg (curThread s) c.sg) = kindGlobal
      ∧ ∃ r, viewWrite s (curView s) (addressOf s c.sg (c.off (curThread s))) accStore false (c.bytes (curThread s)) = .ok r
        ∧ r.power = true :=
  ⟨⟨.st 3 1 3 0 0, _, bench fun t => { withX [(1, 1023)] t with unacked := 65534 }, rfl, runs_of (by decide +kernel),
      passes_of (by decide +kernel), by decide +kernel, by decide +kernel, by decide +kernel⟩,
    ⟨.st 3 1 2 2 0, _, bench (withX [(1, 0xFFFC)]), rfl, runs_of (by decide +kernel), passes_of (by decide +kernel),
      by decide +kernel, ok_of (by decide +kernel)⟩⟩

/-- A core whose first granules are full. -/
def fulls (n : Nat) (c : Core) : Core := (List.range n).foldl (fun c g => setFull c g true) c

theorem witness_SyncLoadResult :
    (∃ s, segKind (getSeg (curThread s) 1) = kindLocal ∧ selfPending s = false ∧ Runs s { xr := [1], xw := some 3 }
      ∧ Passes s 1 (getX (curThread s) 1 + scaled (0 : BitVec 9) 8) 8 (needR ||| needS) true
      ∧ isFull (curCore s) (addressOf s 1 (getX (curThread s) 1 + scaled (0 : BitVec 9) 8) / 16) = true
      ∧ poolPoisoned (curCore s) (addressOf s 1 (getX (curThread s) 1 + scaled (0 : BitVec 9) 8)) 8 = false
      ∧ Runs s { xr := [2], vs := [3] } ∧ Passes s 1 (getX (curThread s) 2 + scaled (0 : BitVec 9) 32) 32 (needR ||| needS) true
      ∧ isFull (curCore s) 1 = true ∧ poolPoisoned (curCore s) 0 32 = false)
    ∧ ∃ s, segKind (getSeg (curThread s) 1) = kindLocal ∧ inMsgSlot s = false ∧ Runs s { xr := [1], xw := some 3 }
      ∧ Passes s 1 (getX (curThread s) 1 + scaled (0 : BitVec 9) 4) 4 (needR ||| needS) true
      ∧ isFull (curCore s) (addressOf s 1 (getX (curThread s) 1 + scaled (0 : BitVec 9) 4) / 16) = false :=
  ⟨⟨benchCore (fulls 2) (withX [(1, 8)]), by decide +kernel, by decide +kernel, runs_of (by decide +kernel),
      passes_of (by decide +kernel), by decide +kernel, by decide +kernel, runs_of (by decide +kernel),
      passes_of (by decide +kernel), by decide +kernel, by decide +kernel⟩,
    ⟨bench (withX [(1, 1020)]), by decide +kernel, by decide +kernel, runs_of (by decide +kernel), passes_of (by decide +kernel),
      by decide +kernel⟩⟩

theorem witness_SyncStoreResult : ∃ s, segKind (getSeg (curThread s) 1) = kindLocal ∧ selfPending s = false ∧ Released s
    ∧ Runs s { xr := [1, 3] } ∧ Passes s 1 (getX (curThread s) 1 + scaled (0 : BitVec 9) 4) 4 (needW ||| needS) true
    ∧ isFull (curCore s) (addressOf s 1 (getX (curThread s) 1 + scaled (0 : BitVec 9) 4) / 16) = false
    ∧ Runs s { xr := [2], vs := [3] } ∧ Passes s 1 (getX (curThread s) 2 + scaled (0 : BitVec 9) 32) 32 (needW ||| needS) true :=
  ⟨benchCore (fulls 1) (withX [(1, 1020)]), by decide +kernel, by decide +kernel, (by decide +kernel : _ = _),
    runs_of (by decide +kernel), passes_of (by decide +kernel), by decide +kernel, runs_of (by decide +kernel),
    passes_of (by decide +kernel)⟩

theorem witness_SyncStoreResult_bits : ∃ s, segKind (getSeg (curThread s) 1) = kindLocal ∧ selfPending s = false
    ∧ Runs s { xr := [1] } ∧ Passes s 1 (getX (curThread s) 1) 16 (needW ||| needS) false ∧ Released s
    ∧ Passes s 1 (getX (curThread s) 1) 16 (needR ||| needS) false ∧ Runs s { xr := [1], xw := some 3 }
    ∧ isFull (curCore s) (addressOf s 1 (getX (curThread s) 1) / 16) = true
    ∧ ∃ s', Passes s' 1 (getX (curThread s') 1) 16 (needR ||| needS) false
      ∧ isFull (curCore s') (addressOf s' 1 (getX (curThread s') 1) / 16) = false :=
  ⟨benchCore (fulls 64) (withX [(1, 1003)]), by decide +kernel, by decide +kernel, runs_of (by decide +kernel),
    passes_of (by decide +kernel), (by decide +kernel : _ = _), passes_of (by decide +kernel), runs_of (by decide +kernel),
    by decide +kernel, bench (withX [(1, 1008)]), passes_of (by decide +kernel), by decide +kernel⟩

/-- A state whose word of memory is full. -/
def fullWord (s : State) (w : Nat) : State := setWordFull s w true

theorem witness_FutureResult :
    (∃ s, segKind (getSeg (curThread s) 2) = kindGlobal ∧ Runs s { xr := [1], xw := some 3 }
      ∧ Passes s 2 (getX (curThread s) 1 + scaled (0 : BitVec 9) 8) 8 (needR ||| needS) true
      ∧ (∃ r, futureWord s ⟨2, 0, 0x1FFF8, 0, 2, 0xFFF8⟩ false = .ok r
        ∧ (!inMsgSlot r.1 && wordFull r.1 r.2 && !memPoisoned r.1 (8 * r.2) 8) = true))
    ∧ (∃ s, segKind (getSeg (curThread s) 2) = kindGlobal ∧ Runs s { xr := [1], xw := some 3 }
      ∧ (∃ r, futureWord s ⟨2, 0, 0x1FFF8, 0, 2, 0xFFF8⟩ false = .ok r
        ∧ (!inMsgSlot r.1 && !wordFull r.1 r.2 && decide ((mapGet r.1.waits (homeSlice (8 * r.2)) []).length < 4096)) = true))
    ∧ ∃ s, Runs s { xr := [1, 3] } ∧ Released s ∧ Passes s 2 (getX (curThread s) 1 + scaled (0 : BitVec 9) 8) 8 (needW ||| needS) true
      ∧ (∃ r, futureWord s ⟨2, 0, 0x1FFF8, 0, 2, 0xFFF8⟩ true = .ok r ∧ (!inMsgSlot r.1 && !wordFull r.1 r.2) = true)
      ∧ ∀ need ∈ [needR, needW], ∃ q, fePlace s 2 (getX (curThread s) 1) need = .ok q
        ∧ (q.kind == kindGlobal && q.sg == 2 && match futureWord s q (need == needW) with
          | .ok r => !inMsgSlot r.1
          | .error _ => false) = true :=
  ⟨⟨fullWord (bench (withX [(1, 0xFFF8)])) (0x18FFF8 / 8), by decide +kernel, runs_of (by decide +kernel),
      passes_of (by decide +kernel), ok_of (by decide +kernel)⟩,
    ⟨bench (withX [(1, 0xFFF8)]), by decide +kernel, runs_of (by decide +kernel), ok_of (by decide +kernel)⟩,
    ⟨bench (withX [(1, 0xFFF8)]), runs_of (by decide +kernel), (by decide +kernel : _ = _), passes_of (by decide +kernel),
      ok_of (by decide +kernel), by
        intro need h
        rcases (by simpa using h : need = needR ∨ need = needW) with rfl | rfl <;> exact ok_of (by decide +kernel)⟩⟩

theorem witness_SyncLoadResult_pair : ∃ s, segKind (getSeg (curThread s) 1) = kindLocal ∧ inMsgSlot s = false
    ∧ Runs s { xr := [1], vs := [3] } ∧ Passes s 1 (getX (curThread s) 1 + scaled (0 : BitVec 9) 32) 32 (needR ||| needS) true
    ∧ isFull (curCore s) (addressOf s 1 (getX (curThread s) 1 + scaled (0 : BitVec 9) 32) / 16) = true
    ∧ isFull (curCore s) (addressOf s 1 (getX (curThread s) 1 + scaled (0 : BitVec 9) 32) / 16 + 1) = false :=
  ⟨benchCore (fulls 63) (withX [(1, 992)]), by decide +kernel, by decide +kernel, runs_of (by decide +kernel),
    passes_of (by decide +kernel), by decide +kernel, by decide +kernel⟩

/-! ## Formats, atomics, cells and messages -/

/-- The word of an address in a segment. -/
def addrIn (sg off : Nat) : Word := BitVec.ofNat 64 (sg * 2 ^ 61 + off)

theorem witness_FormatResult_load :
    (∃ s, gateOpen (curThread s) 7 0 = true ∧ Runs s { xr := [1], vs := [3], gs := [7], rounds := true }
      ∧ ∃ r, ((formatPlace s 2 (getX (curThread s) 1) needR 8 accLoad).bind fun p =>
          ((readTranslated p.1 (curView p.1) p.2.2.1.addr p.2.2.2 (elemBytes (pteFmt p.2.1.fmt) 8)).mapError fun e => (p.1, e)).bind fun q =>
          ((readScale q.1 p.2.1 p.2.2.1.addr p.2.2.2).mapError fun e => (q.1, e)).map fun x => (p, q, x)) = .ok r
        ∧ (r.2.1.2.length == 16 && r.2.2.1.net.isEmpty && !ctxSaved r.2.2.1 (curCtx r.2.2.1) && r.1.2.2.1.sg == 2
          && pteFmt r.1.2.1.fmt != 7) = true)
    ∧ (∃ s, gateOpen (curThread s) 7 0 = true ∧ ∃ r, ((formatPlace s 2 (getX (curThread s) 1) needR 16 accLoad).bind fun p =>
          ((readTranslated p.1 (curView p.1) p.2.2.1.addr p.2.2.2 (elemBytes (pteFmt p.2.1.fmt) 16)).mapError fun e => (p.1, e)).bind fun q =>
          ((readScale q.1 p.2.1 p.2.2.1.addr p.2.2.2).mapError fun e => (q.1, e)).map fun x => (p, q, x)) = .ok r
        ∧ (r.2.1.2.length == 16 && r.2.2.1.net.isEmpty && !ctxSaved r.2.2.1 (curCtx r.2.2.1) && r.1.2.2.1.sg == 2
          && pteFmt r.1.2.1.fmt != 7) = true)
    ∧ (∃ s, gateOpen (curThread s) 7 0 = true ∧ ∃ r, ((formatPlace s 2 (getX (curThread s) 1) needR 8 accLoad).bind fun p =>
          ((readTranslated p.1 (curView p.1) p.2.2.1.addr p.2.2.2 (elemBytes (pteFmt p.2.1.fmt) 8)).mapError fun e => (p.1, e)).bind fun q =>
          ((readScale q.1 p.2.1 p.2.2.1.addr p.2.2.2).mapError fun e => (q.1, e)).map fun x => (p, q, x)) = .ok r
        ∧ (pteFmt r.1.2.1.fmt == 7 && codebookPoisoned r.2.2.1 (curCtx r.2.2.1) (pteCb r.1.2.1.fmt)) = true)
    ∧ ∃ s, gateOpen (curThread s) 7 1 = false ∧ Runs s { xr := [1], vs := [3], gs := [7], rounds := true } :=
  ⟨⟨repage 1 0 (2 * 2 ^ 60) (bench (withX [(1, 0xFFF0)])), by decide +kernel, runs_of (by decide +kernel), ok_of (by decide +kernel)⟩,
    ⟨repage 1 0 (4 * 2 ^ 60 + 0x180) (bench (withX [(1, 0xFFC0)])), by decide +kernel, ok_of (by decide +kernel)⟩,
    ⟨{ repage 1 0 (7 * 2 ^ 60 + 0x180) (bench (withX [(1, 0xFFC0)])) with poisoned := [27648] }, by decide +kernel, ok_of (by decide +kernel)⟩,
    ⟨bench id, by decide +kernel, runs_of (by decide +kernel)⟩⟩

theorem witness_FormatResult_store :
    (∃ s, gateOpen (curThread s) 7 0 = true ∧ Runs s { xr := [1], vs := [4, 5, 6, 7], gs := [7], rounds := true }
      ∧ ∃ r, ((formatPlace s 2 (getX (curThread s) 1) needW 32 accStore).bind fun p =>
          ((writeLines p.1 (curView p.1) p.2.2.1.addr p.2.2.2 (List.replicate (elemBytes (pteFmt p.2.1.fmt) 32) 0) 4).mapError
            fun e => (p.1, e)).map fun x => (p, x)) = .ok r
        ∧ (pteFmt r.1.2.1.fmt == 4 && isBacked r.1.1 (scalePa r.1.2.1 r.1.2.2.1.addr r.1.2.2.2)) = true)
    ∧ (∃ s, Runs s { xr := [1], gs := [7] } ∧ Passes s 2 (getX (curThread s) 1) 1 needR true
      ∧ ∃ r, translate s s.cur.1 (addressOf s 2 (getX (curThread s) 1)) accLoad (curThread s).csr.sys = .ok r
        ∧ (pteState r.2.1.base != stEvicting && !memPoisoned r.1 r.2.2 1) = true)
    ∧ ∃ s, Runs s { xr := [1], gs := [7] } ∧ segKind (getSeg (curThread s) 1) ≠ kindGlobal :=
  ⟨⟨repage 1 0 (4 * 2 ^ 60 + 0x180) (bench (withX [(1, 0xFFE0)])), by decide +kernel, runs_of (by decide +kernel),
      ok_of (by decide +kernel)⟩,
    ⟨bench (withX [(1, 0xFFFF)]), runs_of (by decide +kernel), passes_of (by decide +kernel), ok_of (by decide +kernel)⟩,
    ⟨bench id, runs_of (by decide +kernel), by decide +kernel⟩⟩

theorem witness_AtomicMemory : ∃ i c s, atomOf i = some c ∧ Runs s c.uses ∧ scopeDefined s (curCtx s) c.scope = true
    ∧ (c.releases = true → (curThread s).unacked = 0)
    ∧ ∃ r, atomPlace s (getX (curThread s) c.a) c.z = .ok r
      ∧ (r.2.p.kind == kindGlobal && !inMsgSlot r.1 && !(curThread r.1).csr.trailAtoms && !memPoisoned r.1 r.2.pa c.z && r.1.net.isEmpty) = true :=
  ⟨.atomAdd 3 1 2 1 3, _, bench (withX [(1, addrIn 2 0xFFF8)]), rfl, runs_of (by decide +kernel), by decide +kernel,
    fun _ => by decide +kernel, ok_of (by decide +kernel)⟩

theorem witness_AtomicResult :
    (∃ i c s p, atomOf i = some c ∧ Runs s c.uses ∧ scopeDefined s (curCtx s) c.scope = true
      ∧ (c.releases = true → (curThread s).unacked = 0) ∧ Addresses s (getX (curThread s) c.a) c.z kindLocal p
      ∧ selfPending s = false ∧ poolPoisoned (curCore s) p c.z = false
      ∧ Untrapped s (c.flags (leNat (poolBytes (curCore s) p c.z)) (c.operand (curThread s))))
    ∧ (∃ i c s, atomOf i = some c ∧ Runs s c.uses ∧ scopeDefined s (curCtx s) c.scope = false)
    ∧ ∃ i c s, atomOf i = some c ∧ Runs s c.uses ∧ scopeDefined s (curCtx s) c.scope = true
      ∧ fieldOf (getX (curThread s) c.a) 56 5 ≠ 0 :=
  ⟨⟨.atomwCas 3 1 2 0 1, _, bench (withX [(1, addrIn 1 1020)]), 1020, rfl, runs_of (by decide +kernel), by decide +kernel,
      fun _ => by decide +kernel, ⟨by decide +kernel, by decide +kernel, passes_of (by decide +kernel), by decide +kernel⟩,
      by decide +kernel, by decide +kernel, .inl (by decide +kernel)⟩,
    ⟨.atomAdd 3 1 2 31 0, _, bench id, rfl, runs_of (by decide +kernel), by decide +kernel⟩,
    ⟨.atomxMinu 3 1 2 0 0, _, bench (withX [(1, addrIn 1 (2 ^ 56))]), rfl, runs_of (by decide +kernel), by decide +kernel,
      by decide +kernel⟩⟩

theorem witness_CellResult : ∃ s, Addresses s (getX (curThread s) 1) 32 kindLocal 992 ∧ selfPending s = false
    ∧ Runs s { xr := [1, 2] } ∧ poolPoisoned (curCore s) 992 32 = false ∧ Untrapped s 0 ∧ Runs s { xr := [1, 2, 3] }
    ∧ Runs s { xr := [1], xw := some 3, rounds := true } ∧ Runs s { xr := [1, 2], xw := some 3 }
    ∧ Untrapped s (cellReads .fp32 (nextRounding (curThread s)) (bytesVal 256 (poolBytes (curCore s) 992 32))).2
    ∧ Untrapped s (cellReads .fp64 (nextRounding (curThread s)) (bytesVal 256 (poolBytes (curCore s) 992 32))).2 :=
  ⟨bench (withX [(1, addrIn 1 992)]), ⟨by decide +kernel, by decide +kernel, passes_of (by decide +kernel), by decide +kernel⟩,
    by decide +kernel, runs_of (by decide +kernel), by decide +kernel, .inl (by decide +kernel), runs_of (by decide +kernel),
    runs_of (by decide +kernel), runs_of (by decide +kernel), .inl (by decide +kernel), .inl (by decide +kernel)⟩

theorem witness_CellOrder : [Sum.inl (decodeNum .fp32 0xFF800000), Sum.inr ((5 : Word), (0x8000 : BitVec 16))].Perm
    [Sum.inr ((5 : Word), (0x8000 : BitVec 16)), Sum.inl (decodeNum .fp32 0xFF800000)] := List.Perm.swap _ _ _

theorem witness_OrderResult_fences : (∃ s, Runs s {} ∧ scopeDefined s (curCtx s) 3 = true ∧ (curThread s).unacked = 0)
    ∧ (∃ s, Runs s {} ∧ scopeDefined s (curCtx s) 1 = true ∧ (curThread s).unacked ≠ 0 ∧ inMsgSlot s = false)
    ∧ ∃ s, Runs s {} ∧ scopeDefined s (curCtx s) 31 = false :=
  ⟨⟨bench id, runs_of (by decide +kernel), by decide +kernel, by decide +kernel⟩,
    ⟨bench fun t => { t with unacked := 1 }, runs_of (by decide +kernel), by decide +kernel, by decide +kernel, by decide +kernel⟩,
    ⟨bench id, runs_of (by decide +kernel), by decide +kernel⟩⟩

/-- The bench with a handler in the message slot of its core. -/
def handling (m : Message) (f : Thread → Thread) : State :=
  let s := benchCore id id
  { modThread s programCore 15 fun t => f { t with
      phase := .handling, current := some m, csr := { t.csr with sys := true } } with cur := (programCore, 15) }

theorem witness_OrderResult_messages :
    (∃ s, gateOpen (curThread s) 7 0 = true ∧ (curThread s).unacked = 0 ∧ (namedCore s (getX (curThread s) 1)).isSome = true ∧ portFull s s.cur.1 = false
      ∧ Runs s { xr := [3, 1, 30], xs := [31], gs := [7] } ∧ Runs s { xr := [3, 1, 30], xw := some 3, xs := [31], gs := [7], noMsg := true }
      ∧ inMsgSlot s = false)
    ∧ ∃ s m, gateOpen (curThread s) 7 0 = true ∧ (curThread s).unacked = 0 ∧ Runs s { xr := [1], gs := [7], onlyMsg := true }
      ∧ (curThread s).current = some m :=
  ⟨⟨bench (withX [(1, 15)]), by decide +kernel, by decide +kernel, by decide +kernel, by decide +kernel, runs_of (by decide +kernel),
      runs_of (by decide +kernel), by decide +kernel⟩,
    ⟨handling ⟨⟨programCore + 1, 0⟩, .user 0x10000 1 2 true⟩ id, ⟨⟨programCore + 1, 0⟩, .user 0x10000 1 2 true⟩, by decide +kernel,
      by decide +kernel, runs_of (by decide +kernel), by decide +kernel⟩⟩

theorem witness_FormatResult_nothing :
    (∃ s, Runs s { xr := [1], gs := [7] } ∧ gateOpen (curThread s) 7 1 = false)
    ∧ (∃ s, Runs s { xr := [1], gs := [7] } ∧ ¬ Passes s 2 (getX (curThread s) 1) 1 needR true)
    ∧ (∃ s, Runs s { xr := [1], gs := [7] } ∧ Passes s 2 (getX (curThread s) 1) 1 needR true
      ∧ (match translate s s.cur.1 (addressOf s 2 (getX (curThread s) 1)) accLoad (curThread s).csr.sys with
        | .ok _ => false
        | .error _ => true) = true)
    ∧ (∃ s, Runs s { xr := [1], gs := [7] } ∧ ∃ r, translate s s.cur.1 (addressOf s 2 (getX (curThread s) 1)) accLoad (curThread s).csr.sys = .ok r
      ∧ (pteState r.2.1.base == stEvicting) = true)
    ∧ ∃ s, Runs s { xr := [1], gs := [7] } ∧ Passes s 2 (getX (curThread s) 1) 1 needR true
      ∧ ∃ r, translate s s.cur.1 (addressOf s 2 (getX (curThread s) 1)) accLoad (curThread s).csr.sys = .ok r
        ∧ (pteState r.2.1.base != stEvicting && memPoisoned r.1 r.2.2 1) = true :=
  ⟨⟨bench id, runs_of (by decide +kernel), by decide +kernel⟩,
    ⟨bench (withX [(1, 0x10000)]), runs_of (by decide +kernel), fun h => absurd h.limit (by decide +kernel)⟩,
    ⟨repage 6 0 0 (bench (withX [(1, 0xFFFF)])), runs_of (by decide +kernel), passes_of (by decide +kernel), by decide +kernel⟩,
    ⟨repage 4 0 0 (bench (withX [(1, 0xFFFF)])), runs_of (by decide +kernel), ok_of (by decide +kernel)⟩,
    ⟨{ bench (withX [(1, 0xFFFF)]) with poisoned := [0x18FFFF / 64] }, runs_of (by decide +kernel), passes_of (by decide +kernel),
      ok_of (by decide +kernel)⟩⟩

/-- What AtomicAt asks of a state for an atomic of the last word of the page, at DEVICE scope. -/
def atomicAtB (s : State) (p : State → AtomPlace → Bool) : Bool :=
  match atomPlace s (addrIn 2 0xFFF8) 8 with
  | .ok (s₁, q) => q.p.kind == kindGlobal && !inMsgSlot s₁ && (curThread s₁).unacked == 0 && (curThread s₁).csr.trailAtoms
    && isDevice s₁ q.pa && scopeWide s₁ s₁.cur.1 3 && !memPoisoned s₁ q.pa 8 && p s₁ q
  | .error _ => false

/-- The bench with ATOMS set and a Trail in a mode, whose pages start at the page of the bench. -/
def atomTrail (mode : Nat) (h : Trail → Trail) : State :=
  modCtx (bench fun t => { withX [(1, addrIn 2 0xFFF8)] t with csr := { t.csr with trailAtoms := true } }) 1 fun c =>
    { c with record := c.record ||| (0x10000#1024 <<< 448), trail := h { c.trail with mode := mode, pages := 1 } }

/-- The entry of the bench's atomic, at the given position of its word. -/
def trailKey (n : Nat) : BitVec 128 := BitVec.ofNat 128 (n * 2 ^ 48 + (0x1FFF8 / 8) * 2 ^ 71 + 2 * 2 ^ 124)

/-- The places of the index whose entries are the bench's, and the position of its word. -/
def trailFinds (s : State) (l : List Nat) (seq : Nat) : Bool :=
  atomicAtB s fun s₁ q => match getCtx? s₁ (curCtx s₁) with
    | some x => x.trail.mode == 2 && (mapGet x.trail.positions (q.pa / 8) 0).toNat == seq
      && ((List.range 3).filter fun n => (x.trail.index[n]?).any fun e =>
        (e &&& ~~~(127#128 <<< 64)) == trailKey (fieldOf e 48 16) && !x.trail.consumed.contains n) == l
    | none => false

theorem witness_AtomicTrail : (∃ c, atomOf (.atomAdd 3 1 2 3 3) = some c ∧ c.scope = 3 ∧ ∀ s ∈ [atomTrail 1 id, atomTrail 2 id], Runs s c.uses)
    ∧ (atomicAtB (atomTrail 1 id) fun s₁ _ => (trailAppend s₁ 1 1 (trailKey 0)).isSome) = true
    ∧ (∀ b ∈ [true, false], (atomicAtB (memWrite (atomTrail 1 fun tr => { tr with exhausted := b }) 0x180008 (leBytes 8 4092)) fun s₁ _ =>
      (trailAppend s₁ 1 1 (trailKey 0)).isNone) = true)
    ∧ trailFinds (atomTrail 2 fun tr => { tr with index := [trailKey 1, trailKey 0, trailKey 5], consumed := [0] }) [1, 2] 0 = true
    ∧ trailFinds (atomTrail 2 fun tr => { tr with index := [trailKey 1] }) [0] 0 = true
    ∧ trailFinds (atomTrail 2 fun tr => { tr with index := [0] }) [] 0 = true := by
  refine ⟨⟨_, rfl, rfl, ?_⟩, ?_, ?_, ?_, ?_, ?_⟩
  · intro s h
    rcases (by simpa using h : s = atomTrail 1 id ∨ s = atomTrail 2 id) with rfl | rfl <;> exact runs_of (by decide +kernel)
  all_goals decide +kernel

theorem witness_CellResult_memory : ∃ s, Runs s { xr := [1, 2, 3] } ∧ Runs s { xr := [1, 2] } ∧ Runs s { xr := [1], xw := some 3, rounds := true }
    ∧ Runs s { xr := [1, 2], xw := some 3 } ∧ (∃ r, atomPlace s (getX (curThread s) 1) 32 = .ok r
      ∧ (r.2.p.kind == kindGlobal && !memPoisoned r.1 r.2.pa 32 && !inMsgSlot r.1) = true)
    ∧ ∃ r, atomPlace { s with poisoned := [0x18FFE0 / 64] } (getX (curThread s) 1) 32 = .ok r
      ∧ (r.2.p.kind == kindGlobal && memPoisoned r.1 r.2.pa 32) = true :=
  ⟨bench (withX [(1, addrIn 2 0xFFE0)]), runs_of (by decide +kernel), runs_of (by decide +kernel), runs_of (by decide +kernel),
    runs_of (by decide +kernel), ok_of (by decide +kernel), ok_of (by decide +kernel)⟩

/-- What CoreAt asks besides what an instruction uses and asks first. -/
def coreAtB (s : State) (c : CoreForm) : Bool :=
  let p := c.at_ (curThread s)
  segKind (getSeg (curThread s) p.1) == kindCore && passesB s p.1 p.2 c.size c.need c.align && (curThread s).unacked == 0 
    && !portShut s (coreKey (curCtx s) (segTarget (getSeg (curThread s) p.1)))
    && !inMsgSlot s && runsB s c.uses

theorem coreAt_of {s : State} {c : CoreForm} (r : c.ready s) (h : coreAtB s c = true) : CoreAt s c ∧ inMsgSlot s = false := by
  simp only [coreAtB, Bool.and_eq_true, beq_iff_eq, Bool.not_eq_true'] at h
  obtain ⟨⟨⟨⟨⟨h1, h2⟩, h3⟩, h4⟩, h5⟩, h6⟩ := h
  exact ⟨⟨runs_of h6, r, h1, passes_of h2, fun _ => h3, h4⟩, h5⟩

theorem witness_OrderResult_core :
    (∃ i c s, coreOf i = some c ∧ CoreAt s c ∧ c.answer = some (.sync 3 4) ∧ inMsgSlot s = false)
    ∧ (∃ i c s, coreOf i = some c ∧ CoreAt s c ∧ c.answer = some (.atom 3 4 true 1) ∧ inMsgSlot s = false)
    ∧ (∃ i c s, coreOf i = some c ∧ CoreAt s c ∧ c.answer = none ∧ (curThread s).unacked < 65535 ∧ Untrapped s (c.flags (curThread s)))
    ∧ ∃ i c s, coreOf i = some c ∧ CoreAt s c ∧ c.answer = none ∧ (curThread s).unacked < 65535 ∧ Untrapped s (c.flags (curThread s)) :=
  ⟨⟨.ldsC 3 1 3 0 0, _, bench (withX [(1, 1020)]), rfl, by exact And.left (coreAt_of trivial (by decide +kernel)), rfl, by decide +kernel⟩,
    ⟨.atomwMax 3 1 2 1 3, _, bench (withX [(1, addrIn 3 1020)]), rfl, by exact And.left (coreAt_of ⟨by decide +kernel, by decide +kernel⟩ (by decide +kernel)),
      rfl, by decide +kernel⟩,
    ⟨.feset 1 3, _, bench (withX [(1, 1003)]), rfl, by exact And.left (coreAt_of trivial (by decide +kernel)), rfl, by decide +kernel, .inl (by decide +kernel)⟩,
    ⟨.marrive 1 2 7 0, _, bench (withX [(1, addrIn 3 1008)]), rfl,
      by exact And.left (coreAt_of ⟨by decide +kernel, by decide +kernel, trivial⟩ (by decide +kernel)), rfl, by decide +kernel, .inl (by decide +kernel)⟩⟩

theorem witness_OrderResult_musters :
    (∃ s, inMsgSlot s = false ∧ fieldOf (getX (curThread s) 2) 0 16 ≠ 0 ∧ fieldOf (getX (curThread s) 2) 21 11 = 0
      ∧ scopeDefined s (curCtx s) (fieldOf (getX (curThread s) 2) 16 5) = true
      ∧ Runs s { xr := [1, 2], gs := [7] } ∧ fieldOf (getX (curThread s) 1) 56 5 = 0 ∧ gateOpen (curThread s) 7 0 = true
      ∧ Passes s 3 (wordPlace 1 (curThread s)).2 16 (needW + needA) true ∧ (wordPlace 1 (curThread s)).1 = 3 ∧ (curThread s).unacked = 0)
    ∧ ∃ s, inMsgSlot s = false ∧ (∀ d ∈ [7, 2], ∀ l ∈ [[1], [1, 2]], Runs s { xr := l, gs := [7, d], noMsg := true })
      ∧ (getX (curThread s) 2).toNat ≤ 1 ∧ (curThread s).asyncWaits = 3 ∧ (wordPlace 1 (curThread s)).1 = 3
      ∧ Passes s 3 (wordPlace 1 (curThread s)).2 16 (needA + needS) true ∧ (curThread s).unacked = 0 :=
  ⟨⟨bench (withX [(1, addrIn 3 1008), (2, BitVec.ofNat 64 (0xFFFF + 3 * 2 ^ 16))]), by decide +kernel, by decide +kernel, by decide +kernel,
      by decide +kernel, runs_of (by decide +kernel), by decide +kernel, by decide +kernel, passes_of (by decide +kernel), by decide +kernel,
      by decide +kernel⟩,
    ⟨bench fun t => { withX [(1, addrIn 3 1008), (2, 1)] t with asyncWaits := 3 }, by decide +kernel, by
        intro d hd l hl
        have hd : d = 7 ∨ d = 2 := by simpa using hd
        have hl : l = [1] ∨ l = [1, 2] := by simpa using hl
        rcases hd with rfl | rfl <;> rcases hl with rfl | rfl <;> exact runs_of (by decide +kernel),
      by decide +kernel, by decide +kernel, by decide +kernel, passes_of (by decide +kernel), by decide +kernel⟩⟩

/-! ## Engines -/

/-- A queued matrix command, and a queued copy, that has been let go. -/
def matCmd (op : MatOp) : MatCmd := ⟨op, .go, 0xFF, .none, false, false, 0, false⟩
def copyCmd (op : CopyOp) (len : Nat) (started : Bool) : CopyCmd := ⟨op, .go, 0xFF, none, 0, len, 0, started, 0, 0, none, none, [], false, none, .none, 0, false⟩

theorem witness_MatIssue :
    (∃ i c s, matOf (curCtx s) i = some c ∧ Runs s c.uses ∧ c.ok s ∧ (curThread s).matq.length < 2 ∧ c.guard = none
      ∧ (curThread s).unacked = 0)
    ∧ (∃ i c s, matOf (curCtx s) i = some c ∧ Runs s c.uses ∧ c.ok s ∧ c.guard = some 2 ∧ (getG (curThread s) 2).pending = false
      ∧ (curThread s).matq.length < 2 ∧ (curThread s).unacked = 0)
    ∧ (∃ i c s, matOf (curCtx s) i = some c ∧ Runs s c.uses ∧ c.ok s ∧ c.guard = some 3 ∧ (getG (curThread s) 3).pending = false
      ∧ (curThread s).matq.length < 2 ∧ (curThread s).unacked = 0)
    ∧ (∃ i c s, matOf (curCtx s) i = some c ∧ Runs s c.uses ∧ c.ok s ∧ (curThread s).unacked ≠ 0)
    ∧ (∃ i c s, matOf (curCtx s) i = some c ∧ Runs s c.uses ∧ c.ok s ∧ 2 ≤ (curThread s).matq.length)
    ∧ ∃ i c s, matOf (curCtx s) i = some c ∧ Runs s c.uses ∧ c.ok s ∧ c.guard = some 2 ∧ (getG (curThread s) 2).pending = true := by
  refine ⟨⟨.mlda 3 1 2 7 0, _, bench (withX [(1, 512), (2, BitVec.ofNat 64 (8 + 32 * 2 ^ 16))] ∘ fun t => setV t 3
      (BitVec.ofNat 256 (7 + 6 * 2 ^ 32))), rfl, runs_of (by decide +kernel), ?_, by decide +kernel, rfl, by decide +kernel⟩,
    ⟨.mdrain 2 3 1 7 0, _, bench (withX [(1, BitVec.ofNat 64 (768 + 32 * 2 ^ 16))]), rfl, runs_of (by decide +kernel), ?_, rfl,
      by decide +kernel, by decide +kernel, by decide +kernel⟩,
    ⟨.mdrainr 3 0 15 7 0, _, bench (withX [(30, BitVec.ofNat 64 (32 * 2 ^ 16)), (31, 15)]), rfl, runs_of (by decide +kernel), ?_, rfl,
      by decide +kernel, by decide +kernel, by decide +kernel⟩,
    ⟨.mma 1 7 0, _, bench fun t => { t with unacked := 1 }, rfl, runs_of (by decide +kernel), trivial, by decide +kernel⟩,
    ⟨.mgang 0 1 7 0, _, bench fun t => { withX [(1, 0x1FF)] t with matq := [matCmd (.mma 0), matCmd (.mma 1)] }, rfl,
      runs_of (by decide +kernel), ?_, by decide +kernel⟩,
    ⟨.mdrain 2 0 1 7 0, _, bench (pend 2 ∘ withX [(1, BitVec.ofNat 64 (32 * 2 ^ 16))]), rfl, runs_of (by decide +kernel), ?_, rfl,
      by decide +kernel⟩⟩
  · refine ⟨?_, ?_, ?_, ?_, ?_, ?_, ?_, ?_, ?_⟩ <;> decide +kernel
  · refine ⟨?_, ?_⟩ <;> decide +kernel
  · exact ⟨by decide +kernel, by decide +kernel, (some_of (p := fun c => inGrid c 15) (by decide +kernel)).elim fun c h => ⟨c, h.1, h.2⟩⟩
  · show _ < _; decide +kernel
  · refine ⟨?_, ?_⟩ <;> decide +kernel

theorem witness_MatForbidden : ∃ s, inMsgSlot s = true
    ∧ (∃ u, matUses (curCtx s) (.mma 1 7 0) = some u ∧ u.acc = some 1 ∧ u.rounds = false)
    ∧ (∃ u, matUses (curCtx s) (.mstat 15) = some u ∧ u.xw = some 15)
    ∧ (∃ u, matUses (curCtx s) (.mfmt 16) = some u ∧ u.xr = [16])
    ∧ (∃ u, matUses (curCtx s) (.mlda 4 1 2 7 0) = some u ∧ u.vs = [4])
    ∧ ∃ u, matUses (curCtx s) (.mdrain 2 3 1 7 0) = some u ∧ u.rounds = true ∧ (curThread s).csr.rnd = 7 :=
  ⟨handling ⟨⟨programCore + 1, 0⟩, .user 0x10000 1 2 false⟩ fun t => { t with csr := { t.csr with rnd := 7 } }, by decide +kernel,
    ⟨_, rfl, rfl, rfl⟩, ⟨_, rfl, rfl⟩, ⟨_, rfl, rfl⟩, ⟨_, rfl, rfl⟩, ⟨_, rfl, rfl, by decide +kernel⟩⟩

theorem witness_MatSettings :
    (∃ s, Runs s { xr := [1], noMsg := true, mat := true } ∧ fieldOf (getX (curThread s) 1) 0 3 = 4 ∧ fieldOf (getX (curThread s) 1) 3 3 = 4
      ∧ fieldOf (getX (curThread s) 1) 6 2 = 0 ∧ fieldOf (getX (curThread s) 1) 24 40 = 0)
    ∧ (∃ s, Runs s { xr := [1], noMsg := true, mat := true } ∧ 4 < fieldOf (getX (curThread s) 1) 0 3)
    ∧ (∃ s, Runs s { xw := some 3, noMsg := true, mat := true } ∧ (curThread s).matq.length = 2)
    ∧ (∃ s, Runs s { xw := some 3, noMsg := true, mat := true } ∧ (curThread s).matq = [])
    ∧ ∃ s, Runs s { xr := [1, 2], gs := [7], noMsg := true, mat := true } ∧ gateOpen (curThread s) 7 0 = true ∧ (getX (curThread s) 1).toNat < 256
      ∧ (getX (curThread s) 2).toNat % 16 = 0 ∧ (getX (curThread s) 2).toNat + 32 ≤ curSP s ∧ selfPending s = false
      ∧ (curThread s).unacked = 0 ∧ poolPoisoned (curCore s) (getX (curThread s) 2).toNat 32 = false
      ∧ (getCtx? s (curCtx s)).isSome = true
      ∧ codebookOk (bytesVal 256 (poolBytes (curCore s) (getX (curThread s) 2).toNat 32)) = true :=
  ⟨⟨bench (withX [(1, 0xFF3F24)]), runs_of (by decide +kernel), by decide +kernel, by decide +kernel, by decide +kernel, by decide +kernel⟩,
    ⟨bench (withX [(1, 5)]), runs_of (by decide +kernel), by decide +kernel⟩,
    ⟨bench fun t => { t with matq := [matCmd (.mma 0), matCmd (.mma 1)] }, runs_of (by decide +kernel), by decide +kernel⟩,
    ⟨bench id, runs_of (by decide +kernel), by decide +kernel⟩,
    ⟨bench (withX [(1, 255), (2, 992)]), runs_of (by decide +kernel), by decide +kernel, by decide +kernel, by decide +kernel,
      by decide +kernel, by decide +kernel, by decide +kernel, by decide +kernel, by decide +kernel, by decide +kernel⟩⟩

/-- The bench with commands at the head of slot 0's matrix queue. -/
def mats (q : List MatCmd) (f : Thread → Thread) : State := bench fun t => f { t with matq := q }

/-- The heads that the matrix steps serve. -/
theorem witness_EngineSteps_heads :
    (∀ q ∈ [matCmd (.zero 3), matCmd (.load false 0 8 32 [0, 1, 2, 3, 4, 5, 6, 7] 0 0), matCmd (.load true 0 8 32 [7] 0 0),
        matCmd (.mma 0), matCmd (.drain 2 0 (BitVec.ofNat 64 (32 * 2 ^ 16)) none 0 0 0),
        matCmd (.drain 2 0 (BitVec.ofNat 64 (32 * 2 ^ 16)) (some programCore) 0 0 0), { matCmd (.zero 3) with gate := .drop },
        { matCmd (.gang 3 1 false) with gate := .drop }, { matCmd (.drain 2 0 0 none 0 0 0) with gate := .drop }],
      matNext (mats [q] id) programCore = some 0 ∧ matHead (getCore (mats [q] id) programCore) 0 = some q)
    ∧ (let t := refThread (mats [matCmd (.mma 0)] id) ⟨programCore, 0⟩;
      t.latchA.fmt ≠ 4 ∧ t.latchB.fmt ≠ 4 ∧ (getAcc t 0).tag = 0)
    ∧ (let s := mats [matCmd (.mma 0)] fun t => { t with latchA := { t.latchA with fmt := 4 } };
      (refThread s ⟨programCore, 0⟩).latchA.fmt = 4 ∧ (getCore s programCore).cb4Leave = false)
    ∧ (let s := mats [matCmd (.drain 2 0 0 none 0 0 0)] fun t => setAcc t 0 { getAcc t 0 with tag := causeMatState };
      (getAcc (refThread s ⟨programCore, 0⟩) 0).tag ≠ 0)
    ∧ ((drainGranules (drainElems Acc.zero (BitVec.ofNat 64 (32 * 2 ^ 16)) 0 0 0) (BitVec.ofNat 64 (32 * 2 ^ 16))).length = 16) := by
  decide +kernel

/-- Four cores of a row with an MGANG of tag 5 at their heads. -/
def ganged (offered ready : Bool) (leave : Leave) : State :=
  let q := { matCmd (.gang 0 5 false) with offered := offered, ready := ready, leave := leave }
  let s := mats [q] id
  [1, 2, 3].foldl (fun s k => setCore s (programCore + k) (coreSetSlot (getCore s programCore) 0
    { coreSlot (getCore s programCore) 0 with matq := [q] })) s

theorem witness_EngineSteps_gangs :
    (let s := ganged false false .none;
      engineRuns s (programCore + 3) = true ∧ matBusy (getCore s (programCore + 3)) = none
      ∧ gangOffer (getCore s (programCore + 3)) = none ∧ gangHead (getCore s (programCore + 3)) = some 0
      ∧ barrierMet (modMatHead s ⟨programCore + 3, 0⟩ fun q => { q with offered := true }) (programCore + 3) = false)
    ∧ (let s := ganged true true .granted;
      gangReady s (programCore + 3) = true ∧ (gangOffer (getCore s ((programCore + 3) / 4 * 4))).isSome = true)
    ∧ (let r : Ref := ⟨programCore, 0⟩;
      let s := modCluster (bench id) (clusterOf programCore) fun c => { c with leaveAsked := [r], leaveHeld := [r] };
      (getCluster s (clusterOf programCore)).leaveAsked = [r]
      ∧ (getCluster s (clusterOf programCore)).leaveHeld.length < leaveBudget s (clusterOf programCore))
    ∧ (let s := { benchCore (fun c => { c with cb4Leave := true, lastCb4 := some 0 }) id with cycle := 17 };
      (getCore s programCore).cb4Leave = true ∧ (getCore s programCore).lastCb4 = some 0 ∧ 0 + 16 < s.cycle
      ∧ ((List.range 16).any fun i => match matHead (getCore s programCore) i with
        | some q => q.leave == .granted && !isGang q
        | none => false) = false) := by
  decide +kernel

theorem witness_EngineSteps_barrier :
    (let s := ganged true false .none;
      let s := modMatHead s ⟨programCore + 3, 0⟩ fun q => { q with offered := false };
      engineRuns s (programCore + 3) = true ∧ matBusy (getCore s (programCore + 3)) = none
      ∧ gangOffer (getCore s (programCore + 3)) = none ∧ gangHead (getCore s (programCore + 3)) = some 0
      ∧ (let offered := modMatHead s ⟨programCore + 3, 0⟩ fun q => { q with offered := true };
        ∀ k ∈ [programCore, programCore + 1, programCore + 2, programCore + 3],
          ((gangOffer (getCore offered k)).bind fun p => match p.2.op with
            | .gang _ tag _ => some tag
            | _ => none) = some 5))
    ∧ (let s := mats [{ matCmd (.mma 0) with leave := .granted }] fun t => { t with latchA := { t.latchA with fmt := 4 } };
      matNext s programCore = some 0 ∧ (refThread s ⟨programCore, 0⟩).latchA.fmt = 4)
    ∧ (let s := { mats [matCmd (.mma 0)] fun t => { t with latchB := { t.latchB with fmt := 4 } } with cycle := 16 };
      let s := modCore s programCore fun c => { c with cb4Leave := true, lastCb4 := some 0 };
      matNext s programCore = some 0 ∧ (refThread s ⟨programCore, 0⟩).latchB.fmt = 4 ∧ (getCore s programCore).cb4Leave = true
      ∧ (getCore s programCore).lastCb4 = some 0 ∧ s.cycle ≤ 0 + 16) := by
  decide +kernel

theorem copyAt_of {s : State} {w : Word} {len need : Nat}
    (h : (fieldOf w 56 4 == 0 && fieldOf w 60 1 == 0
      && passesB s (BitVec.ofNat 3 (fieldOf w 61 3)) (wordOf (fieldOf w 0 56)) len need false) = true) : CopyAt s w len need := by
  simp only [Bool.and_eq_true, beq_iff_eq] at h
  exact ⟨h.1.1, h.1.2, passes_of h.2⟩

theorem witness_CopyIssue_plain : ∃ s, (curThread s).copyq.length < 2 ∧ (curThread s).unacked = 0 ∧ Runs s { xr := [3, 1, 2], noMsg := true }
    ∧ lenOk s (getX (curThread s) 2) false = true ∧ CopyAt s (getX (curThread s) 1) (fieldOf (getX (curThread s) 2) 0 32) needR
    ∧ CopyAt s (getX (curThread s) 3) (fieldOf (getX (curThread s) 2) 0 32) needW :=
  ⟨bench (withX [(3, addrIn 1 0), (1, addrIn 2 0xFC00), (2, 1024)]), by decide +kernel, by decide +kernel, runs_of (by decide +kernel), by decide +kernel,
    copyAt_of (by decide +kernel), copyAt_of (by decide +kernel)⟩

theorem witness_CopyIssue_multi : ∃ s, (curThread s).copyq.length < 2 ∧ (curThread s).unacked = 0 ∧ Runs s { xr := [3, 1, 2], noMsg := true }
    ∧ lenOk s (getX (curThread s) 2) false = true ∧ CopyAt s (getX (curThread s) 1) (fieldOf (getX (curThread s) 2) 0 32) needR
    ∧ fieldOf (getX (curThread s) 3) 50 14 = 0 ∧ fieldOf (getX (curThread s) 3) 0 16 % 16 = 0
    ∧ (fieldOf (getX (curThread s) 3) 33 1 = 1 → fieldOf (getX (curThread s) 3) 34 16 % 16 = 0) :=
  ⟨bench (withX [(3, BitVec.ofNat 64 (16 + 2 ^ 16 + 2 ^ 33 + 16 * 2 ^ 34)), (1, addrIn 1 1008), (2, 16)]), by decide +kernel, by decide +kernel,
    runs_of (by decide +kernel), by decide +kernel, copyAt_of (by decide +kernel), by decide +kernel, by decide +kernel, by decide +kernel⟩

theorem witness_CopyIssue_handle : ∃ s, (curThread s).copyq.length < 2 ∧ (curThread s).unacked = 0 ∧ Runs s { xr := [3, 1, 2], noMsg := true }
    ∧ (∃ c, getCtx? s (curCtx s) = some c ∧ inGrid c (fieldOf (getX (curThread s) 3) 16 20) = true)
    ∧ lenOk s (getX (curThread s) 2) true = true ∧ fieldOf (getX (curThread s) 3) 36 28 = 0 ∧ fieldOf (getX (curThread s) 1) 56 4 = 0
    ∧ fieldOf (getX (curThread s) 1) 60 1 = 1
    ∧ Passes s (BitVec.ofNat 3 (fieldOf (getX (curThread s) 1) 61 3)) (wordOf (fieldOf (getX (curThread s) 1) 0 56))
      (fieldOf (getX (curThread s) 2) 0 32) needR false :=
  ⟨bench (withX [(3, 0xF0100), (1, addrIn 1 (2 ^ 60)), (2, BitVec.ofNat 64 (1024 + 2 ^ 48))]), by decide +kernel, by decide +kernel,
    runs_of (by decide +kernel), some_of (by decide +kernel), by decide +kernel, by decide +kernel, by decide +kernel, by decide +kernel,
    passes_of (by decide +kernel)⟩

theorem witness_CopyIssue_others :
    (∃ s, (curThread s).copyq.length < 2 ∧ (curThread s).unacked = 0 ∧ Runs s { xr := [1], noMsg := true } ∧ (getX (curThread s) 1).toNat % 16 = 0
      ∧ (getX (curThread s) 1).toNat + 256 ≤ curSP s ∧ (getX (curThread s) 1).toNat < 2 ^ 16)
    ∧ (∃ s, Runs s { xr := [3, 1, 4], xs := [5], noMsg := true } ∧ lenOk s (getX (curThread s) 4) false = true
      ∧ CopyAt s (getX (curThread s) 1) (fieldOf (getX (curThread s) 4) 0 32) needR
      ∧ CopyAt s (getX (curThread s) 3) (fieldOf (getX (curThread s) 4) 0 32) needW
      ∧ segKind (captured s (getX (curThread s) 3)).seg ≠ kindGlobal ∧ (getX (curThread s) 5).toNat % 16 = 0
      ∧ (getX (curThread s) 5).toNat < 2 ^ 16)
    ∧ ∃ s, (curThread s).copyq.length < 2 ∧ (curThread s).unacked = 0 ∧ Runs s { noMsg := true } ∧ (getG (curThread s) 3).pending = false :=
  ⟨⟨bench (withX [(1, 768)]), by decide +kernel, by decide +kernel, runs_of (by decide +kernel), by decide +kernel, by decide +kernel, by decide +kernel⟩,
    ⟨bench (withX [(3, addrIn 1 512), (1, addrIn 1 0), (4, 512), (5, 1008)]), runs_of (by decide +kernel), by decide +kernel,
      copyAt_of (by decide +kernel), copyAt_of (by decide +kernel), by decide +kernel, by decide +kernel, by decide +kernel⟩,
    ⟨bench id, by decide +kernel, by decide +kernel, runs_of (by decide +kernel), by decide +kernel⟩⟩

/-- The bench with a copy at the head of slot 0's queue: 100 bytes from the page to the scratchpad, whose segment allows `n`. -/
def copies (q : CopyCmd) : State := bench fun t => { t with copyq := [q] }
def fromPage (n : Nat) : CopyCmd := copyCmd (.plain ⟨descOf 0x10000 65536 2 0, 0⟩ ⟨descOf 0 1024 0 0, 0⟩ none) n true

theorem witness_CopySteps :
    (let q := fromPage 100;
      let s := copies q;
      let s' := modCore s programCore fun c => { c with copyServed := some 0 };
      copyHead (getCore s programCore) 0 = some q ∧ copyNext s programCore = some 0 ∧ q.gate ≠ .drop ∧ q.started = true
      ∧ q.failed = none
      ∧ (match chunkOf s' ⟨programCore, 0⟩ q (copyPlan s' ⟨programCore, 0⟩ q) with
        | .ok t => t.power
        | .error _ => false) = true)
    ∧ (let q := copyCmd (.plain ⟨descOf 0x20000 65536 2 0, 0⟩ ⟨descOf 0 1024 0 0, 0⟩ none) 100 true;
      let s := copies q;
      let s' := modCore s programCore fun c => { c with copyServed := some 0 };
      copyNext s programCore = some 0
      ∧ (match chunkOf s' ⟨programCore, 0⟩ q (copyPlan s' ⟨programCore, 0⟩ q) with
        | .ok _ => false
        | .error _ => true) = true)
    ∧ (let s := copies { fromPage 1 with gate := .drop };
      copyNext s programCore = some 0)
    ∧ (let q := copyCmd (.wait 3) 0 false;
      let s := copies q;
      copyHead (getCore s programCore) 0 = some q ∧ copyNext s programCore = some 0 ∧ q.gate = .go) :=
  ⟨⟨by decide +kernel, by decide +kernel, by decide +kernel, by decide +kernel, by decide +kernel, by decide +kernel⟩,
    ⟨by decide +kernel, by decide +kernel⟩, by decide +kernel, by decide +kernel, by decide +kernel, by decide +kernel⟩

/-- A copy to the 48 bytes of a handle's buffer at core 1, from offset 16 of it on, and the bench with that handle. -/
def toBuffer (boff : Nat) : CopyCmd := copyCmd (.handle (wordOf (1 * 2 ^ 16)) true ⟨descOf 0 1024 0 0, 0⟩ boff) 32 false
def buffered (q : CopyCmd) : State := modCore (copies q) (programCore + 1) fun c =>
  { c with handles := [(0, ⟨0, 1, ⟨programCore, 0⟩, 0, 512, 48⟩)] }

theorem witness_CopySteps_starts :
    (∀ q ∈ [copyCmd (.plain ⟨descOf 0x10000 65536 2 0, 0⟩ ⟨descOf 0 1024 0 0, 0⟩ none) 100 false,
        copyCmd (.multi 0 ⟨descOf 0 1024 0 0, 0⟩ []) 100 false, toBuffer 0, copyCmd (.tensor 0 [] ⟨0, 0⟩ ⟨0, 0⟩) 0 false],
      copyHead (getCore (copies q) programCore) 0 = some q ∧ copyNext (copies q) programCore = some 0 ∧ q.started = false)
    ∧ liveHandle (copies (toBuffer 0)) 1 (wordOf (1 * 2 ^ 16)) = none
    ∧ (liveHandle (buffered (toBuffer 16)) 1 (wordOf (1 * 2 ^ 16))).any (fun h => h.2.2.size == 48 && h.2.2.pins == 0) = true
    ∧ (let w := wordOf (512 + 3 * 2 ^ 16);
      let q := copyCmd (.multi w ⟨descOf 0 1024 0 0, 0⟩ []) 4097 false;
      copyNext (copies q) programCore = some 0 ∧ 4096 < q.len)
    ∧ (let q := copyCmd (.plain ⟨descOf 0 1024 1 1, 0⟩ ⟨descOf 0 1024 0 0, 0⟩ none) 100 true;
      copyNext (copies q) programCore = some 0 ∧ q.asks programCore = some (programCore + 1) ∧ q.fetch = none) := by
  decide +kernel

/-! ## Handles, parties and musters -/

theorem witness_HandleResult_alloc : ∃ s, Runs s { xr := [1, 2], xw := some 3, noMsg := true } ∧ (getX (curThread s) 1).toNat % 16 = 0
    ∧ (getX (curThread s) 2).toNat % 16 = 0 ∧ 16 ≤ (getX (curThread s) 2).toNat
    ∧ (getX (curThread s) 1).toNat + (getX (curThread s) 2).toNat ≤ curSP s ∧ (getHandle s s.cur.1 0).state = hFree :=
  ⟨bench (withX [(1, 16), (2, 1008)]), runs_of (by decide +kernel), by decide +kernel, by decide +kernel, by decide +kernel,
    by decide +kernel, by decide +kernel⟩

/-- The bench with entry 255 of its core's handle table OWNED by slot 0, and the reference in x1. -/
def owning (x2 : Word) : State :=
  setHandle (bench (withX [(1, 0x3FF), (2, x2)])) programCore 255 ⟨3, hOwned, ⟨programCore, 0⟩, 0, 0, 16⟩

theorem witness_HandleResult_owned :
    (∃ r, liveHandle (owning 0xE00000) (curCtx (owning 0xE00000)) (getX (curThread (owning 0xE00000)) 1) = some r
      ∧ (r.2.2.owner == curRef (owning 0xE00000) && r.1 == programCore && (curThread (owning 0xE00000)).unacked == 0) = true)
    ∧ Runs (owning 0xE00000) { xr := [1, 2], noMsg := true }
    ∧ (∃ c, getCtx? (owning 0xE00000) (curCtx (owning 0xE00000)) = some c
      ∧ inGrid c (fieldOf (getX (curThread (owning 0xE00000)) 2) 0 20) = true)
    ∧ fieldOf (getX (curThread (owning 0xE00000)) 2) 24 40 = 0 ∧ fieldOf (getX (curThread (owning 0xE00000)) 2) 20 4 = 14
    ∧ (refThread (owning 0xE00000) ⟨programCore, 14⟩).inbox.length < 4
    ∧ liveHandle (bench id) (curCtx (bench id)) (getX (curThread (bench id)) 1) = none
    ∧ refHome (curCtx (bench id)) (getX (curThread (bench id)) 1) = (bench id).cur.1 := by
  refine ⟨some_of (by decide +kernel), runs_of (by decide +kernel), some_of (by decide +kernel), ?_, ?_, ?_, ?_, ?_⟩ <;> decide +kernel

theorem witness_HandleResult_others :
    (∃ s r, liveHandle s (curCtx s) (getX (curThread s) 1) = some r ∧ (r.2.2.owner == curRef s && r.1 == s.cur.1
      && decide (4 ≤ (refThread s ⟨coreKey (curCtx s) (fieldOf (getX (curThread s) 2) 0 20), fieldOf (getX (curThread s) 2) 20 4⟩).inbox.length))
        = true)
    ∧ (∃ s : State, Runs s { xr := [1], noMsg := true } ∧ Runs s { xr := [1, 2], noMsg := true } ∧ (curThread s).unacked = 0
      ∧ refHome (curCtx s) (getX (curThread s) 1) ≠ s.cur.1 ∧ fieldOf (getX (curThread s) 1) 36 28 = 0 ∧ portFull s s.cur.1 = false
      ∧ ∃ c, getCtx? s (curCtx s) = some c ∧ inGrid c (fieldOf (getX (curThread s) 1) 16 20) = true)
    ∧ ∃ s : State, Runs s { xw := some 3, noMsg := true } ∧ (curThread s).inbox = [(0x3FF, programCore + 1)] :=
  ⟨⟨modThread (owning 0xE00000) programCore 14 fun t => { t with inbox := List.replicate 4 (0, programCore) },
      some_of (by decide +kernel)⟩,
    ⟨bench (withX [(1, 0x103FF)]), runs_of (by decide +kernel), runs_of (by decide +kernel), by decide +kernel, by decide +kernel,
      by decide +kernel, by decide +kernel, some_of (by decide +kernel)⟩,
    bench fun t => { t with inbox := [(0x3FF, programCore + 1)] }, runs_of (by decide +kernel), by decide +kernel⟩

theorem witness_PartyResult :
    (∃ s, (getX (curThread s) 1).toNat < 4096 ∧ Runs s { xr := [1], xw := some 3, noMsg := true }
      ∧ partyRank (curThread s) (getX (curThread s) 1).toNat = none ∧ (curThread s).parties.length < 4
      ∧ (getCluster s (clusterOf s.cur.1)).parties.length < 64)
    ∧ (∃ s, Runs s { xr := [1], xw := some 3, noMsg := true } ∧ Runs s { xr := [1], noMsg := true }
      ∧ partyRank (curThread s) (getX (curThread s) 1).toNat = some 2 ∧ (curThread s).unacked = 0)
    ∧ ∃ s c, getCtx? s 1 = some c :=
  ⟨⟨bench (withX [(1, 4095)]), by decide +kernel, runs_of (by decide +kernel), by decide +kernel, by decide +kernel, by decide +kernel⟩,
    ⟨bench fun t => { withX [(1, 4095)] t with parties := [(4095, 2)] }, runs_of (by decide +kernel), runs_of (by decide +kernel),
      by decide +kernel, by decide +kernel⟩,
    ⟨bench id, Option.isSome_iff_exists.mp (by decide +kernel)⟩⟩

theorem musterAt_of {s : State} {w : Word} {need p : Nat} {g : BitVec 3} {n : BitVec 1}
    (h : (gateOpen (curThread s) g n && fieldOf w 56 5 == 0
      && segKind (getSeg (curThread s) (BitVec.ofNat 3 (fieldOf w 61 3))) == kindLocal
      && passesB s (BitVec.ofNat 3 (fieldOf w 61 3)) (wordOf (fieldOf w 0 56)) 16 need true
      && p == addressOf s (BitVec.ofNat 3 (fieldOf w 61 3)) (wordOf (fieldOf w 0 56)) && !selfPending s
      && (curThread s).unacked == 0) = true) : MusterAt s w need p g n := by
  simp only [Bool.and_eq_true, beq_iff_eq, Bool.not_eq_true'] at h
  obtain ⟨⟨⟨⟨⟨⟨h1, h2⟩, h3⟩, h4⟩, h5⟩, h6⟩, h7⟩ := h
  exact ⟨h1, h2, h3, passes_of h4, h5, h6, h7⟩

/-- The bench with x1 a muster at 1008 and x2 a value; the muster expects 2 and has a phase. -/
def mustering (x2 : Word) (phase : Bool) (f : Thread → Thread) : State :=
  benchCore (fun c => poolStore c 0 1008 (valBytes 16 (musterBits ⟨2, 0, 0, phase, false, 0⟩))) (f ∘ withX [(1, addrIn 1 1008), (2, x2)])

theorem witness_MusterResult :
    (∃ s, Runs s { xr := [1, 2], gs := [7] } ∧ MusterAt s (getX (curThread s) 1) (needW + needA) 1008 7 0
      ∧ fieldOf (getX (curThread s) 2) 0 16 ≠ 0 ∧ fieldOf (getX (curThread s) 2) 21 11 = 0
      ∧ scopeDefined s (curCtx s) (fieldOf (getX (curThread s) 2) 16 5) = true
      ∧ (curCore s).deferred.any (waitsOn 1008) = false)
    ∧ (∃ s, MusterAt s (getX (curThread s) 1) needA 1008 7 0 ∧ poolPoisoned (curCore s) 1008 16 = false)
    ∧ (∃ s, Runs s { xr := [1, 2], gs := [7, 7], noMsg := true } ∧ MusterAt s (getX (curThread s) 1) (needA + needS) 1008 7 0
      ∧ poolPoisoned (curCore s) 1008 16 = false ∧ (getX (curThread s) 2).toNat ≤ 1
      ∧ (musterStep s s.cur.1 0 (curRef s) 2 1008 (getX (curThread s) 2) 7 true).2 = .answered true 0)
    ∧ (∃ s, Runs s { xr := [1], gs := [7, 7], noMsg := true } ∧ MusterAt s (getX (curThread s) 1) (needA + needS) 1008 7 0
      ∧ (musterStep s s.cur.1 0 (curRef s) 3 1008 0 7 true).2 = .held
      ∧ inMsgSlot (musterStep s s.cur.1 0 (curRef s) 3 1008 0 7 true).1 = false)
    ∧ (∃ s, Runs s { xr := [1, 2], gs := [7, 3], noMsg := true } ∧ (curThread s).asyncWaits < 4
      ∧ (musterStep (putThread s (pendG (curThread s) 3)) s.cur.1 0 (curRef s) 2 1008 (getX (curThread s) 2) 3 true).2 = .answered true 0)
    ∧ ∃ s, Runs s { xr := [1], gs := [7, 3], noMsg := true } ∧ (curThread s).asyncWaits < 4
      ∧ (musterStep (putThread s (pendG (curThread s) 3)) s.cur.1 0 (curRef s) 3 1008 0 3 true).2 = .held :=
  ⟨⟨mustering 0x0000000100000001 false id, runs_of (by decide +kernel), musterAt_of (by decide +kernel), by decide +kernel,
      by decide +kernel, by decide +kernel, by decide +kernel⟩,
    ⟨mustering 0 false id, musterAt_of (by decide +kernel), by decide +kernel⟩,
    ⟨mustering 0 true id, runs_of (by decide +kernel), musterAt_of (by decide +kernel), by decide +kernel, by decide +kernel,
      by decide +kernel⟩,
    ⟨mustering 0 false id, runs_of (by decide +kernel), musterAt_of (by decide +kernel), by decide +kernel, by decide +kernel⟩,
    ⟨mustering 0 true fun t => { t with asyncWaits := 3 }, runs_of (by decide +kernel), by decide +kernel, by decide +kernel⟩,
    ⟨mustering 0 false fun t => { t with asyncWaits := 3 }, runs_of (by decide +kernel), by decide +kernel, by decide +kernel⟩⟩

theorem witness_MusterResult_rule :
    (∃ m : Muster, m.fault = true) ∧ (∃ m : Muster, m.fault = false ∧ m.expected ≤ m.arrived)
    ∧ (∃ m : Muster, m.fault = false ∧ m.arrived < m.expected ∧ -2 ^ 31 ≤ m.debt + 1 ∧ m.debt + 1 < 2 ^ 31)
    ∧ ∃ m : Muster, m.fault = false ∧ 2 ^ 31 ≤ m.debt + 1 :=
  ⟨⟨⟨1, 0, 0, false, true, 0⟩, rfl⟩, ⟨⟨1, 1, 5, false, false, 0⟩, rfl, by decide⟩,
    ⟨⟨1, 0, 2147483646, false, false, 0⟩, rfl, by decide, by decide, by decide⟩, ⟨⟨1, 0, 2147483647, false, false, 0⟩, rfl, by decide⟩⟩

/-! ## Pairs -/

/-- The descriptor of a taskset whose trees are one tree of 2 nodes at 0x10000, CAP 4. -/
def tasksetBytes : List Byte := leBytes 64 (0x10000 + 2 * 2 ^ 64 + 7 * 2 ^ 96 + 4 * 2 ^ 112 + 2 ^ 240 + 1 * 2 ^ 256 + 1 * 2 ^ 288)

/-- A state whose running launch has a tree of 2 nodes at 0x10000. -/
def treed (s : State) : State := modCtx s 1 fun c => { c with launches := c.launches.map fun p => (p.1, { p.2 with kernel := { p.2.kernel with trees := [(0x10000, 2)] } }) }

theorem witness_PairResult_open : ∃ s rest, Runs s { xr := [1], xw := some 3, gs := [7], noMsg := true }
    ∧ gateOpen (curThread s) 7 0 = true ∧ (getX (curThread s) 1).toNat = 960 ∧ 960 + 64 ≤ curSP s ∧ (curThread s).unacked = 0
    ∧ selfPending s = false ∧ poolPoisoned (curCore s) 960 64 = false ∧ TasksetOk s (poolBytes (curCore s) 960 64)
    ∧ freeEntries (getCluster s (curCluster s)) = 15 :: rest ∧ (getCluster s (curCluster s)).pairs.length < 2048
    ∧ tagRoom (getCore s (firstCore (curCluster s))) (liveLaunch s (curRef s)) = true :=
  let s := modCluster (treed (benchCore (fun c => poolStore c 0 960 tasksetBytes) (withX [(1, 960)]))) (clusterOf programCore) fun c =>
    { c with members := (List.range 15).map fun i => ⟨wordOf i, i, 0⟩ }
  ⟨s, [], runs_of (by decide +kernel), by decide +kernel, by decide +kernel, by decide +kernel, by decide +kernel, by decide +kernel,
    by decide +kernel, ⟨by decide +kernel, by decide +kernel, by decide +kernel, by decide +kernel, by decide +kernel, by decide +kernel,
      by decide +kernel, by decide +kernel⟩, by decide +kernel, by decide +kernel, by decide +kernel⟩

/-- A traversal of that tree, home in the bench's cluster at entry 0, and its handle. -/
def treeTrav : Traversal := ⟨0x10000, 2, 0x10000, 2, true, 7, 4, 0, true, 0, 0, 0, [], false⟩
def benchTrav : Word := 16
/-- The bench with that traversal, the handle in x1 and the nodes 1 and 1 in x4, and pairs in the cluster's store. -/
def pairing (ps : List Pair) (f : Thread → Thread) : State :=
  modCluster (treed (bench (f ∘ withX [(1, benchTrav), (4, 0x100000001), (2, 0)]))) (clusterOf programCore) fun c =>
    { c with gens := [(0, 1)], traversals := [(0, treeTrav)], members := [⟨benchTrav, 0, ps.length⟩], pairs := ps }
def pairOf (n : Nat) : Pair := ⟨0, BitVec.ofNat 32 n, false, 0, 0, 0, benchTrav⟩

theorem witness_PairResult_take :
    (∃ s, gateOpen (curThread s) 7 0 = true ∧ (curThread s).unacked = 0 ∧ fieldOf benchTrav 36 28 = 0
      ∧ travLive s (curCtx s) benchTrav = some treeTrav ∧ memberRoom s (curCtx s) (curCluster s) benchTrav = true
      ∧ Runs s { xr := [1, 4], xs := [5], gs := [7, 3], noMsg := true } ∧ fieldOf (getX (curThread s) 4) 0 32 < treeTrav.countA
      ∧ fieldOf (getX (curThread s) 4) 32 32 < treeTrav.countB
      ∧ ((getCluster s (curCluster s)).pairs.filter (·.handle == benchTrav)).length < treeTrav.cap
      ∧ tagRoom (getCore s (firstCore (curCluster s))) treeTrav.launch = true)
    ∧ (∃ s, travLive s (curCtx s) benchTrav = some treeTrav
      ∧ treeTrav.cap ≤ ((getCluster s (curCluster s)).pairs.filter (·.handle == benchTrav)).length)
    ∧ (∃ s, Runs s { xr := [1], xs := groupRegs 2, gs := [7, 3], noMsg := true }
      ∧ travLive (endHeld s (curRef s)) (curCtx s) benchTrav = some treeTrav
      ∧ memberRoom (endHeld s (curRef s)) (curCtx s) (curCluster s) benchTrav = true
      ∧ newestPair (getCluster (modCluster (endHeld s (curRef s)) (curCluster s) fun c => setTravCount c benchTrav (travCount c benchTrav))
        (curCluster s)) benchTrav = some (pairOf 1, [pairOf 0]))
    ∧ ∃ s p, Runs s { gs := [7], noMsg := true } ∧ (curThread s).held = some p :=
  ⟨⟨pairing [pairOf 0, pairOf 0, pairOf 0] id, by decide +kernel, by decide +kernel, by decide +kernel, by decide +kernel,
      by decide +kernel, runs_of (by decide +kernel), by decide +kernel, by decide +kernel, by decide +kernel, by decide +kernel⟩,
    ⟨pairing [pairOf 0, pairOf 0, pairOf 0, pairOf 0] id, by decide +kernel, by decide +kernel⟩,
    ⟨pairing [pairOf 0, pairOf 1] id, runs_of (by decide +kernel), by decide +kernel, by decide +kernel, by decide +kernel⟩,
    ⟨pairing [pairOf 0] fun t => { t with held := some (pairOf 0) }, pairOf 0, runs_of (by decide +kernel), by decide +kernel⟩⟩

theorem witness_PairResult_nodes : ∃ s, gateOpen (curThread s) 7 0 = true ∧ travLive s (curCtx s) (getX (curThread s) 1) = some treeTrav
    ∧ Runs s { xr := [1, 4], xs := [5], gs := [7, 3], noMsg := true }
    ∧ Runs s { xr := [1, 2], xs := (List.range 8).map (· + 8 * 3), gs := [7], noMsg := true }
    ∧ fieldOf (getX (curThread s) 2) 32 32 = 0 ∧ fieldOf (getX (curThread s) 2) 0 32 < treeTrav.countA
    ∧ ∃ r, (viewRead s (curView s) (treeTrav.nodeA.toNat + 64 * 1) 64 accLoad).bind (fun r =>
        (viewRead r.1 (curView r.1) (treeTrav.nodeB.toNat + 64 * 1) 64 accLoad).map fun q => (r, q)) = .ok r
      ∧ (!nodeBad (bytesVal 512 r.1.2.2) treeTrav.countA && !nodeBad (bytesVal 512 r.2.2.2) treeTrav.countB
        && (match testPair r.2.1 treeTrav true 1 1 (bytesVal 512 r.1.2.2) (bytesVal 512 r.2.2.2) with
          | .ok p => decide (p.2 < 5)
          | .error _ => false)) = true :=
  ⟨pairing [] id, by decide +kernel, by decide +kernel, runs_of (by decide +kernel), runs_of (by decide +kernel), by decide +kernel,
    by decide +kernel, ok_of (by decide +kernel)⟩

/-- A HOME that is not in the grid. -/
theorem witness_HandleResult_outside : ∃ s, Runs s { xr := [1], noMsg := true }
    ∧ ¬ ∃ c, getCtx? s (curCtx s) = some c ∧ inGrid c (fieldOf (getX (curThread s) 1) 16 20) = true := by
  refine ⟨bench (withX [(1, 0x100003FF)]), runs_of (by decide +kernel), ?_⟩
  rintro ⟨c, hc, h⟩
  obtain ⟨c', hc', h'⟩ := some_of (x := getCtx? (bench (withX [(1, 0x100003FF)])) (curCtx (bench (withX [(1, 0x100003FF)]))))
    (p := fun c => !inGrid c (fieldOf (getX (curThread (bench (withX [(1, 0x100003FF)]))) 1) 16 20)) (by decide +kernel)
  rw [hc] at hc'
  cases hc'
  rw [Bool.not_eq_true'] at h'
  exact absurd (h.symm.trans h') (by decide)

/-! ## Revisions -/

/-- Cluster-level change of the bench's own cluster. -/
def inCluster (f : Cluster → Cluster) (s : State) : State := modCluster s (clusterOf programCore) f

theorem witness_RevResult_fork : ∃ s s₁, Runs s { xr := [1, 2], xw := some 3, noMsg := true } ∧ (curThread s).depth = 14
    ∧ (curThread s).unacked = 0
    ∧ ((List.range 256).find? fun i => (mapGet? (getCluster s (clusterOf s.cur.1)).revs i).isNone) = some 0
    ∧ forkSlot s = some ⟨programCore, 1⟩
    ∧ ((getCluster s (clusterOf s.cur.1)).forkers.takeWhile (· != curRef s)).any (forkWaits s) = false
    ∧ readyCore s programCore (curThread s).launch = some s₁ ∧ slotOf 1 ≠ s₁.cur.2 :=
  ⟨benchCore (fun c => { c with part := 0x4F1 }) fun t => { t with depth := 14 },
    benchCore (fun c => { c with part := 0x4F1 }) fun t => { t with depth := 14 }, runs_of (by decide +kernel), by decide +kernel,
    by decide +kernel, by decide +kernel, by decide +kernel, by decide +kernel, by decide +kernel, by decide +kernel⟩

/-- A revision of the bench's thread, with a version of one granule; its reference and handle. -/
def revOne (phase : RevPhase) : Rev := ⟨phase, false, none, ⟨programCore, 0⟩, 1, ⟨programCore, 1⟩, [(0x400, ⟨5, 0⟩)], [], 0⟩
def revAt : RevRef := ⟨clusterOf programCore, 255⟩
def parenting (phase : RevPhase) : State :=
  inCluster (fun c => { c with revs := [(255, revOne phase)], revGens := [(255, 1)] })
    (bench fun t => { withX [(1, 0x1FF)] t with children := [⟨revAt, 1, 0⟩] })

theorem witness_RevResult_join :
    (∃ s, Runs s { xr := [1], xw := some 3, noMsg := true } ∧ fieldOf (getX (curThread s) 1) 36 28 = 0
      ∧ revOf s (getX (curThread s) 1) = some (revAt, revOne .done)
      ∧ ((curThread s).children.any fun c => c.ref == revAt && c.gen == fieldOf (getX (curThread s) 1) 8 8) = true
      ∧ fieldOf (getX (curThread s) 1) 8 8 ≠ 0
      ∧ (match mergeRev s revAt (revOne .done) with
        | .ok r => r.2 == 0
        | .error _ => false) = true)
    ∧ (∃ s, revOf s (getX (curThread s) 1) = some (revAt, revOne .running) ∧ inMsgSlot s = false)
    ∧ (∃ s, revOf s (getX (curThread s) 1) = some (revAt, revOne .halted)
      ∧ (match mergeRev s revAt (revOne .halted) with
        | .ok r => r.2 == 1
        | .error _ => false) = true)
    ∧ ∃ s, Runs s { xw := some 3, noMsg := true } ∧ (curThread s).children = [] ∧ getX (curThread s) 1 = 0 :=
  ⟨⟨parenting .done, runs_of (by decide +kernel), by decide +kernel, by decide +kernel, by decide +kernel, by decide +kernel,
      by decide +kernel⟩, ⟨parenting .running, by decide +kernel, by decide +kernel⟩, ⟨parenting .halted, by decide +kernel, by decide +kernel⟩,
    ⟨bench id, runs_of (by decide +kernel), by decide +kernel, by decide +kernel⟩⟩

theorem witness_RevResult_declare : ∃ s, Runs s { xr := [1, 2], xw := some 3, noMsg := true } ∧ (getX (curThread s) 1).toNat % 64 = 0
    ∧ fieldOf (getX (curThread s) 2) 0 48 % 64 = 0 ∧ fieldOf (getX (curThread s) 2) 0 48 ≠ 0 ∧ fieldOf (getX (curThread s) 2) 48 4 ≤ 12
    ∧ fieldOf (getX (curThread s) 2) 52 12 = 0 ∧ (getX (curThread s) 1).toNat + fieldOf (getX (curThread s) 2) 0 48 = 2 ^ 56
    ∧ ctxRevs s (curCtx s) = [] ∧ (curThread s).unacked = 0
    ∧ ∃ c, getCtx? s (curCtx s) = some c ∧ (c.regions.all fun x => decide (x.base + x.size ≤ (getX (curThread s) 1).toNat)) = true :=
  ⟨modCtx (bench (withX [(1, BitVec.ofNat 64 (2 ^ 56 - 64)), (2, BitVec.ofNat 64 (64 + 12 * 2 ^ 48))])) 1 fun c =>
      { c with regions := [⟨0, 2 ^ 56 - 64, 2⟩] },
    runs_of (by decide +kernel), by decide +kernel, by decide +kernel, by decide +kernel, by decide +kernel, by decide +kernel,
    by decide +kernel, by decide +kernel, by decide +kernel, some_of (by decide +kernel)⟩

theorem witness_MergeResult : ∃ type : Nat, type = 2 ∨ type = 3 ∨ type = 9 ∨ type = 10 ∨ type = 11 := ⟨11, by decide⟩

/-! ## Tasks -/

theorem witness_TaskResult_threads :
    (∃ s, (getCtx? s (curCtx s)).isSome = true ∧ Runs s { noMsg := true } ∧ (curThread s).event = true)
    ∧ (∃ s, Runs s { noMsg := true } ∧ (curThread s).event = false ∧ inMsgSlot s = false)
    ∧ (∃ s, Runs s { xr := [1], noMsg := true } ∧ (getX (curThread s) 1).toNat = 0
      ∧ (∃ c, getCtx? s (curCtx s) = some c ∧ inGrid c 0 = true) ∧ coreKey (curCtx s) 0 = s.cur.1 ∧ kernelFits s s.cur.1 s.cur.1 = true)
    ∧ (∃ s, Runs s { xr := [1], noMsg := true } ∧ (getX (curThread s) 1).toNat = 15
      ∧ (∃ c, getCtx? s (curCtx s) = some c ∧ inGrid c 15 = true) ∧ coreKey (curCtx s) 15 ≠ s.cur.1
      ∧ kernelFits s s.cur.1 (coreKey (curCtx s) 15) = true ∧ canLeave (curThread s) = true ∧ inMsgSlot s = false)
    ∧ (∃ s, Runs s { xr := [1], noMsg := true } ∧ (getX (curThread s) 1).toNat = 15
      ∧ kernelFits s s.cur.1 (coreKey (curCtx s) 15) = true ∧ canLeave (curThread s) = false ∧ inMsgSlot s = false)
    ∧ ∃ s, Runs s { xr := [1], xw := some 3, noMsg := true } :=
  ⟨⟨bench fun t => { t with event := true }, by decide +kernel, runs_of (by decide +kernel), by decide +kernel⟩,
    ⟨bench id, runs_of (by decide +kernel), by decide +kernel, by decide +kernel⟩,
    ⟨bench id, runs_of (by decide +kernel), by decide +kernel, some_of (by decide +kernel), by decide +kernel, by decide +kernel⟩,
    ⟨bench (withX [(1, 15)]), runs_of (by decide +kernel), by decide +kernel, some_of (by decide +kernel), by decide +kernel,
      by decide +kernel, by decide +kernel, by decide +kernel⟩,
    ⟨bench (pend 2 ∘ withX [(1, 15)]), runs_of (by decide +kernel), by decide +kernel, by decide +kernel, by decide +kernel,
      by decide +kernel⟩,
    ⟨bench id, runs_of (by decide +kernel)⟩⟩

/-- A message from core 1 to task `n`. -/
def messageTo (n : Nat) : TaskMsg := ⟨1, 2, BitVec.ofNat 32 n, ⟨programCore + 1, 0⟩, 1, 0, 0⟩

theorem witness_TaskResult_queues :
    (∃ s, Runs s { xr := [1, 4], xs := [5] } ∧ (getX (curThread s) 1).toNat < 2 ^ 32 ∧ (curThread s).unacked = 0
      ∧ portFull s s.cur.1 = false)
    ∧ (∃ s, Runs s { xs := groupRegs 2, noMsg := true } ∧ (curThread s).mailbox = [messageTo 3] ∧ (curThread s).bounces = [messageTo 4])
    ∧ (∃ s, Runs s { xs := groupRegs 2, noMsg := true } ∧ (curThread s).mailbox = [] ∧ (curThread s).bounces = [] ∧ inMsgSlot s = false)
    ∧ (∃ s, Runs s { xr := [1, 2], noMsg := true } ∧ (getX (curThread s) 1).toNat < 2 ^ 32 ∧ (getX (curThread s) 2).toNat < 4
      ∧ (readyPush (curCore s) ((getX (curThread s) 1).setWidth 32) (getX (curThread s) 2).toNat).2 = true
      ∧ ((curThread s).mailbox.any (·.task == (getX (curThread s) 1).setWidth 32)) = false
      ∧ ((curCore s).sleepers.any (·.task == (getX (curThread s) 1).setWidth 32)) = false ∧ (curCore s).sleepers.length < 16
      ∧ readyEmpty (curCore s) = true ∧ (curThread s).timerTrap = false ∧ inMsgSlot s = false)
    ∧ (∃ s, readyEmpty (curCore s) = false ∧ Runs s { xw := some 3, noMsg := true } ∧ (popReady (curCore s)).isSome = true)
    ∧ ∃ s, Runs s { xw := some 3, noMsg := true } ∧ (popReady (curCore s)).isNone = true :=
  ⟨⟨bench (withX [(1, 0xFFFFFFFF)]), runs_of (by decide +kernel), by decide +kernel, by decide +kernel, by decide +kernel⟩,
    ⟨bench fun t => { t with mailbox := [messageTo 3], bounces := [messageTo 4] }, runs_of (by decide +kernel), by decide +kernel,
      by decide +kernel⟩,
    ⟨bench id, runs_of (by decide +kernel), by decide +kernel, by decide +kernel, by decide +kernel⟩,
    ⟨bench (withX [(1, 0xFFFFFFFF), (2, 3)]), runs_of (by decide +kernel), by decide +kernel, by decide +kernel, by decide +kernel,
      by decide +kernel, by decide +kernel, by decide +kernel, by decide +kernel, by decide +kernel, by decide +kernel⟩,
    ⟨benchCore (fun c => { c with ready := c.ready.set 3 [7] }) id, by decide +kernel, runs_of (by decide +kernel), by decide +kernel⟩,
    ⟨bench id, runs_of (by decide +kernel), by decide +kernel⟩⟩

theorem witness_TaskResult_launch :
    (∃ s, Runs s { xr := [1], xw := some 3, noMsg := true } ∧ inMsgSlot s = false ∧ fieldOf (getX (curThread s) 1) 56 5 = 0
      ∧ segKind (getSeg (curThread s) 1) = kindLocal ∧ fieldOf (getX (curThread s) 1) 61 3 = 1
      ∧ Passes s 1 (wordOf (fieldOf (getX (curThread s) 1) 0 56)) 64 needR true ∧ ringRoom s (curCtx s) = true
      ∧ (curThread s).unacked = 0 ∧ selfPending s = false ∧ poolPoisoned (curCore s) 960 64 = false)
    ∧ ∃ s, Runs s { noMsg := true } ∧ (curThread s).matq = [] ∧ (curThread s).copyq = [] ∧ guardsResolved (curThread s) = true
      ∧ (curThread s).children = [] ∧ (curThread s).unacked = 0 :=
  ⟨⟨bench (withX [(1, addrIn 1 960)]), runs_of (by decide +kernel), by decide +kernel, by decide +kernel, by decide +kernel,
      by decide +kernel, passes_of (by decide +kernel), by decide +kernel, by decide +kernel, by decide +kernel, by decide +kernel⟩,
    ⟨bench id, runs_of (by decide +kernel), by decide +kernel, by decide +kernel, by decide +kernel, by decide +kernel, by decide +kernel⟩⟩

/-! ## Sequences -/

/-- A sound descriptor at VA 0x10000: KV at 0x12000 with 4 blocks of one row of 16 bytes, recurrent state at 0x13000, a sink of 1 and a
ring of 1, its block list at 0x11000, generations at 0x11100, and pool at 0x11200 of two free blocks; LEN 9. -/
def seqCells (wstate ndraft members top : BitVec 8) : List Host.Cell :=
  [(1, 0x20), (2, 1), (8, 64), (17, 0x30), (18, 1), (24, 64), (28, 16), (32, 1), (36, 1), (49, 0x10), (50, 1), (57, 0x11),
    (58, 1), (65, 0x12), (66, 1), (72, 9), (81, wstate), (82, ndraft), (83, members), (0x1004, 1), (0x1104, 8),
    (0x1201, 0x13), (0x1202, 1), (0x1208, top), (0x120C, 4), (0x1211, 0x14), (0x1212, 1), (0x1300, 2), (0x1304, 3), (0x1400, 1),
    (0x1404, 2)]

/-- A state with nonzero bytes in the page, above all others of its memory. -/
def withPage (cells : List Host.Cell) (s : State) : State :=
  { s with mem := s.mem ++ (cells.filter (·.2 != 0)).map fun p => (programPage + p.1, p.2) }

/-- The bench with that sequence, its blocks 0 and 1, the generation of position 8, and x1 its address. -/
def sequenced (wstate ndraft members : BitVec 8) (f : Thread → Thread) (top : BitVec 8 := 2) : State :=
  withPage (seqCells wstate ndraft members top) (bench (f ∘ withX [(1, addrIn 2 0)]))

def seqB (s : State) (w : Word) (p : State → Bool) : Bool :=
  match seqPlace s w 256 with
  | .ok r => r.2.2 == 0x180000 && seqKey r.1 (curCtx r.1) r.2.1 == 0x10000
    && seqOk (payLeaves r.1 (curCtx r.1)) (curCtx r.1) 0x180000
    && p (noteSequence (payLeaves r.1 (curCtx r.1)) (curCtx r.1) 0x10000 0x180000)
  | .error _ => false

/-- The descriptor that x1 names, with a property of the state in which its instruction goes on. -/
def Sequence (s : State) (p : State → Bool) : Prop := ∃ s', SeqAt s (getX (curThread s) 1) s' 0x10000 0x180000 ∧ p s' = true

theorem seq_of {s : State} {p : State → Bool} (h : seqB s (getX (curThread s) 1) p = true) : Sequence s p := by
  unfold seqB at h
  split at h
  · next r h₁ =>
    simp only [Bool.and_eq_true, beq_iff_eq] at h
    obtain ⟨⟨⟨h₂, h₃⟩, h₄⟩, h₅⟩ := h
    exact ⟨_, ⟨r.1, r.2.1, by rw [h₁, ← h₂], h₃.symm, h₄, rfl⟩, h₅⟩
  · exact nomatch h

/-- A thread that is a member of the window, with a tag. -/
def memberOf (tag : BitVec 8) (t : Thread) : Thread :=
  { t with window := some ⟨addrIn 2 0, 0x10000, 0⟩, csr := { t.csr with spec := true, specd := tag } }
def openWindow (s : State) : State := setWindow s 1 0x10000 (some ⟨(0x12000, 256), (0x13000, 17 * 64), 0, clusterOf programCore, [], 0, none, 0⟩)

theorem witness_SpecResult_windows :
    (∃ s, Sequence s (fun s' => seqWstate s' 0x180000 == 0 && seqRing s' 0x180000 == 1) ∧ (curThread s).csr.spec = false
      ∧ Runs s { xr := [1, 2], noMsg := true } ∧ getX (curThread s) 2 = 1)
    ∧ (∃ s, Sequence s (fun s' => seqWstate s' 0x180000 == 1 && seqMembers s' 0x180000 == 15) ∧ (curThread s).csr.spec = false
      ∧ Runs s { xr := [1], noMsg := true })
    ∧ (∃ s m, (curThread s).window = some m ∧ Runs s { xr := [1], noMsg := true } ∧ getX (curThread s) 1 = 0xFF ∧ (curThread s).unacked = 0)
    ∧ (∃ s m, (curThread s).window = some m ∧ Runs s { xr := [1], noMsg := true } ∧ getX (curThread s) 1 = 0
      ∧ herePa s (curCtx s) m.desc = some 0x180000 ∧ 0 < seqNdraft s 0x180000)
    ∧ ∃ s, Sequence s (fun s' => isMember (curThread s') 0x10000 && seqWstate s' 0x180000 == 1 && (curThread s').unacked == 0
        && (getWindow? (seqPut s' 0x180000 81 1 2) (curCtx s') 0x10000).isSome && seqNdraft s' 0x180000 == 1)
      ∧ Runs s { xr := [1, 2], gs := [3], noMsg := true } ∧ getX (curThread s) 2 = 1 :=
  ⟨⟨sequenced 0 0 0 (withX [(2, 1)]), seq_of (by decide +kernel), by decide +kernel, runs_of (by decide +kernel), by decide +kernel⟩,
    ⟨sequenced 1 1 15 id, seq_of (by decide +kernel), by decide +kernel, runs_of (by decide +kernel)⟩,
    ⟨bench (memberOf 0 ∘ withX [(1, 0xFF)]), ⟨addrIn 2 0, 0x10000, 0⟩, by decide +kernel, runs_of (by decide +kernel), by decide +kernel,
      by decide +kernel⟩,
    ⟨sequenced 1 1 1 (memberOf 0) |> fun s => putThread s (setX (curThread s) 1 0), ⟨addrIn 2 0, 0x10000, 0⟩, by decide +kernel,
      runs_of (by decide +kernel), by decide +kernel, by decide +kernel, by decide +kernel⟩,
    ⟨openWindow (sequenced 1 1 1 (memberOf 0 ∘ withX [(2, 1)])), seq_of (by decide +kernel), runs_of (by decide +kernel), by decide +kernel⟩⟩

/-- Whether a list of places translates, with a property of the state that leaves. -/
def touchesB (s : State) (l : List (Nat × Nat)) (p : State → Bool) : Bool :=
  match touchAll s l with
  | .ok s => p s
  | .error _ => false

theorem witness_SpecResult_positions :
    (∃ s, Sequence s (fun s' => memberTag (curThread s') 0x10000 == none && seqLen s' 0x180000 == 9
        && touchesB s' [(seqGenva s' 0x180000 + 4, 4), (seqBlklist s' 0x180000 + 4, 4)] fun s₂ =>
          genOk s₂ (curCtx s') 0x180000 8 && vaGet s₂ (curCtx s') (seqBlklist s₂ 0x180000 + 4) 4 == 1)
      ∧ Runs s { xr := [1, 4], xs := [5], gs := [3], noMsg := true } ∧ getX (curThread s) 4 = 8)
    ∧ ∃ s, Sequence s (fun s' => seqWstate s' 0x180000 == 0 && (curThread s').unacked == 0 && seqRing s' 0x180000 == 1
        && touchesB s' [(seqGenva s' 0x180000 + 4 * posSlot 1 1 9, 4)] fun s₂ => s₂.power)
      ∧ Runs s { xr := [1, 2], noMsg := true } ∧ getX (curThread s) 2 = 1 :=
  ⟨⟨sequenced 0 0 0 (withX [(4, 8)]), seq_of (by decide +kernel), runs_of (by decide +kernel), by decide +kernel⟩,
    ⟨sequenced 0 0 0 (withX [(2, 1)]), seq_of (by decide +kernel), runs_of (by decide +kernel), by decide +kernel⟩⟩

/-- BALLOC without an index, of a pool with blocks and of an empty one; with one, outside a window, and by a member with a tag; BFREE of
a block with two counts. -/
theorem witness_SpecResult_blocks :
    (∃ s, Sequence s (fun s' => memberTag (curThread s') 0x10000 == none && seqPool s' 0x180000 == 0x11200
        && touchesB s' [(0x11200, 64)] fun s₂ => vaGet s₂ 1 (0x11200 + 24) 40 == 0 && poolTop s₂ 1 0x11200 == 2
          && touchesB s₂ [(poolStack s₂ 1 0x11200 + 4, 4)] fun s₃ =>
            touchesB s₃ [(poolCounts s₃ 1 0x11200 + 4 * vaGet s₃ 1 (poolStack s₂ 1 0x11200 + 4) 4, 4)] fun s₄ => s₄.power)
      ∧ Runs s { xr := [1, 2], xw := some 3, noMsg := true } ∧ getX (curThread s) 2 = 0xFFFF)
    ∧ (∃ s, Sequence s (fun s' => touchesB s' [(0x11200, 64)] fun s₂ => poolTop s₂ 1 0x11200 == 0))
    ∧ (∃ s, Sequence s (fun s' => memberTag (curThread s') 0x10000 == none && seqWstate s' 0x180000 == 0
        && seqIndices s' 0x180000 == 2 && touchesB s' [(0x11200, 64)] fun s₂ => touchesB s₂ [(seqBlklist s₂ 0x180000 + 4, 4)] fun s₅ =>
          touchesB s₅ [(poolCounts s₅ 1 0x11200 + 4, 4)] fun s₆ => decide (1 < poolNblk s₅ 1 0x11200) && poolCount s₆ 1 0x11200 1 == 2)
      ∧ getX (curThread s) 2 = 1)
    ∧ (∃ s, Sequence s (fun s' => memberTag (curThread s') 0x10000 == some 0
        && ((List.range 16).find? fun j => !tentValid (seqTent s' 0x180000 j)) == some 0))
    ∧ ∃ s, Sequence s (fun s' => touchesB s' [(0x11200, 64)] fun s₂ =>
        touchesB s₂ [(poolCounts s₂ 1 0x11200 + 4, 4)] fun s₃ => poolCount s₃ 1 0x11200 1 == 2)
      ∧ Runs s { xr := [1, 2], noMsg := true } ∧ getX (curThread s) 2 = 1 :=
  ⟨⟨sequenced 0 0 0 (withX [(2, 0xFFFF)]), seq_of (by decide +kernel), runs_of (by decide +kernel), by decide +kernel⟩,
    ⟨sequenced 0 0 0 id 0, seq_of (by decide +kernel)⟩,
    ⟨sequenced 0 0 0 (withX [(2, 1)]), seq_of (by decide +kernel), by decide +kernel⟩,
    ⟨sequenced 1 1 1 (memberOf 0), seq_of (by decide +kernel)⟩,
    ⟨sequenced 0 0 0 (withX [(2, 1)]), seq_of (by decide +kernel), runs_of (by decide +kernel), by decide +kernel⟩⟩

/-- The bench with a prefix header at VA 0x11500 over 8 entries at 0x14000, a candidate of key (0x1230, 5) in its scratchpad, and entries
whose key is (0x1200 + `hash`, 5), or (0, 0), in the first `n` places. -/
def prefixed (n : Nat) (hash : BitVec 8) : State :=
  withPage ([(0x1501, 0x40), (0x1502, 1), (0x1508, 3)] ++ (List.range n).flatMap fun i =>
      (if hash = 0 then [] else [(0x4000 + 32 * i, hash), (0x4001 + 32 * i, 0x12), (0x4008 + 32 * i, 5)]) ++ [(0x400E + 32 * i, 1)])
    (benchCore (fun c => { c with pool := [(992, 0x30), (993, 0x12), (1000, 5)] })
      (withX [(1, addrIn 2 0x1500), (2, addrIn 1 992), (4, 0x1230), (5, 5)]))

/-- What a probe of that key finds: the entry of the key, and the room. -/
def probesB (s : State) (p : State → Option Nat → Option Nat → Bool) : Bool :=
  match seqPlace s (addrIn 2 0x1500) 64 with
  | .ok r => r.2.1 == 0x11500 && pxOk r.1 r.2.2 && (match pxTouch r.1 r.2.2 0x1230 0 8 with
    | .ok s₂ => p s₂ (pxFind s₂ (curCtx s₂) r.2.2 0x1230 5) (pxRoom s₂ (curCtx s₂) r.2.2 0x1230)
    | .error _ => false)
  | .error _ => false

/-- A PXINS of that key, with a property of the Trail of its context. -/
def insertsB (s : State) (p : Trail → Bool) : Bool :=
  match prefixCandidate s (getX (curThread s) 2) with
  | .ok r => leNat (r.2.1.take 8) == 0x1230 && leNat ((r.2.1.drop 8).take 4) == 5
    && probesB r.1 fun s₂ _ _ => (curThread s₂).unacked == 0 && (match getCtx? s₂ (curCtx s₂) with
      | some x => p x.trail
      | none => false)
  | .error _ => false

/-- The same bench in replay, with that key recorded for the STAMP `n`. -/
def replaying (n : Nat) (s : State) : State := modTrail s 1 fun tr =>
  { tr with mode := 2, index := [BitVec.ofNat 128 (n + 5 * 2 ^ 32 + 0x1230 * 2 ^ 64 + 3 * 2 ^ 124)] }

theorem witness_SpecResult_prefix :
    (∃ s, getX (curThread s) 1 = addrIn 2 0x1500 ∧ Runs s { xr := [1, 4], xs := groupRegs 3 ++ [5], noMsg := true }
      ∧ getX (curThread s) 4 = 0x1230 ∧ getX (curThread s) 5 = 5 ∧ probesB s (fun _ f _ => f.isSome) = true)
    ∧ (∃ s, Runs s { xr := [1, 2], gs := [3], noMsg := true } ∧ insertsB s (fun tr => tr.mode != 2) = true)
    ∧ (∃ s, Runs s { xr := [1, 2], gs := [3], noMsg := true }
      ∧ insertsB s (fun tr => tr.mode == 2 && prefixReplay tr 0x1230 5 (curThread s).csr.stamp == some none) = true)
    ∧ ∃ s, Runs s { xr := [1, 2], gs := [3], noMsg := true }
      ∧ insertsB s (fun tr => tr.mode == 2 && prefixReplay tr 0x1230 5 (curThread s).csr.stamp == some (some 0)) = true :=
  ⟨⟨prefixed 1 0x30, by decide +kernel, runs_of (by decide +kernel), by decide +kernel, by decide +kernel, by decide +kernel⟩,
    ⟨prefixed 0 0, runs_of (by decide +kernel), by decide +kernel⟩,
    ⟨replaying 7 (prefixed 0 0), runs_of (by decide +kernel), by decide +kernel⟩,
    ⟨replaying 0 (prefixed 0 0), runs_of (by decide +kernel), by decide +kernel⟩⟩

/-- The bench's candidate at the home slice, of a header at `va`. -/
def waiting (va : Nat) (wins : Option Bool) : PrefixWait :=
  ⟨⟨programCore, 0⟩, 3, va, leBytes 32 (0x1230 + 5 * 2 ^ 64), ⟨descOf 0 1024 0 0, 992⟩, 0, wins⟩

/-- What PrefixServed asks of a state whose index lies at PA 0x181500: its pages here, what a probe finds, and the room. -/
def servesB (s : State) (w : PrefixWait) (p : Option Nat → Option Nat → Bool) : Bool :=
  (getCtx? s 1).isSome && herePa s 1 w.header == some 0x181500 && corePlaced s w.who.core
    && pxHere s 1 0x181500 (leNat (w.bytes.take 8)) 0 8
    && p (pxFind s 1 0x181500 0x1230 5) (pxRoom s 1 0x181500 0x1230)

theorem witness_SpecResult_served :
    herePa (prefixed 0 0) 1 (waiting 0x50000 none).header = none
    ∧ servesB (prefixed 0 0) (waiting 0x11500 none) (fun f room => f == none && room.isSome) = true
    ∧ servesB (prefixed 1 0x30) (waiting 0x11500 none) (fun f _ => match f with
      | some va => (candidateWrite (prefixed 1 0x30) ⟨programCore, 0⟩ (waiting 0x11500 none).dest 0
        (leBytes 32 (vaGet (prefixed 1 0x30) 1 va 32))).isSome
      | none => false) = true
    ∧ servesB (prefixed 8 0) (waiting 0x11500 none) (fun f room => f == none && room == none) = true
    ∧ (candidateWrite (prefixed 8 0) ⟨programCore, 0⟩ (waiting 0x11500 none).dest 14 [0]).isSome = true
    ∧ servesB (prefixed 0 0) (waiting 0x11500 (some false)) (fun f _ => f == none) = true := by
  refine ⟨?_, ?_, ?_, ?_, ?_, ?_⟩ <;> decide +kernel

theorem witness_RasterResult_asked : ∃ s, (curThread s).fetched = none ∧ portShut s (coreKey (curCtx s) (segTarget (getSeg (curThread s) 3))) = false
    ∧ Runs s { xr := [1, 2], gs := [3], noMsg := true } ∧ fieldOf (getX (curThread s) 2) 56 5 = 0
    ∧ BitVec.ofNat 3 (fieldOf (getX (curThread s) 2) 61 3) = 3 ∧ segKind (getSeg (curThread s) 3) = kindCore
    ∧ Passes s 3 (wordOf (fieldOf (getX (curThread s) 2) 0 56)) 32 (needR + needW) true :=
  ⟨bench (withX [(2, addrIn 3 992)]), by decide +kernel, by decide +kernel, runs_of (by decide +kernel), by decide +kernel,
    by decide +kernel, by decide +kernel, passes_of (by decide +kernel)⟩

/-! ## The link unit -/

/-- A unit's reply is the only packet on its way to the thread. -/
theorem witness_LinkResult_reply : ∃ s, NoReply s ∧ (curThread s).csr.chain = false :=
  ⟨bench id, ⟨by decide +kernel, by decide +kernel⟩, by decide +kernel⟩

theorem witness_LinkResult_post :
    (∃ s, (getCtx? s (curCtx s)).isSome = true ∧ gateOpen (curThread s) 7 0 = true ∧ (curThread s).unacked = 0
      ∧ Runs s { xr := [1, 4], xs := [5], gs := [7], noMsg := true } ∧ fieldOf (getX (curThread s) 1) 16 48 = 0
      ∧ getX (curThread s) 5 = 0)
    ∧ ∃ s, fieldOf (getX (curThread s) 1) 16 48 = 0 ∧ fieldOf (getX (curThread s) 5) 32 32 = 0 ∧ getX (curThread s) 5 ≠ 0
      ∧ fieldOf (getX (curThread s) 4) 56 5 = 0 ∧ fieldOf (getX (curThread s) 4) 61 3 = 2
      ∧ Passes s 2 (wordOf (fieldOf (getX (curThread s) 4) 0 56)) (getX (curThread s) 5).toNat needW false
      ∧ segKind (getSeg (curThread s) 2) = kindGlobal
      ∧ addressOf s 2 (wordOf (fieldOf (getX (curThread s) 4) 0 56)) % 64 = 0
      ∧ ∃ r, pinRange s 1 (addressOf s 2 (wordOf (fieldOf (getX (curThread s) 4) 0 56))) (getX (curThread s) 5).toNat [] [] 2 = .ok r
        ∧ (r.2.1.length == 1) = true :=
  ⟨⟨bench (withX [(1, 0xFFFF)]), by decide +kernel, by decide +kernel, by decide +kernel, runs_of (by decide +kernel),
      by decide +kernel, by decide +kernel⟩,
    ⟨bench (withX [(1, 0xFFFF), (4, addrIn 2 0xFFC0), (5, 64)]), by decide +kernel, by decide +kernel, by decide +kernel, by decide +kernel,
      by decide +kernel, passes_of (by decide +kernel), by decide +kernel, by decide +kernel, ok_of (by decide +kernel)⟩⟩

/-- The bench with an arm at place 255, and x1 its id. -/
def armOf (state : Nat) : Arm :=
  { gen := 3, state := state, reason := 0, src := ⟨descOf 0 1024 0 0, 0⟩, ctxCore := programCore, slot := 0, held := false, sys := true, len := 100, doff := 0
    rctx := 1, dev := 2, win := 3, tctr := 4, sctr := 5, thresh := 9, accepted := 0, packets := [(0, (0, [1, 2, 3], 256, none))] }
def armed (state : Nat) : State := setArm (bench (withX [(1, 0x3FF)])) 1 255 (some (armOf state))

/-- A send descriptor: LEN 100 from seg1, RCTX 1, device 63, window 3, counters 4 and 5, THRESH 9. -/
def sendCells : List Host.Cell :=
  [(999, 0x20), (1000, 100), (1008, 1), (1010, 63), (1011, 3), (1012, 4), (1013, 5), (1016, 9)]

theorem witness_LinkResult_arms :
    (∃ s x, Runs s { xr := [1], xw := some 3, gs := [7], noMsg := true } ∧ getCtx? s 1 = some x ∧ (getX (curThread s) 1).toNat = 992
      ∧ 992 + 32 ≤ curSP s ∧ selfPending s = false ∧ poolPoisoned (curCore s) 992 32 = false
      ∧ (let bs := poolBytes (curCore s) 992 32
        let f (o n : Nat) : Nat := leNat ((bs.drop o).take n)
        f 8 4 = 100 ∧ f 18 1 = 63 ∧ f 22 2 = 0 ∧ fieldOf (wordOf (f 0 8)) 56 5 = 0 ∧ fieldOf (wordOf (f 0 8)) 61 3 = 1)
      ∧ Passes s 1 0 100 needR false ∧ segKind (getSeg (curThread s) 1) ≠ kindCore
      ∧ ((List.range 256).find? fun i => (mapGet? x.arms i).isNone) = some 0)
    ∧ (getArm? (armed armFailed) 1 (fieldOf (getX (curThread (armed armFailed)) 1) 0 8) = some (armOf armFailed)
      ∧ (getX (curThread (armed armFailed)) 1).toNat / 256 = (armOf armFailed).gen.toNat)
    ∧ getArm? (bench id) 1 (fieldOf (getX (curThread (bench id)) 1) 0 8) = none
    ∧ ∃ s, Runs s { xr := [1, 2], gs := [7], noMsg := true } ∧ (getX (curThread s) 1).toNat = 255 :=
  ⟨⟨benchCore (fun c => { c with pool := sendCells }) (withX [(1, 992)]), _, runs_of (by decide +kernel), rfl, by decide +kernel,
      by decide +kernel, by decide +kernel, by decide +kernel, by decide +kernel, passes_of (by decide +kernel), by decide +kernel,
      by decide +kernel⟩, by decide +kernel, by decide +kernel, ⟨bench (withX [(1, 255)]), runs_of (by decide +kernel), by decide +kernel⟩⟩

/-! ## The raster units -/

/-- A frame of one pixel with colour at 0x10000 and a sample, one owner, one state, and its launch record at VA 0x12000. -/
def frameDesc : BitVec 1024 :=
  BitVec.ofNat 1024 (0x10000 + 1 * 2 ^ 128 + 1 * 2 ^ 144 + 1 * 2 ^ 168 + 1 * 2 ^ 176 + 0x11000 * 2 ^ 192)
    ||| (1#1024 <<< 256) ||| (0x12000#1024 <<< 320)

def benchFrame : Frame :=
  { emptyFrame with
    phase := .opened, desc := frameDesc, core := programCore, offset := 896, launch := 1, owners := [(0, ⟨[], [], [], 0, 0⟩)]
    geo := [(0, ⟨5, 5, []⟩)] }

def framed (f : Frame) (t : Thread → Thread) : State := modFrame (benchCore id t) 1 fun _ => f

theorem witness_RasterResult_geometry :
    (∃ s, gateOpen (curThread s) 7 0 = true ∧ getFrame? s (curCtx s) = some benchFrame ∧ benchFrame.phase = .opened
      ∧ Runs s { xr := [1], gs := [7], noMsg := true }
      ∧ ∃ r, primOperand s (getX (curThread s) 1) = .ok r
        ∧ (primOk (bytesVal 1024 r.2) (frameNstate benchFrame) && !belowFloor r.1 benchFrame (primSeq (bytesVal 1024 r.2))) = true)
    ∧ (∃ s, belowFloor s benchFrame (getX (curThread s) 1) = false ∧ mapGet? benchFrame.geo (dieOf s s.cur.1) = some ⟨5, 5, []⟩
      ∧ (getX (curThread s) 1).ult 5 = false)
    ∧ ∃ s, Runs s { gs := [7], noMsg := true } ∧ Runs s { gs := [7, 3], noMsg := true } ∧ getFrame? s 1 = some benchFrame :=
  ⟨⟨framed benchFrame fun t => { withX [(1, addrIn 1 896)] t with geo := some (0, 0) }, by decide +kernel, by decide +kernel, rfl,
      runs_of (by decide +kernel), ok_of (by decide +kernel)⟩,
    ⟨framed benchFrame (withX [(1, 5)]), by decide +kernel, by decide +kernel, by decide +kernel⟩,
    ⟨framed benchFrame id, runs_of (by decide +kernel), runs_of (by decide +kernel), by decide +kernel⟩⟩

theorem witness_RasterResult_askedPrimitive : ∃ s, (curThread s).fetched = none
    ∧ portShut s (coreKey (curCtx s) (segTarget (getSeg (curThread s) 3))) = false
    ∧ Runs s { xr := [1], gs := [7], noMsg := true } ∧ gateOpen (curThread s) 7 0 = true
    ∧ getFrame? s (curCtx s) = some benchFrame ∧ benchFrame.phase = .opened ∧ fieldOf (getX (curThread s) 1) 56 5 = 0
    ∧ BitVec.ofNat 3 (fieldOf (getX (curThread s) 1) 61 3) = 3 ∧ segKind (getSeg (curThread s) 3) = kindCore
    ∧ Passes s 3 (wordOf (fieldOf (getX (curThread s) 1) 0 56)) 128 needR false ∧ addressOf s 3 896 % 64 = 0 :=
  ⟨framed benchFrame (withX [(1, addrIn 3 896)]), by decide +kernel, by decide +kernel, runs_of (by decide +kernel), by decide +kernel,
    by decide +kernel, rfl, by decide +kernel, by decide +kernel, by decide +kernel, passes_of (by decide +kernel), by decide +kernel⟩

theorem witness_RasterResult_readPrimitive : ∃ s, (curThread s).fetched = none
    ∧ Runs s { xr := [1], gs := [7], noMsg := true } ∧ gateOpen (curThread s) 7 0 = true
    ∧ getFrame? s (curCtx s) = some benchFrame ∧ fieldOf (getX (curThread s) 1) 56 5 = 0
    ∧ segKind (getSeg (curThread s) 2) = kindGlobal ∧ Passes s 2 (wordOf (fieldOf (getX (curThread s) 1) 0 56)) 128 needR false
    ∧ addressOf s 2 0xFF80 % 64 = 0 ∧ ∃ p, viewRead s (curView s) (addressOf s 2 0xFF80) 64 accLoad = .ok p
    ∧ (match viewRead p.1 (curView p.1) (addressOf s 2 0xFF80 + 64) 64 accLoad with
      | .ok _ => true
      | .error _ => false) = true :=
  ⟨framed benchFrame (withX [(1, addrIn 2 0xFF80)]), by decide +kernel, runs_of (by decide +kernel), by decide +kernel,
    by decide +kernel, by decide +kernel, by decide +kernel, passes_of (by decide +kernel), by decide +kernel, ok_of (by decide +kernel)⟩

/-- A whole quad of one sample a pixel, of the primitive with SEQ 7. -/
def benchQuad : Quad := ⟨0, 0, 7, 0, 0, 0x1111, 1, 8, 9, List.replicate 8 0, false⟩

/-- A kernel image at VA 0x10000 with one strand and no more, a launch record of it, and a record for fragments. -/
def imageCells : List Host.Cell := [(0, 0x5A), (1, 0x47), (2, 0x42), (3, 0x4E), (16, 0xF0), (17, 4), (38, 1)]
def launchOf (threads : Nat) : BitVec 512 := BitVec.ofNat 512 (0x10000 + threads * 2 ^ 336) ||| (0xFFFF#512 <<< 464)
/-- The fragment launch record at VA 0x12000, in the page. -/
def recordCells : List Host.Cell := [(0x2002, 1), (0x203A, 0xFF), (0x203B, 0xFF)]

def checkB (c : LaunchCheck) (p : Kernel → Bool) : Bool :=
  match c with
  | .ok k => p k
  | _ => false

theorem check_of {c : LaunchCheck} {p : Kernel → Bool} (h : checkB c p = true) : ∃ k, c = .ok k ∧ p k = true := by
  cases c with
  | ok k => exact ⟨k, rfl, h⟩
  | wait => exact nomatch h
  | refused _ => exact nomatch h

theorem witness_RasterResult_fragments :
    (∃ s, (curThread s).quad = some benchQuad ∧ gateOpen (curThread s) 7 0 = true
      ∧ Runs s { xs := groupRegs 2, vs := [3], gs := [7], noMsg := true } ∧ getFrame? s 1 = some benchFrame
      ∧ Runs s { xr := [1], vs := [30, 31], gs := [7], noMsg := true } ∧ fieldOf (getX (curThread s) 1) 4 60 = 0
      ∧ getX (curThread s) 1 = 15 ∧ benchQuad.out = false ∧ (curThread s).unacked = 0)
    ∧ (∃ s c, Runs s { xr := [1], gs := [7, 3], noMsg := true } ∧ getCtx? s 1 = some c ∧ c.frame.phase = .closed
      ∧ (getX (curThread s) 1).toNat = 896 ∧ 896 + 128 ≤ curSP s ∧ selfPending s = false ∧ poolPoisoned (curCore s) 896 128 = false
      ∧ frameOk s 1 c { emptyFrame with
        desc := bytesVal 1024 (poolBytes (curCore s) 896 128), core := s.cur.1, offset := 896
        openLaunch := liveLaunch s (curRef s), ltag := (curThread s).ltag } = true
      ∧ bytesVal 1024 (poolBytes (curCore s) 896 128) = frameDesc) :=
  ⟨⟨framed benchFrame fun t => { withX [(1, 15)] t with quad := some benchQuad }, by decide +kernel, by decide +kernel,
      runs_of (by decide +kernel), by decide +kernel, runs_of (by decide +kernel), by decide +kernel, by decide +kernel, by decide +kernel,
      by decide +kernel⟩,
    ⟨benchCore (fun c => poolStore c 0 896 (valBytes 128 frameDesc)) (withX [(1, 896)]), _, runs_of (by decide +kernel), rfl,
      by decide +kernel, by decide +kernel, by decide +kernel, by decide +kernel, by decide +kernel, by decide +kernel, by decide +kernel⟩⟩

theorem witness_RasterResult_record : ∃ s c, getCtx? s 1 = some c ∧ needRange s 1 (frameFlrec benchFrame) 64 = .here
    ∧ (let record : BitVec 512 := bytesVal 512 ((vaBytes s 1 (frameFlrec benchFrame) 64).getD []);
      record = launchOf 0 ∧ fragRecordOk record = true)
    ∧ ∃ k, checkRecord s 1 c (launchOf 0) true = .ok k ∧ (k.part == 0x4F0) = true :=
  ⟨withPage (imageCells ++ recordCells) (bench id), _, rfl, by decide +kernel, by decide +kernel, check_of (by decide +kernel)⟩

/-! ## Messages on their way -/

/-- A state with a packet in the net behind one that goes another way. -/
def posted (p : Packet) (s : State) : State := { s with net := [.ack ⟨0, 0⟩ 0, p] }

theorem arrives_posted {p : Packet} {s : State} (h : wayOf (.ack ⟨0, 0⟩ 0) ≠ wayOf p)
    (k : ctxSaved (posted p s) (packetCtx p) = false) : Arrives (posted p s) 1 p :=
  ⟨rfl, fun q hq => by simp only [posted, List.take_succ_cons, List.take_zero, List.mem_singleton] at hq; exact hq ▸ h, k⟩

/-- The bench's thread, and another core of its cluster. -/
def me : Ref := ⟨programCore, 0⟩
def away : Nat := programCore + 15

/-- The bench with core 15, which may hold a deferred STF.E of the thread. -/
def emptying (behind : Bool) : State := modCore (bench id) away fun c =>
  { c with deferred := if behind then [⟨me, .fill 0 (leBytes 8 5) true, false⟩] else [] }

theorem witness_ArrivalResult_net :
    (∃ s d w sg off p, (refThread s me).wait = .reply (.load d w) sg off ∧ Arrives s 1 p ∧ p = .reply me away (.ok (leBytes 8 5)))
    ∧ (∃ s d w sg off p, (refThread s me).wait = .reply (.load d w) sg off ∧ Arrives s 1 p ∧ p = .reply me away (.error 0x11))
    ∧ (∃ s d w sg off p, (refThread s me).wait = .reply (.load d w) sg off ∧ Arrives s 1 p ∧ p = .reply me away (.error 0x10))
    ∧ (∃ s p, Arrives s 1 p ∧ p = .ack me away)
    ∧ (∃ s src p, Arrives s 1 p ∧ p = .chainWord src me 5 ∧ (refThread s me).up = some src)
    ∧ (∃ s m p, Arrives s 1 p ∧ p = .request away m ∧ corePlaced s away = true ∧ (getCore s away).inq.length < 32)
    ∧ (∃ s m p, Arrives s 1 p ∧ p = .request programCore m ∧ (getCore s programCore).inq.length = 32)
    ∧ (∀ behind : Bool, ∃ s m p, Arrives s 1 p ∧ p = .resend away m s.cycle ∧ heldAt (without s 1) away m.src = behind
      ∧ (without s 1).net.any (mayWaitTo away m.src) = false ∧ (s.net.take 1).any (resendTo away m.src) = false)
    ∧ ∃ s p, Arrives s 1 p ∧ p = .reply me away (.ok (leBytes 8 5)) ∧ replyHeld s me = false ∧ (refThread s me).wait = .launch 3 :=
  let s := bench fun t => { t with wait := .reply (.load 3 6) 3 8 }
  let m : Message := ⟨me, .load 0 8⟩
  ⟨⟨posted _ s, 3, 6, 3, 8, _, rfl, arrives_posted (by decide +kernel) (by decide +kernel), rfl⟩, ⟨posted _ s, 3, 6, 3, 8, _, rfl, arrives_posted (by decide +kernel) (by decide +kernel), rfl⟩,
    ⟨posted _ s, 3, 6, 3, 8, _, rfl, arrives_posted (by decide +kernel) (by decide +kernel), rfl⟩, ⟨posted _ s, _, arrives_posted (by decide +kernel) (by decide +kernel), rfl⟩,
    ⟨posted (.chainWord ⟨away, 0⟩ me 5) (bench fun t => { t with up := some ⟨away, 0⟩ }), ⟨away, 0⟩, _, arrives_posted (by decide +kernel) (by decide +kernel), rfl,
      by decide +kernel⟩,
    ⟨posted (.request away m) s, m, _, arrives_posted (by decide +kernel) (by decide +kernel), rfl, by decide +kernel, by decide +kernel⟩,
    ⟨posted (.request programCore m) (benchCore (fun c => { c with inq := List.replicate 32 m }) id), m, _, arrives_posted (by decide +kernel) (by decide +kernel), rfl,
      by decide +kernel⟩,
    (fun behind => ⟨posted (.resend away ⟨me, .load 0 8⟩ (bench id).cycle) (emptying behind), ⟨me, .load 0 8⟩, _,
      arrives_posted (by decide +kernel) (by cases behind <;> decide +kernel), rfl, by cases behind <;> decide +kernel, by
        cases behind <;> decide +kernel, by cases behind <;> decide +kernel⟩),
    ⟨posted _ (bench fun t => { t with wait := .launch 3 }), _, arrives_posted (by decide +kernel) (by decide +kernel), rfl,
      by decide +kernel, by decide +kernel⟩⟩

/-- The bench's thread awaits HOME's answer on a handle; slot 14 is who it passes it to, with `n` references in its inbox. -/
def handled (pass : Option Word) (n : Nat) : State :=
  modThread (bench fun t => { t with wait := .reply (.handle 0x103FF pass) 0 0 }) programCore 14 fun t =>
    { t with inbox := List.replicate n (0, programCore) }

theorem witness_ArrivalResult_handles :
    (∃ s w sg off p, Arrives s 1 p ∧ p = .reply me away (.ok []) ∧ (refThread s me).wait = .reply (.handle w none) sg off)
    ∧ ∀ n ∈ [3, 4], ∃ s w v sg off p, Arrives s 1 p ∧ p = .reply me away (.ok []) ∧ (refThread s me).wait = .reply (.handle w (some v)) sg off
      ∧ ∃ dst, passTarget (without s 1) (ctxOf me.core) v = .ok dst ∧ ((refThread s dst).inbox.length == n) = true := by
  refine ⟨⟨posted _ (handled none 0), _, _, _, _, arrives_posted (by decide +kernel) (by decide +kernel), rfl, rfl⟩, ?_⟩
  intro n hn
  refine ⟨posted _ (handled (some 0xE00000) n), _, _, _, _, _, arrives_posted (by decide +kernel) ?_, rfl, rfl, ?_⟩ <;>
    rcases (by simpa using hn : n = 3 ∨ n = 4) with rfl | rfl <;> first | exact ok_of (by decide +kernel) | decide +kernel

/-- The bench's core with a message in its queue. -/
def served (m : Request) (h : Core → Core) : State := benchCore (fun c => h { c with inq := [⟨⟨away, 2⟩, m⟩] }) id

theorem serves_served {m : Request} {h : Core → Core}
    (k : (slotServes (served m h) programCore && (getCore (served m h) programCore).inq.head? == some ⟨⟨away, 2⟩, m⟩
      && decide ((getCore (served m h) programCore).arrived < (getCore (served m h) programCore).inq.length)) = true) :
    Serves (served m h) programCore ⟨⟨away, 2⟩, m⟩ := by
  simp only [Bool.and_eq_true, beq_iff_eq, decide_eq_true_eq] at k
  exact ⟨k.1.1, k.1.2, k.2⟩

/-- One message of each kind that the slot serves, at the end of the scratchpad, and beyond it. -/
theorem witness_HandlerResult_slot :
    (∀ m ∈ [Request.user 0x10000 1 2 true, .load (scratchSize programPart - 8) 8, .load (scratchSize programPart - 7) 8,
        .store (scratchSize programPart - 8) (leBytes 8 5), .store (scratchSize programPart - 7) (leBytes 8 5),
        .atomic (scratchSize programPart - 8) 0 8 5 6, .cell (scratchSize programPart - 32) 3 0 0, .cell 0 4 0 0, .cell 0 6 0 0,
        .muster 1 (scratchSize programPart - 16) 0 7, .muster 4 0 1 7, .handle 0x3FF none],
      Serves (served m id) programCore ⟨⟨away, 2⟩, m⟩ ∧ poolPoisoned (getCore (served m id) programCore) 0 32 = false)
    ∧ poolPoisoned (getCore (served (.load 0 8) fun c => { c with poison := [0] }) programCore) 0 8 = true := by
  refine ⟨?_, by decide +kernel⟩
  intro m hm
  simp only [List.mem_cons, List.not_mem_nil, or_false] at hm
  rcases hm with rfl | rfl | rfl | rfl | rfl | rfl | rfl | rfl | rfl | rfl | rfl | rfl <;>
    exact ⟨serves_served (by decide +kernel), by decide +kernel⟩

/-- The same with entry 255 of the core's handle table OWNED by a thread. -/
def servedHandle (pass : Option Word) (owner : Ref) : State :=
  served (.handle 0x3FF pass) fun c => { c with handles := mapSet c.handles 255 ⟨3, hOwned, owner, 0, 0, 16⟩ }

theorem witness_HandlerResult_handles :
    (∃ s m, Serves s programCore m ∧ m.req = .handle 0x3FF none ∧ liveHandle s (ctxOf m.src.core) 0x3FF = none)
    ∧ (∀ p ∈ [(none, me), (none, ⟨away, 2⟩), (some 0xE00000, ⟨away, 2⟩)],
      Serves (servedHandle p.1 p.2) programCore ⟨⟨away, 2⟩, .handle 0x3FF p.1⟩ ∧
      ∃ x, liveHandle (servedHandle p.1 p.2) 1 0x3FF = some x ∧ (x.2.2.owner == p.2) = true)
    ∧ ∃ dst, passTarget (taken (servedHandle (some 0xE00000) ⟨away, 2⟩) programCore) 1 0xE00000 = .ok dst ∧ (dst.slot == 14) = true := by
  refine ⟨⟨served (.handle 0x3FF none) id, _, serves_served (by decide +kernel), rfl, by decide +kernel⟩, ?_, ok_of (by decide +kernel)⟩
  intro p hp
  simp only [List.mem_cons, List.not_mem_nil, or_false] at hp
  rcases hp with rfl | rfl | rfl <;> exact ⟨serves_served (by decide +kernel), some_of (by decide +kernel)⟩

/-- An addend for a poisoned cell. -/
theorem witness_HandlerResult_poisonedCell :
    ∃ s m, Serves s programCore m ∧ m.req = .cell 32 1 0 0 ∧ poolPoisoned (getCore s programCore) 32 32 = true :=
  ⟨served (.cell 32 1 0 0) fun c => { c with poison := [2] }, _, serves_served (by decide +kernel), rfl, by decide +kernel⟩

theorem witness_HandlerResult_sync :
    (∃ s m, Serves s programCore m ∧ m.req = .syncLoad 8 8 true ∧ requestEnd m.req ≤ scratchSize (getCore s programCore).part
      ∧ syncMet (getCore s programCore) m.req = true ∧ ∃ r, syncDo (getCore (taken s programCore) programCore) 16 m.req = .ok r
        ∧ (r.2.length == 8) = true)
    ∧ (∃ s m, Serves s programCore m ∧ m.req = .syncLoad 8 8 true ∧ syncMet (getCore s programCore) m.req = true
      ∧ (match syncDo (getCore (taken s programCore) programCore) 16 m.req with
        | .ok _ => false
        | .error e => e == causePoisoned) = true)
    ∧ (∃ s m, Serves s programCore m ∧ m.req = .fill 16 (leBytes 32 0) true ∧ syncMet (getCore s programCore) m.req = true)
    ∧ (∃ s m, Serves s programCore m ∧ m.req = .fe 0 3 ∧ syncMet (getCore s programCore) m.req = false
      ∧ ((getCore s programCore).deferred.filter takesEntry).length < 64)
    ∧ ∃ s m, Serves s programCore m ∧ m.req = .syncLoad 8 8 true ∧ syncMet (getCore s programCore) m.req = false
      ∧ 64 ≤ ((getCore s programCore).deferred.filter takesEntry).length :=
  ⟨⟨served (.syncLoad 8 8 true) (fulls 1), _, serves_served (by decide +kernel), rfl, by decide +kernel, by decide +kernel, ok_of (by decide +kernel)⟩,
    ⟨served (.syncLoad 8 8 true) fun c => { fulls 1 c with poison := [0] }, _, serves_served (by decide +kernel), rfl, by decide +kernel, by decide +kernel⟩,
    ⟨served (.fill 16 (leBytes 32 0) true) id, _, serves_served (by decide +kernel), rfl, by decide +kernel⟩,
    ⟨served (.fe 0 3) id, _, serves_served (by decide +kernel), rfl, by decide +kernel, by decide +kernel⟩,
    ⟨served (.syncLoad 8 8 true) fun c => { c with deferred := List.replicate 64 ⟨me, .fe 0 3, false⟩ }, _, serves_served (by decide +kernel), rfl,
      by decide +kernel, by decide +kernel⟩⟩

/-- The bench's thread, parked by its migration to core 15, whose slot 1 is in use. -/
def moving : State :=
  let s := bench fun t => { t with phase := .parked, wait := .migrate away false }
  let c := getCore s programCore
  setCore s away (coreSetSlot (coreSetSlot { c with part := 0x4F0 } 1 (coreSlot c 0)) 0 (coreSlot c 1))

theorem witness_ArrivalResult_engines :
    (∃ s p, Arrives s 1 p ∧ p = .answer me away 3 true 1)
    ∧ (∃ s p, Arrives s 1 p ∧ p = .answer me away (8 + 3) true 1)
    ∧ (∃ s p word sg off, Arrives s 1 p ∧ p = .answer me away 7 false 1
      ∧ (refThread (acquireAt (without s 1) me.core 1) me).wait = .reply (.muster word) sg off)
    ∧ (∃ s p slot, Arrives s 1 p ∧ p = .migrant me away ∧ (refThread s me).wait = .migrate away false
      ∧ (refThread s me).phase = .parked ∧ migrateReady (without s 1) me away = true
      ∧ lowestEmpty (getCore s away) (getCore s me.core).part = some slot ∧ (readyCore (without s 1) away (liveLaunch (without s 1) me)).isSome = true)
    ∧ (∃ s p n, Arrives s 1 p ∧ p = .drain me away 0 (leBytes 16 1) n true false ∧ scratchSize (getCore s away).part = n)
    ∧ (∃ s p n, Arrives s 1 p ∧ p = .drain me away 0 (leBytes 16 1) (n + 1) true false ∧ scratchSize (getCore s away).part = n)
    ∧ (∀ n ∈ [61376, 61377], ∃ s p q, Arrives s 1 p ∧ p = .drain me away 0 (leBytes 16 1) n true true
      ∧ (refThread s me).matq = [q] ∧ (refThread (engineWrite (without s 1) away (bytesAt 0 (leBytes 16 1)) [0]) me).matq = [q])
    ∧ (∃ s p n, Arrives s 1 p ∧ p = .chunk me away 0 [(0, 1)] [] none n ∧ scratchSize (getCore s away).part = n)
    ∧ (∃ s p n, Arrives s 1 p ∧ p = .chunk me away 0 [(0, 1)] [] none (n + 1) ∧ scratchSize (getCore s away).part = n)
    ∧ ∀ tag ∈ [6, 7], ∃ s p q, Arrives s 1 p ∧ p = .source me away tag (.ok (leBytes 16 1)) ∧ copyHead (getCore s me.core) me.slot = some q
      ∧ q.fetch = some none ∧ q.asked = 7 :=
  let s := bench id
  ⟨⟨posted _ s, _, arrives_posted (by decide +kernel) (by decide +kernel), rfl⟩, ⟨posted _ s, _, arrives_posted (by decide +kernel) (by decide +kernel), rfl⟩,
    ⟨posted (.answer me away 7 false 1) (bench fun t => { t with wait := .reply (.muster 5) 0 0 }), _, 5, 0, 0, arrives_posted (by decide +kernel) (by decide +kernel),
      rfl, by decide +kernel⟩,
    ⟨posted (.migrant me away) moving, _, 0, arrives_posted (by decide +kernel) (by decide +kernel), rfl, by decide +kernel, by decide +kernel, by decide +kernel,
      by decide +kernel, by decide +kernel⟩,
    ⟨posted (.drain me away 0 (leBytes 16 1) 61376 true false) s, _, 61376, arrives_posted (by decide +kernel) (by decide +kernel), rfl, by decide +kernel⟩,
    ⟨posted (.drain me away 0 (leBytes 16 1) (61376 + 1) true false) s, _, 61376, arrives_posted (by decide +kernel) (by decide +kernel), rfl, by decide +kernel⟩,
    fun n hn => by
      rcases (by simpa using hn : n = 61376 ∨ n = 61377) with rfl | rfl <;>
        exact ⟨posted _ (bench fun t => { t with matq := [matCmd (.zero 0)] }), _, matCmd (.zero 0), arrives_posted (by decide +kernel) (by decide +kernel), rfl,
          by decide +kernel, by decide +kernel⟩,
    ⟨posted (.chunk me away 0 [(0, 1)] [] none 61376) s, _, 61376, arrives_posted (by decide +kernel) (by decide +kernel), rfl, by decide +kernel⟩,
    ⟨posted (.chunk me away 0 [(0, 1)] [] none (61376 + 1)) s, _, 61376, arrives_posted (by decide +kernel) (by decide +kernel), rfl, by decide +kernel⟩,
    fun tag ht => by
      rcases (by simpa using ht : tag = 6 ∨ tag = 7) with rfl | rfl <;>
        exact ⟨posted _ (copies { fromPage 100 with fetch := some none, asked := 7 }), _, _, arrives_posted (by decide +kernel) (by decide +kernel),
          rfl, rfl, rfl, rfl⟩⟩

/-! ## Tasks, timers and Hampers -/

/-- The bench with task entry 5 of generation 3, of a phase and with a mailbox in memory, and its id. -/
def tasked (phase : TaskPhase) (mbox : List TaskMsg) (f : Thread → Thread) : State :=
  modCtx (bench f) 1 fun c => { c with tasks := [(5, ⟨phase, false, me, mbox, 0, 0⟩)], taskGens := [(5, 3)] }
def taskFive : Nat := 5 * 4096 + 3
def toTask (n : Nat) : Packet := .task ⟨programCore + 1, 0⟩ (messageTo n)

theorem witness_GroupSteps_tasks :
    (∃ s, Arrives s 1 (toTask (taskFive - 1)) ∧ currentId s 1 5 ≠ BitVec.ofNat 32 (taskFive - 1))
    ∧ (∃ s e, Arrives s 1 (toTask taskFive) ∧ getTask? s 1 5 = some e ∧ currentId s 1 5 = BitVec.ofNat 32 taskFive ∧ e.phase = .exited)
    ∧ (∃ s e, Arrives s 1 (toTask taskFive) ∧ getTask? s 1 5 = some e ∧ e.phase = .placed ∧ e.mbox = [])
    ∧ (∃ s e, Arrives s 1 (toTask taskFive) ∧ getTask? s 1 5 = some e ∧ e.phase = .unplaced ∧ e.mbox.length + 1 = mailboxCap s 1)
    ∧ (∃ s e, Arrives s 1 (toTask taskFive) ∧ getTask? s 1 5 = some e ∧ e.phase = .placed ∧ e.mbox ≠ [] ∧ mailboxCap s 1 ≤ e.mbox.length)
    ∧ (∃ s e, Arrives s 1 (.forward me (messageTo (taskFive - 1)) false) ∧ getTask? s (ctxOf me.core) 5 = some e
      ∧ currentId s 1 5 ≠ (messageTo (taskFive - 1)).task)
    ∧ (∃ s e, Arrives s 1 (.forward me (messageTo taskFive) false) ∧ getTask? s (ctxOf me.core) 5 = some e ∧ e.phase = .placed
      ∧ currentId s 1 5 = (messageTo taskFive).task ∧ (refThread s e.place).mailbox.length + askedInFlight (without s 1) e.place = 7 ∧ (messageTo taskFive).task ∉ (refThread s e.place).refusal)
    ∧ (∃ s, Arrives s 1 (.ask me 7) ∧ forwardInFlight (without s 1) me 7 = false)
    ∧ (∃ s m, Arrives s 1 (.bounce m) ∧ m.sender.slot ≠ 15 ∧ threadByNumber (without s 1) (ctxOf m.sender.core) m.number = some me
      ∧ (refThread s me).bounces.length = 3) :=
  ⟨⟨posted _ (tasked .placed [] id), arrives_posted (by decide +kernel) (by decide +kernel), by decide +kernel⟩,
    ⟨posted _ (tasked .exited [] id), _, arrives_posted (by decide +kernel) (by decide +kernel), rfl, by decide +kernel, rfl⟩,
    ⟨posted _ (tasked .placed [] id), _, arrives_posted (by decide +kernel) (by decide +kernel), rfl, rfl, rfl⟩,
    ⟨posted _ (tasked .unplaced (List.replicate 15 (messageTo taskFive)) id), _, arrives_posted (by decide +kernel) (by decide +kernel), rfl, rfl, by decide +kernel⟩,
    ⟨posted _ (tasked .placed (List.replicate 16 (messageTo taskFive)) id), _, arrives_posted (by decide +kernel) (by decide +kernel), rfl, rfl, by decide, by decide +kernel⟩,
    ⟨posted _ (tasked .placed [] id), _, arrives_posted (by decide +kernel) (by decide +kernel), rfl, by decide +kernel⟩,
    ⟨posted _ (tasked .placed [] fun t => { t with mailbox := List.replicate 7 (messageTo 1) }), _, arrives_posted (by decide +kernel) (by decide +kernel), rfl, rfl,
      by decide +kernel, by decide +kernel, by decide +kernel⟩,
    ⟨posted _ (bench id), arrives_posted (by decide +kernel) (by decide +kernel), by decide +kernel⟩,
    ⟨posted (.bounce { messageTo 1 with sender := me }) (bench fun t => { t with bounces := List.replicate 3 (messageTo 1) }), _,
      arrives_posted (by decide +kernel) (by decide +kernel), by decide, by decide +kernel, by decide +kernel⟩⟩

theorem witness_GroupSteps_slots :
    (∃ s : State, (refThread s me).csr.timer = 1 ∧ (refThread s me).phase ≠ .halted)
    ∧ (∃ s : State, (refThread s me).phase = .run ∧ engineRuns s programCore = true ∧ (refThread s me).msgLost = true)
    ∧ (∃ s : State, (refThread s me).phase = .run ∧ engineRuns s programCore = true ∧ (refThread s me).msgLost = false
      ∧ (refThread s me).timerTrap = true)
    ∧ (∃ s : State, (refThread s me).wait = .poll 7 ∧ 7 ≤ s.cycle) ∧ ∃ s : State, (refThread s me).wait = .poll 7 ∧ s.cycle < 7 :=
  ⟨⟨bench fun t => { t with csr := { t.csr with timer := 1 } }, by decide +kernel, by decide +kernel⟩,
    ⟨bench fun t => { t with msgLost := true }, by decide +kernel, by decide +kernel, by decide +kernel⟩,
    ⟨bench fun t => { t with timerTrap := true }, by decide +kernel, by decide +kernel, by decide +kernel, by decide +kernel⟩,
    ⟨{ bench fun t => { t with wait := .poll 7 } with cycle := 7 }, by decide +kernel, by decide +kernel⟩,
    ⟨{ bench fun t => { t with wait := .poll 7 } with cycle := 6 }, by decide +kernel, by decide +kernel⟩⟩

/-- The second cluster of a context of two, where a taker waits while the first has a pair to give. -/
def stealing (ps : List Pair) (ended : Bool) : State :=
  let s := pairing ps id
  let s := modCtx s 1 fun c => { c with record := c.record ||| (2#1024 <<< 704), map := [(0, placedEntry 0), (1, placedEntry 1)] }
  let k := coreKey 1 4096
  let s := setCore s k (getCore s programCore)
  let s := modCluster s (clusterOf k) fun c => { c with takers := [⟨⟨k, 15⟩, benchTrav, 0, 3, 0⟩], members := [⟨benchTrav, 0, 0⟩] }
  inCluster (fun c => { c with traversals := [(0, { treeTrav with members := [clusterOf k], ended := ended })] }) s

theorem witness_GroupSteps_hampers :
    (let k := coreKey 1 4096;
      let s := stealing [pairOf 0] false;
      let t := { treeTrav with members := [clusterOf k] };
      (getCluster s (clusterOf k)).takers.find? (·.who == ⟨k, 15⟩) = some ⟨⟨k, 15⟩, benchTrav, 0, 3, 0⟩
      ∧ travLive s (ctxOf k) benchTrav = some t ∧ t.steal = true ∧ engineRuns s k = true
      ∧ (stealRound s (ctxOf k) (clusterOf k) ⟨⟨k, 15⟩, benchTrav, 0, 3, 0⟩ t).isSome = true)
    ∧ (let k := coreKey 1 4096;
      let s := stealing [] false;
      (stealRound s (ctxOf k) (clusterOf k) ⟨⟨k, 15⟩, benchTrav, 0, 3, 0⟩ { treeTrav with members := [clusterOf k] }).isNone = true)
    ∧ (∃ s p, Arrives s 1 p ∧ p = .stolen (clusterOf programCore) ⟨me, benchTrav, 0, 3, 0⟩ (pairOf 0)
      ∧ (travEntry (without s 1) 1 benchTrav).isSome = true)
    ∧ (∃ s p, Arrives s 1 p ∧ p = .count benchTrav (clusterOf (coreKey 1 4096)) (clusterOf programCore) true
      ∧ (travEntry (without s 1) (ctxOf (firstCore (clusterOf programCore))) benchTrav).isSome = true)
    ∧ (∃ s p, Arrives s 1 p ∧ p = .count benchTrav (clusterOf (coreKey 1 4096)) (clusterOf programCore) false
      ∧ countUps (s.net.take 1) benchTrav 1 = false)
    ∧ (∃ (s : State) (p : Packet), s.net[1]? = some p ∧ p = .count benchTrav (clusterOf programCore) (clusterOf programCore) false
      ∧ (∀ q ∈ s.net.take 1, wayOf q ≠ wayOf p) ∧ countUps (s.net.take 1) benchTrav 1 = true)
    ∧ (let s := stealing [] true;
      let k := clusterOf (coreKey 1 4096);
      (getCluster s k).members[0]? = some ⟨benchTrav, 0, 0⟩
      ∧ (travEntry s 1 benchTrav).any (·.ended) = true ∧ k ≠ handleHome 1 benchTrav)
    ∧ (let s := modCluster (stealing [] true) (clusterOf (coreKey 1 4096)) fun c => { c with members := [] };
      (getCluster s (clusterOf programCore)).members[0]? = some ⟨benchTrav, 0, 0⟩ ∧ clusterOf programCore = handleHome 1 benchTrav
      ∧ ∀ p ∈ s.clusters, p.1 ≠ clusterOf programCore → ctxOf (firstCore p.1) = 1 → ∀ x ∈ p.2.members, x.handle ≠ benchTrav) :=
  ⟨by decide +kernel, by decide +kernel,
    ⟨posted _ (stealing [pairOf 0] false), _, arrives_posted (by decide +kernel) (by decide +kernel), rfl, by decide +kernel⟩,
    ⟨posted _ (stealing [pairOf 0] false), _, arrives_posted (by decide +kernel) (by decide +kernel), rfl, by decide +kernel⟩,
    ⟨posted _ (stealing [pairOf 0] false), _, arrives_posted (by decide +kernel) (by decide +kernel), rfl, by decide +kernel⟩,
    ⟨{ bench id with net := [.count benchTrav (clusterOf (coreKey 1 4096)) (clusterOf programCore) true,
        .count benchTrav (clusterOf programCore) (clusterOf programCore) false] }, _, rfl, rfl, by decide +kernel, by decide +kernel⟩,
    by decide +kernel, by decide +kernel⟩

/-! ## Replies and source bytes -/

/-- The bench's thread halted while it waits for a reply. -/
def halted (dest : ReplyTo) : State := bench fun t =>
  { t with phase := .halted, haltedFrom := some .parked, wait := .reply dest 3 8 }

theorem witness_ArrivalResult_held :
    (∃ s p, Arrives s 1 p ∧ p = .reply me away (.ok (leBytes 8 5)) ∧ replyHeld s me = true)
    ∧ ∃ s p, Arrives s 1 p ∧ p = .answer me away 7 true 1 ∧ replyHeld s me = true :=
  ⟨⟨posted _ (halted (.load 3 6)), _, arrives_posted (by decide +kernel) (by decide +kernel), rfl, by decide +kernel⟩,
    ⟨posted _ (halted (.muster 0)), _, arrives_posted (by decide +kernel) (by decide +kernel), rfl, by decide +kernel⟩⟩

/-- Source bytes at the end of the scratchpad, beyond it, and poisoned. -/
theorem witness_HandlerResult_source :
    (∀ n ∈ [scratchSize programPart, scratchSize programPart + 1],
      Serves (served (.source [(0, 16), (32, 8)] n 7) id) programCore ⟨⟨away, 2⟩, .source [(0, 16), (32, 8)] n 7⟩)
    ∧ (∀ p ∈ [((0 : Nat), (16 : Nat)), (32, 8)], poolPoisoned (getCore (served (.source [(0, 16), (32, 8)] 40 7) id) programCore) p.1 p.2 = false)
    ∧ ∃ s m, Serves s programCore m ∧ m.req = .source [(0, 16), (32, 8)] 40 7 ∧ poolPoisoned (getCore s programCore) 32 8 = true := by
  refine ⟨?_, by decide +kernel,
    ⟨served (.source [(0, 16), (32, 8)] 40 7) fun c => { c with poison := [2] }, _, serves_served (by decide +kernel), rfl, by decide +kernel⟩⟩
  intro n hn
  rcases (by simpa using hn : n = scratchSize programPart ∨ n = scratchSize programPart + 1) with rfl | rfl <;>
    exact serves_served (by decide +kernel)

/-- A reply that brings an operand, and a thread that has it. -/
theorem witness_SpecResult_given :
    (∃ s p, Arrives s 1 p ∧ p = .reply me away (.ok (leBytes 32 5)) ∧ (refThread s me).phase = .parked
      ∧ (refThread s me).wait = .reply .operand 3 992)
    ∧ (∃ s, (curThread s).fetched = some (leBytes 128 5) ∧ Passes s 2 0xFF80 128 needR false ∧ addressOf s 2 0xFF80 % 64 = 0
      ∧ segKind (getSeg (curThread s) 2) = kindGlobal)
    ∧ ∃ s, (curThread s).fetched = some (leBytes 32 5) ∧ Passes s 3 992 32 (needR + needW) true ∧ segKind (getSeg (curThread s) 3) = kindCore :=
  ⟨⟨posted _ (bench fun t => { t with phase := .parked, wait := .reply .operand 3 992 }), _, arrives_posted (by decide +kernel) (by decide +kernel), rfl, by decide +kernel,
      by decide +kernel⟩,
    ⟨bench fun t => { t with fetched := some (leBytes 128 5) }, by decide +kernel, passes_of (by decide +kernel), by decide +kernel,
      by decide +kernel⟩,
    ⟨bench fun t => { t with fetched := some (leBytes 32 5) }, by decide +kernel, passes_of (by decide +kernel), by decide +kernel⟩⟩

/-! ## Launches -/

/-- A sound launch record of one thread at offset 0x2000 of the page, with its image; host queue 0 of 16 entries has it at its head. -/
def launchCells : List Host.Cell := imageCells ++ [(0x2002, 1), (0x202A, 1), (0x203A, 0xFF), (0x203B, 0xFF)]
def queueing (cells : List Host.Cell) : State :=
  { withPage cells (bench id) with hostq := [(63, ⟨0x182000, 4, 1, true, false, false, 16, 17⟩)] }

/-- What the reading of the record at the head of queue 63 comes to. -/
def readsB (s : State) (p : Nat → Kernel → Bool) : Bool :=
  match nextRecord s 1 63 with
  | some (rec, _, s') => match getCtx? s' 1 with
    | some c => match readReason c (checkRecord s' 1 c rec false) (doneNeed s' 1 rec) with
      | some (reason, k) => p reason k
      | none => false
    | none => false
  | none => false

theorem witness_LaunchSteps_record :
    (takesWork (queueing launchCells) = true ∧ readsB (queueing launchCells) (fun reason k => reason == 0 && k.part == 0x4F0) = true)
    ∧ readsB (queueing [(0x2000, 1)]) (fun reason _ => reason == 1) = true
    ∧ (getHostq (queueing launchCells) 63).enable = true ∧ (getHostq (queueing launchCells) 63).head ≠ (getHostq (queueing launchCells) 63).tail
    ∧ (getHostq (queueing launchCells) 63).ctxnum.toNat = 1 :=
  ⟨⟨by decide +kernel, by decide +kernel⟩, by decide +kernel, by decide +kernel, by decide +kernel, by decide +kernel⟩

/-- The launch of that record, READ, in a state with its image in memory. -/
def readLaunch : Launch := newLaunch (launchOf 1) { noKernel with part := 0x4F0, entry := 0x10040, deadline := 9 } .read 63
def placing : State := modCtx (withPage imageCells (bench id)) 1 fun c => { c with launches := c.launches ++ [(1, readLaunch)], phase := .running }

theorem witness_LaunchSteps_place : ∃ c, getCtx? placing 1 = some c ∧ mapGet? c.launches 1 = some readLaunch
    ∧ takesWork placing = true ∧ readLaunch.phase = .read ∧ c.phase = .running
    ∧ (∀ p ∈ c.launches, p.1 < 1 → p.2.phase = .read → p.2.queue ≠ readLaunch.queue)
    ∧ ([15] : List Nat).length = (lrecThreads readLaunch.record + partSlots readLaunch.kernel.part - 1) / partSlots readLaunch.kernel.part
    ∧ inGrid c 15 = true ∧ scopeReason placing 1 c readLaunch.kernel = 0 ∧ tableReason placing 1 c readLaunch.kernel = 0
    ∧ placeGrid (reserveTasks placing 1 1) 1 c = some (reserveTasks placing 1 1)
    ∧ (getLaunch? (reserveTasks placing 1 1) 1 1).bind (·.taskBase) = some 0
    ∧ coreTakes (reserveTasks placing 1 1) 1 readLaunch (coreKey 1 15) 0 = true := by
  obtain ⟨c, hc, h⟩ := some_of (x := getCtx? placing 1) (p := fun c => mapGet? c.launches 1 == some readLaunch && c.phase == .running
    && c.launches.all (fun p => p.1 ≥ 1 || p.2.phase != .read || p.2.queue != readLaunch.queue) && inGrid c 15
    && (unplaced c).isEmpty && scopeReason placing 1 c readLaunch.kernel == 0 && tableReason placing 1 c readLaunch.kernel == 0)
    (by decide +kernel)
  simp only [Bool.and_eq_true, beq_iff_eq, List.all_eq_true] at h
  obtain ⟨⟨⟨⟨⟨⟨h₁, h₂⟩, h₃⟩, h₄⟩, h₅⟩, h₆⟩, h₇⟩ := h
  refine ⟨c, hc, h₁, by decide +kernel, rfl, h₂, ?_, by decide +kernel, h₄, h₆, h₇, ?_, by decide +kernel, by decide +kernel⟩
  · intro p hp hlt hphase hq
    have := h₃ p hp
    simp [hphase, hq, Nat.not_le.mpr hlt] at this
  · simp [placeGrid, h₅]

/-- The bind record of rank 0 of the placed program's launch, in slot 1. -/
def bindOne : Bind := ⟨0x10040, 7, 0x4F1, true, false, 0, 0, 0, 0, none, none, 0, launchOf 1, 0, 0, none, 0⟩
def bound : State := benchCore (fun c => { coreSetSlot c 1 (Thread.initial .bound) with binds := [(1, bindOne)], part := 0x4F1 }) id

theorem witness_LaunchSteps_dispatch : (∃ c, getCtx? bound 1 = some c ∧ (c.phase == .running) = true)
    ∧ mapGet? (getCore bound programCore).binds 1 = some bindOne ∧ (getLaunch? bound 1 bindOne.launch).isSome = true
    ∧ (refThread bound ⟨programCore, 1⟩).phase = .bound ∧ (getCore bound programCore).halting = false
    ∧ (getCore bound programCore).imageDue = false ∧ bindOne.quad = none ∧ lrecTasks bindOne.record = 0 :=
  ⟨some_of (by decide +kernel), by decide +kernel, by decide +kernel, by decide +kernel, by decide +kernel, by decide +kernel, rfl,
    by decide +kernel⟩

/-- The same on a core that is still to be given its kernel's image. -/
def unloaded : State := modCore (withPage imageCells bound) programCore fun c => { c with imageDue := true }

theorem witness_LaunchSteps_image : (getCore unloaded programCore).imageDue = true
    ∧ ∃ t, loadImage unloaded programCore bindOne.launch = some t ∧ t.power = true :=
  ⟨by decide +kernel, some_of (by decide +kernel)⟩

/-- A change of the placed program's launch. -/
def launched (f : Launch → Launch) : State := modCtx (bench id) 1 fun c => { c with launches := c.launches.map fun p => (p.1, f p.2) }

theorem witness_LaunchSteps_count :
    (∃ s p, Arrives s 1 p ∧ p = .up 1 0 (nodeCore away) (nodeCluster away))
    ∧ (∃ s p, Arrives s 1 p ∧ p = .done 1 0 (nodeDie 0) nodeRoot 5 ∧ (∀ p ∈ s.net.take 1, ∀ k q, p ≠ .up 1 0 k q)
      ∧ (∃ x, getLaunch? (nodeSub (without s 1) 1 0 nodeRoot 5) 1 0 = some x ∧ (x.phase == .running) = true)
      ∧ nodeCount (nodeSub (without s 1) 1 0 nodeRoot 5) 1 0 nodeRoot = 0)
    ∧ (∃ s p, Arrives s 1 p ∧ p = .done 1 0 (nodeCluster programCore) (nodeDie 0) 5 ∧ nodeDie 0 ≠ nodeRoot
      ∧ (getLaunch? (nodeSub (without s 1) 1 0 (nodeDie 0) 5) 1 0).isSome = true)
    ∧ (∃ s c, getCtx? s 1 = some c ∧ (c.phase == .running && c.frame.phase == .closed
      && c.launches.any fun p => p.2.phase == .running && p.2.kernel.deadline == 9 && p.2.ran == 10) = true)
    ∧ ∃ s c, getCtx? s 1 = some c ∧ (c.phase == .running && c.launches.all fun p => p.2.kernel.deadline == 9 && p.2.ran == 9) = true :=
  ⟨⟨posted _ (bench id), _, arrives_posted (by decide +kernel) (by decide +kernel), rfl⟩,
    ⟨posted (.done 1 0 (nodeDie 0) nodeRoot 5) (bench id), _, arrives_posted (by decide +kernel) (by decide +kernel), rfl, by simp [posted], some_of (by decide +kernel), by decide +kernel⟩,
    ⟨posted (.done 1 0 (nodeCluster programCore) (nodeDie 0) 5) (bench id), _, arrives_posted (by decide +kernel) (by decide +kernel), rfl, by decide +kernel, by decide +kernel⟩,
    ⟨launched fun l => { l with kernel := { l.kernel with deadline := 9 }, ran := 10 }, some_of (by decide +kernel)⟩,
    ⟨launched fun l => { l with kernel := { l.kernel with deadline := 9 }, ran := 9 }, some_of (by decide +kernel)⟩⟩

/-! ## Pages -/

/-- A fault record of the context, for the page or for an address without one. -/
def faultOf (va : Nat) (cause : BitVec 8) : FaultRec := ⟨1, va, 0, 0, 1, cause, 0, 0⟩
def faulting (r : FaultRec) : State := modDie (bench id) 7 fun d => { d with faults := [r] }

theorem witness_PageSteps_faults :
    (let s := faulting (faultOf 0x10000 causePfAway);
      (getDie s 7).faults.find? (fun r => faultState s r == .wake || faultState s r == .unserviceable) = some (faultOf 0x10000 causePfAway)
      ∧ faultState s (faultOf 0x10000 causePfAway) = .wake)
    ∧ (let s := faulting (faultOf 0x100000000 causePfUnmapped);
      (getDie s 7).faults.find? (fun r => faultState s r == .wake || faultState s r == .unserviceable) = some (faultOf 0x100000000 causePfUnmapped)
      ∧ faultState s (faultOf 0x100000000 causePfUnmapped) = .unserviceable) := by
  decide +kernel

/-- The page of the bench in a state, with C or without, and of a format. -/
def pageIn (st c : Nat) (fmt : Nat := 0) : State :=
  memWrite (bench id) 0x130010 (leBytes 8 (programPage + st * 2 ^ 13 + c * 2 ^ 12 + 0x5E) ++ leBytes 8 (fmt * 2 ^ 60))

/-- The page being evicted, or its entry written by software since; with C, what the page held at the commit point. -/
def evicting (c : Nat) (stands : Bool) (fmt : Nat := 0) : State := modCtx (pageIn 4 c fmt) 1 fun x =>
  { x with evicting := if stands then [(0x130010, if c = 1 then some [(9, 0x5A)] else none)] else [] }

/-- A property of the context and of the entry of the page. -/
def pageB (s : State) (p : Context → Leaf → Bool) : Bool :=
  match getCtx? s 1, rawLeaf s 1 0x10000 with
  | some c, some l => p c l
  | _, _ => false

theorem witness_PageSteps_moves :
    (pageB (pageIn 1 0) fun c l => pteState l.base == stResident && !frameWaits (pageIn 1 0) (pteFrame l.base) (leafSize l)
      && !deviceOwn c (pageStart l 0x10000) (leafSize l) && decide (pteFmt l.fmt < 4) && isDevice (pageIn 1 0) (pteFrame l.base)
      && (List.range 4).all fun g => isDevice (pageIn 1 0) (inGroup (pteFrame l.base) g + leafSize l - 1) && scaleSize l == 0) = true
    ∧ (∀ b ∈ [true, false], (pageB (evicting 0 b) fun c l =>
      pteState l.base == stEvicting && !pteCommit l.base && (mapGet? c.evicting l.entry).isSome == b
        && !frameWaits (evicting 0 b) (pteFrame l.base) (leafSize l)) = true)
    ∧ (pageB (evicting 1 true) fun c l => pteState l.base == stEvicting && pteCommit l.base && mapGet? c.evicting l.entry == some (some [(9, 0x5A)]) && !l.large && pteFmt l.fmt == 0
      && [4 * away, 4 * away + 1, 4 * away + 2, 4 * (away - 1) + 2].all fun q => quarterFits (evicting 1 true) 1 q) = true
    ∧ (pageB (evicting 1 true 1) fun c l => pteState l.base == stEvicting && pteCommit l.base && mapGet? c.evicting l.entry == some (some [(9, 0x5A)]) && pteFmt l.fmt != 0) = true
    ∧ (pageB (pageIn 6 0) fun _ l => pteState l.base == stHost && frameFits (pageIn 6 0) 0x200000 (leafSize l)) = true := by
  refine ⟨?_, ?_, ?_, ?_, ?_⟩ <;> decide +kernel

theorem witness_PageSteps_capacity : ∃ die capacity : Nat, die < 8 ∧ 8 ≤ capacity ∧ capacity ≤ 1024 := ⟨7, 1024, by decide⟩

/-- The context with a Trail that starts at the page and has filled it. -/
def trailing : State := modCtx (bench id) 1 fun c =>
  { c with record := c.record ||| (0x10000#1024 <<< 448), trail := { c.trail with mode := 1, full := true, pages := 1 } }

theorem witness_PageSteps_trail : ∃ c, getCtx? trailing 1 = some c
    ∧ (c.trail.mode == 1 && c.trail.full && !c.trail.exhausted && (rawLeaf trailing 1 (ctxTrailbase c)).isSome
      && frameFits trailing 0x200000 65536 && (match leafSlot trailing (ctxRoot c) (ctxTrailbase c + 65536 * c.trail.pages) walkLevels with
        | some slot => pteState (wordOf (memNat trailing slot 8)) == stUnmapped
        | none => false)) = true :=
  some_of (by decide +kernel)

/-! ## The life of a context -/

/-- The bench's context in a phase. -/
def phased (p : CtxPhase) (must : Bool) (h : Core → Core) : State := modCtx (benchCore h id) 1 fun c => { c with phase := p, mustDump := must }

theorem witness_ContextSteps :
    (let r := programRecord + (1#1024 <<< 144);
      takesWork (bench id) = true ∧ recField r 144 16 = 2 ∧ getCtx? (bench id) 2 = none ∧ recordReason (bench id) r = 0)
    ∧ recordReason (bench id) (programRecord + (1#1024 <<< 144) + (1#1024 <<< 1023)) ≠ 0
    ∧ (getCtx? (phased .running false id) 1).isSome = true
    ∧ (ctxOf programCore = 1 ∧ (mapGet? (phased .halting false id).cores programCore).isSome = true
      ∧ (getCore (phased .halting false id) programCore).halting = false)
    ∧ (let s := phased .halting false fun c => { coreSetSlot c 0 { coreSlot c 0 with phase := .halted } with halting := true };
      (∀ p ∈ s.cores, ctxOf p.1 = 1 → coreHalted p.2 = true) ∧ ∀ p ∈ s.net, packetCtx p = 1 → packetHeld s p = true) := by
  decide +kernel

theorem witness_ContextSteps_idle : ∃ c, getCtx? (phased .idle false id) 1 = some c ∧ (c.phase == .idle && c.resize.isNone) = true :=
  some_of (by decide +kernel)

/-- A resize that halted its context, and one of a halted context for which clusters are free. -/
theorem witness_ContextSteps_resize : ∃ c, getCtx? (phased .halted false id) 1 = some c
    ∧ ((placedIndices c).filter ([0] : List Nat).contains).length ≤ (freeClusters (phased .halted false id)).length := by
  obtain ⟨c, hc, h⟩ := some_of (x := getCtx? (phased .halted false id) 1) (p := fun c => placedIndices c == [0]) (by decide +kernel)
  rw [beq_iff_eq] at h
  refine ⟨c, hc, ?_⟩
  rw [h]
  exact List.length_pos_of_mem (a := 8191) (List.mem_filter.mpr ⟨List.mem_range.mpr (by decide), by decide +kernel⟩)

theorem witness_ContextSteps_halted :
    (∃ c, getCtx? (phased .halted false id) 1 = some c ∧ (c.phase == .halted && !c.mustDump && placedIndices c == [0]) = true)
    ∧ (∃ c, getCtx? (phased .halted true id) 1 = some c ∧ (c.phase == .halted && c.mustDump && c.frame.phase == .closed) = true)
    ∧ (∃ c, getCtx? (phased .saved false id) 1 = some c ∧ (c.phase == .saved && ctxGridW c * ctxGridH c == 1) = true)
    ∧ (∀ k ∈ [8191], k ∈ freeClusters (phased .saved false id)) :=
  ⟨some_of (by decide +kernel), some_of (by decide +kernel), some_of (by decide +kernel), by
    intro k hk
    obtain rfl : k = 8191 := by simpa using hk
    exact List.mem_filter.mpr ⟨List.mem_range.mpr (by decide), by decide +kernel⟩⟩

/-- The same bind record with tasks of its own, after its thread's entry 5. -/
theorem witness_LaunchSteps_tasks : ∃ s b, mapGet? (getCore s programCore).binds 1 = some b ∧ b.quad = none ∧ lrecTasks b.record = 2
    ∧ b.taskBase = 5 ∧ (refThread s ⟨programCore, 1⟩).phase = .bound :=
  let b := { bindOne with record := launchOf 1 ||| (2#512 <<< 368), taskBase := 5 }
  ⟨modCore bound programCore fun c => { c with binds := [(1, b)] }, b, by decide +kernel, rfl, by decide +kernel, rfl, by decide +kernel⟩

theorem witness_PageSteps_recall :
    (pageB (pageIn 5 0) fun c l => pteState l.base == stBasket && c.phase != .saved && frameFits (pageIn 5 0) 0x200000 (leafSize l)) = true
    ∧ (let s := { evicting 0 true with waits := [(0, [⟨me, 0x180000 / 8, 0, 3, 0, 0x10000, 0⟩])] };
      pageB s fun c l => pteState l.base == stEvicting && !pteCommit l.base && (mapGet? c.evicting l.entry).isSome
        && frameWaits s (pteFrame l.base) (leafSize l)) = true := by
  decide +kernel

/-! ## The device -/

/-- Bring-up of the state after reset finds what it needs; and a device whose images do not verify. -/
theorem witness_DeviceSteps_power :
    State.reset.dieLinks = [] ∧ modulesOk State.reset = true ∧ (∀ d, d < 8 → 1008 ≤ presentOn State.reset d)
    ∧ chosenImage State.reset = some 0 ∧ chosenImage { State.reset with rollback := 2 ^ 64 } = none := by
  refine ⟨by decide +kernel, by decide +kernel, fun d _ => ?_, by decide +kernel, by decide +kernel⟩
  have h : (State.reset).absent = [] := by decide +kernel
  simp [presentOn, h, mapGet, mapGet?]

theorem witness_DeviceSteps_care :
    (bench id).power = true ∧ mapGet (bench id).corrected 11 0 ≠ BitVec.allOnes 64 ∧ isDevice (bench id) (64 * (2 ^ 34 - 1)) = true
    ∧ (let s := { State.reset with
        images := (Vector.replicate 2 (⟨true, 5⟩ : ImageSlot)).set 1 ⟨true, 6⟩, status := { State.reset.status with ready := true }, runningImage := some 0 };
      s.rollback < 5 ∧ (s.images.get 0).version ≤ (s.images.get 1).version)
    ∧ (let s := { State.reset with
        images := (Vector.replicate 2 (⟨true, 5⟩ : ImageSlot)).set 1 ⟨true, 6⟩, status := { State.reset.status with ready := true }, runningImage := some (1 : Fin 2) };
      s.rollback < 5 ∧ imageOk s (1 - 1) = true ∧ (s.images.get (1 - 1)).version < (s.images.get 1).version)
    ∧ (let s := { bench id with attest := ⟨6, 7, 8, none⟩ };
      s.status.ready = true ∧ Nat.max s.attest.counter s.attest.fuse < s.attest.leaves)
    ∧ (let s := { bench id with attest := ⟨6, 8, 8, none⟩ };
      s.attest.leaves ≤ Nat.max s.attest.counter s.attest.fuse) := by
  decide +kernel

theorem witness_DeviceSteps_registers :
    (let s := { bench id with hostq := [(63, ⟨0x100000, 16, 1, true, false, false, 0xFFFFFFFF, 0⟩)], peers := [(11, { PeerLink.initial with state := 4 })] };
      s.status.ready = true ∧ (0xFFFF - (getHostq s 63).head).toNat ≤ 2 ^ (getHostq s 63).log2n.toNat
      ∧ 2 ^ (getHostq s 63).log2n.toNat < (0x10000 - (getHostq s 63).head).toNat ∧ (getPeer s 11).state = 4)
    ∧ (let s := { bench id with hostq := [(63, ⟨0x400000, 16, 1, false, false, false, 0, 0⟩)] };
      4 ≤ (getHostq s 63).log2n.toNat ∧ (getHostq s 63).log2n.toNat ≤ 16
      ∧ (getHostq s 63).base.toNat % (64 * 2 ^ (getHostq s 63).log2n.toNat) = 0)
    ∧ (isBacked (bench id) 0x18003F = true ∧ isBacked (bench id) (0x18003F + 2 - 1) = true ∧ (bench id).status.ready = true
      ∧ memPoisoned (bench id) 0x18003F 2 = false ∧ inSaveArea (bench id) 0x18003F 2 = false)
    ∧ isBacked (bench id) (2 ^ 52 - 1) = false ∧ (∀ i, i < 4 → (barByte (bench id) i).isSome = true) := by
  decide +kernel

/-! ## Links -/

/-- A route to device 2 over link 11, which is up. -/
def linked (s : State) : State := { s with routes := [(2, 11)], peers := [(11, { PeerLink.initial with state := linkUp8 })] }

theorem witness_LinkSteps :
    (∃ w, getPost? (setPost (bench id) 1 255 (some ⟨[(0x180000, 64)], 64, 9, [0x10000]⟩)) 1 255 = some w
      ∧ (decide (60 + 4 ≤ w.len) && decide (w.len < 61 + 4)) = true)
    ∧ (∃ a, getArm? (armed armSending) 1 255 = some a
      ∧ (mapGet? a.packets 0 == some (0, [1, 2, 3], 256, none) && a.state == armSending && mapErase a.packets 0 == []) = true)
    ∧ (∃ a, getArm? (linked (armed armSending)) 1 255 = some a ∧ (mapGet? a.packets 0 == some (0, [1, 2, 3], 256, none)
      && openLink (linked (armed armSending)) a.dev == some 11 && openLink (armed armSending) a.dev == none) = true)
    ∧ (∃ a, getArm? (armed armSending) 1 255 = some a ∧ linkTo (armed armSending) a.dev = none ∧ (match sendBytes (armed armSending) a
        (segBase a.src.seg + a.src.off) a.len (a.len / 64 + 2) with
      | .bytes bs => bs.length == 100
      | _ => false) = true)
    ∧ (∃ a, getArm? (setArm (bench id) 1 255 (some { armOf armSending with packets := [(0, (0, [1], 256, some 7)), (1, (1, [2], 256, none))] })) 1 255 = some a
      ∧ (mapGet? a.packets 0 == some (0, [1], 256, some 7) && mapErase a.packets 0 != []) = true)
    ∧ (let s := { bench id with peers := [(11, { PeerLink.initial with state := 1, attempts := 1 })] };
      (getPeer s 11).state = 1 ∧ (getPeer s 11).attempts < 2)
    ∧ (let s := { bench id with peers := [(11, { PeerLink.initial with state := 1, attempts := 2 })] };
      (getPeer s 11).state = 1 ∧ 2 ≤ (getPeer s 11).attempts)
    ∧ (let s := { bench id with peers := [(11, { PeerLink.initial with state := 3, lanes := 4, recent := List.replicate 16 0 })] };
      (getPeer s 11).state = 3) :=
  ⟨some_of (by decide +kernel), some_of (by decide +kernel), some_of (by decide +kernel),
    ⟨{ armOf armSending with }, by decide +kernel, by decide +kernel, by decide +kernel⟩, some_of (by decide +kernel), by decide +kernel,
    by decide +kernel, by decide +kernel⟩

/-! ## The raster units and the commit of a window -/

/-- The bench's frame with one owner, the launch of its fragments, and a net. -/
def rastering (o : Owner) (net : List Packet) (phase : FramePhase) : State :=
  let s := framed { benchFrame with phase := phase, owners := [(0, o)], closer := some (me, 3) } id
  { modCtx s 1 fun c => { c with launches := c.launches ++ [(1, newLaunch (launchOf 0) { noKernel with part := 0x4F0 } .running 64)] } with net := net }

/-- A released copy of the primitive with SEQ 7, with a state entry that writes colour, and the results of its quad. -/
def benchPrim (todo : List Quad) : Prim := ⟨0, 7, true, some (0xF#128 <<< 32), todo, [(0, 0)]⟩
def benchResult (cs : Option (List (BitVec 32))) : Fragment := ⟨0, 7, 0, 0, 1, cs, 0, cs.isNone⟩

theorem witness_FrameSteps_arrivals :
    (let s := rastering ⟨[], [], [], 0, 0⟩ [.flit 1 0 1 9, .flit 1 0 0 9] .opened;
      rasterEarlier (s.net.take 1) 1 0 0 = false ∧ s.net[1]? = some (.flit 1 0 0 9))
    ∧ (let s := rastering ⟨[], [], [], 0, 0⟩ [.prim 1 0 0 7] .opened;
      rasterEarlier (s.net.take 0) 1 0 0 = false ∧ s.net[0]? = some (.prim 1 0 0 7) ∧ (without s 0).net = []
      ∧ ∃ f, getFrame? s 1 = some f ∧ (mapGet? f.geo 0 == some ⟨5, 5, []⟩) = true) :=
  ⟨by decide +kernel, by decide +kernel, by decide +kernel, by decide +kernel, some_of (by decide +kernel)⟩

theorem witness_FrameSteps_quads :
    (∃ c, getCtx? (releaseAll (rastering ⟨[], [benchPrim [benchQuad]], [], 0, 1⟩ [] .opened) 1 0) 1 = some c
      ∧ (c.frame.phase != .closed && c.phase == .running
        && (match mapGet? c.frame.owners 0, mapGet? c.launches c.frame.launch.toNat with
          | some o, some l => (nextQuad o.prims).isSome
            && fragmentRoom (releaseAll (rastering ⟨[], [benchPrim [benchQuad]], [], 0, 1⟩ [] .opened) 1 0) c.frame c l 0 ⟨away, 0⟩
          | _, _ => false)) = true)
    ∧ (∀ cs, cs = none ∨ cs = some (List.replicate 16 0) →
      ∃ c, getCtx? (releaseAll (rastering ⟨[], [benchPrim []], [benchResult cs], 0, 1⟩ [] .opened) 1 0) 1 = some c
      ∧ (let f := c.frame;
        rasterRuns c && match mapGet? f.owners 0 with
        | some o => o.results.find? (fun x => blendReady x o.prims) == some (benchResult cs)
          && (blendPrim (benchResult cs) o.prims).any fun p => p.1.entry == some (0xF#128 <<< 32)
            && match cs with
              | none => true
              | some l => match blendSamples 1 f (ownerCore f 1 0) p.1.record (0xF#128 <<< 32) (benchResult cs) l
                  (releaseAll (rastering ⟨[], [benchPrim []], [benchResult cs], 0, 1⟩ [] .opened) 1 0)
                  (liveSamples (frameSamples f) (benchResult cs)) with
                | .done _ => true
                | _ => false
        | none => false) = true) := by
  refine ⟨some_of (by decide +kernel), fun cs h => ?_⟩
  rcases h with rfl | rfl <;> exact some_of (by decide +kernel)

theorem witness_FrameSteps_halted : ∃ c, getCtx? (modCtx (rastering ⟨[], [], [], 0, 0⟩ [] .opened) 1 fun c => { c with phase := .halted }) 1 = some c
    ∧ (!rasterRuns c) = true :=
  some_of (by decide +kernel)

theorem witness_FrameSteps_close : ∃ c, getCtx? (rastering ⟨[(0, BitVec.allOnes 64)], [], [], 0, 0⟩ [] .closing) 1 = some c
    ∧ (rasterRuns c && frameSettled (rastering ⟨[(0, BitVec.allOnes 64)], [], [], 0, 0⟩ [] .closing) 1 c.frame
      && (mapGet? c.launches c.frame.launch.toNat).any (·.treePins == []) && c.frame.closer == some (me, 3)) = true :=
  some_of (by decide +kernel)

/-- The bench with a sealed descriptor without members, and its window, asking the commit of one draft that wrote granule `g`, for a
thread or for none. -/
def sealedWindow (commit : Option (Ref × Nat × Nat)) (g : Nat) : SpecWindow :=
  ⟨(0, 0), (0, 0), 0, clusterOf programCore, [(0, [(g, ⟨5, 0⟩)])], 0, commit, 0⟩
def sealed (w : SpecWindow) (s : State) : State := setWindow (withPage [(81, 2)] s) 1 0x10000 (some w)

def commitsB (w : SpecWindow) (s : State) (p : Except CommitStop State → Bool) : Bool :=
  let s := payLeaves (sealed w s) 1
  (match getCtx? s 1 with
  | some c => c.phase == .running
  | none => false) && getWindow? s 1 0x10000 == some w && herePa s 1 0x10000 == some 0x180000 && w.owed == 0
    && seqWstate s 0x180000 == 2 && seqMembers s 0x180000 == 0 && p (commitStep (settleVa s 1 none 0x10000) 1 0x180000 w)

/-- The bench with the page after its own in host memory. -/
def nextAway : State := memWrite (bench id) 0x130020 (leBytes 8 (0x200000 + 6 * 2 ^ 13 + 0x5E))

theorem witness_FrameSteps_commit :
    (commitsB (sealedWindow none 0x400) (bench id) fun e => match e with
      | .ok _ => true
      | .error _ => false) = true
    ∧ (commitsB (sealedWindow (some (me, 3, 0)) 0x400) (bench id) fun e => match e with
      | .ok _ => true
      | .error _ => false) = true
    ∧ (commitsB (sealedWindow (some (me, 3, 1)) (2 ^ 26)) (bench id) fun e => match e with
      | .error .failed => true
      | _ => false) = true
    ∧ (commitsB (sealedWindow (some (me, 3, 1)) 0x800) nextAway fun e => match e with
      | .error .held => true
      | _ => false) = true := by
  refine ⟨?_, ?_, ?_, ?_⟩ <;> decide +kernel

/-! ## Words of the spec's tables and examples -/

/-- Chapters 5, 7 to 9 and 12: CSRW (whose example, read by its table, writes x8), AMSEND, VADDF, MMA, ATOM.ADD.AR, GSET, VREDADDF, VCVT, CMP, MLDA and MFMT. -/
theorem test_words_core : decode 0x20027469 = .ok (.csrw 8 7 0x001) ∧ decode 0x01D8B539 = .ok (.amsend 10 11 6 7 0)
    ∧ decode 0x014620C9 = .ok (.vaddf 1 2 3 5 0) ∧ decode 0x0DC00051 = .ok (.mma 0 7 0) ∧ decode 0x18CE62BD = .ok (.atomAdd 5 6 7 3 3)
    ∧ decode 0x01406099 = .ok (.gset 1 6) ∧ decode 0x624023CD = .ok (.vredaddf 7 2 1) ∧ decode 0x0FC0324F = .ok (.vcvt 4 3 7 1 3 0)
    ∧ decode 0x008C5115 = .ok (.cmpLt 2 0 5 6) ∧ decode 0x008A7915 = .ok (.cmpLt 2 2 7 5) ∧ decode 0x05C64151 = .ok (.mlda 2 4 3 7 0)
    ∧ decode 0x21C07051 = .ok (.mfmt 7) := ⟨rfl, rfl, rfl, rfl, rfl, rfl, rfl, rfl, rfl, rfl, rfl, rfl⟩

/-- Chapters 14, 15, 17, 18 and 19. -/
theorem test_words_groups : decode 0x0140546B = .ok (.fbpop 2 5) ∧ decode 0x01CC506B = .ok (.tlbinv 5 6) ∧ decode 0x020053EB = .ok (.pgpin 7 5)
    ∧ decode 0x000C5061 = .ok (.tsend 5 3) ∧ decode 0x00400461 = .ok (.trecv 2 0) ∧ decode 0x014C5061 = .ok (.sleep 5 6)
    ∧ decode 0x02405061 = .ok (.timer 0 5) ∧ decode 0x000062D9 = .ok (.pjoin 5 6) ∧ decode 0x09CC50DB = .ok (.mwait 1 5 6 7 0)
    ∧ decode 0x0DC050DB = .ok (.msync 1 5 7 0) ∧ decode 0x01CC5067 = .ok (.rcvpost 5 3 7 0) ∧ decode 0x05C053E7 = .ok (.tsarm 7 5 7 0)
    ∧ decode 0x11CC5067 = .ok (.ctradd 5 6 7 0) := ⟨rfl, rfl, rfl, rfl, rfl, rfl, rfl, rfl, rfl, rfl, rfl, rfl, rfl⟩

/-- Chapters 20 to 24. -/
theorem test_words_units : decode 0x01CC50DD = .ok (.forkp 1 5 3 7 0) ∧ decode 0x05C4545D = .ok (.takep 2 5 2 7 0)
    ∧ decode 0x0DCC585D = .ok (.pnode 2 5 6 7 0) ∧ decode 0x15C053DD = .ok (.topen 7 5 7 0) ∧ decode 0x000E62DF = .ok (.fork 5 6 7)
    ∧ decode 0x00CC54DF = .ok (.rdecl 9 5 6) ∧ decode 0x008C50E3 = .ok (.speccommit 1 5 6) ∧ decode 0x01105163 = .ok (.kvpos 2 5 4)
    ∧ decode 0x020C5663 = .ok (.pxlook 3 5 3) ∧ decode 0x01C05065 = .ok (.emitp 5 7 0) ∧ decode 0x05C060E5 = .ok (.seqwmHold 6 7 0)
    ∧ decode 0x09C45065 = .ok (.fout 5 1 7 0) ∧ decode 0x0DC80465 = .ok (.fquad 2 4 7 0) ∧ decode 0x11C050E5 = .ok (.rframeOpen 1 5 7 0)
    ∧ decode 0x0006A06B = .ok (.trap 10 3) ∧ decode 0x010053EB = .ok (.pwr 7 5) :=
  ⟨rfl, rfl, rfl, rfl, rfl, rfl, rfl, rfl, rfl, rfl, rfl, rfl, rfl, rfl, rfl, rfl⟩

/-! ## Single steps from the spec's worked examples -/

/-- What an instruction leaves of the bench's thread and its core. -/
def after (i : Instr) (f : Thread → Thread) (p : Thread → Core → Bool) (h : Core → Core := id) : Bool :=
  match exec i (benchCore h f) with
  | .next t => p (refThread t me) (getCore t programCore)
  | _ => false

/-- Chapter 6: LEA.3, SEXT.B and BEXTS. -/
theorem test_lea : after (.lea 5 6 7 3) (withX [(6, 0x1000), (7, BitVec.allOnes 64)]) (fun t _ => getX t 5 == 0xFF8) = true := by decide +kernel
theorem test_sext : after (.sext 5 7 0) (withX [(7, BitVec.allOnes 64)]) (fun t _ => getX t 5 == BitVec.allOnes 64) = true := by decide +kernel
theorem test_bexts : after (.bexts 5 6 7 8) (withX [(6, 0xF0A5)]) (fun t _ => getX t 5 == 0xFFFFFFFFFFFFFFF0) = true := by decide +kernel
theorem test_bext : after (.bext 5 6 7 8) (withX [(6, 0xF0A5)]) (fun t _ => getX t 5 == 0xF0) = true := by decide +kernel

/-- Chapter 6, "A short program": division of -7 by 0 and by 2. -/
theorem test_div_zero : after (.div 7 5 6) (withX [(5, 0xFFFFFFFFFFFFFFF9)]) (fun t _ => getX t 7 == BitVec.allOnes 64) = true := by decide +kernel
theorem test_rem_zero : after (.rem 8 5 6) (withX [(5, 0xFFFFFFFFFFFFFFF9)]) (fun t _ => getX t 8 == 0xFFFFFFFFFFFFFFF9) = true := by decide +kernel
theorem test_div : after (.div 10 5 9) (withX [(5, 0xFFFFFFFFFFFFFFF9), (9, 2)]) (fun t _ => getX t 10 == 0xFFFFFFFFFFFFFFFD) = true := by decide +kernel
theorem test_rem : after (.rem 11 5 9) (withX [(5, 0xFFFFFFFFFFFFFFF9), (9, 2)]) (fun t _ => getX t 11 == BitVec.allOnes 64) = true := by decide +kernel

/-- Its FADD.S: the tie goes to the even significand, and under RUP it does not; then FCVT.W.S. -/
theorem test_fadd_even : after (.faddS 14 12 13) (withX [(12, 0x4B800000), (13, 0x3F800000)])
    (fun t _ => getX t 14 == 0x4B800000 && t.csr.fflags == 1) = true := by decide +kernel
theorem test_fadd_up : after (.faddS 14 12 13) (fun t => { withX [(12, 0x4B800000), (13, 0x3F800000)] t with csr := { t.csr with rnd := 3 } })
    (fun t _ => getX t 14 == 0x4B800001) = true := by decide +kernel

/-- Chapter 6: one rounding of FMADD.S. -/
theorem test_fmadd : after (.fmaddS 3 4 5 6) (withX [(4, 0x3F800001), (5, 0x3F7FFFFE), (6, 0xBF800000)])
    (fun t _ => getX t 3 == 0xA8800000 && t.csr.fflags == 0) = true := by decide +kernel

/-- Chapter 5: two compares into g2. -/
theorem test_cmp_or : after (.cmpLt 2 2 7 5) (withX [(7, 7), (5, 9)]) (fun t _ => (getG t 2).mask == 0xFF) = true := by decide +kernel
theorem test_cmp : after (.cmpLt 2 0 5 6) (withX [(5, 9)]) (fun t _ => (getG t 2).mask == 0) = true := by decide +kernel

/-- Chapter 8: the reduction over lanes 0 to 4, and the saturating conversion to e4m3. -/
theorem test_vredaddf : after (.vredaddf 7 2 1)
    (fun t => setG (setV t 2 (BitVec.ofNat 256 (0x4B800000 + 0x3F800000 * 2 ^ 32 + 0x3F800000 * 2 ^ 64 + 0xCB800000 * 2 ^ 96 + 0x3F000000 * 2 ^ 128))) 1 0x1F)
    (fun t _ => getX t 7 == 0x3F000000 && t.csr.fflags == 1) = true := by decide +kernel
theorem test_vcvt_e4m3 : after (.vcvt 4 3 7 1 3 0)
    (fun t => setV t 3 (BitVec.ofNat 256 (0x43FA0000 + 0x43E60000 * 2 ^ 32 + 0xC0400000 * 2 ^ 64 + 0x3D800000 * 2 ^ 96 + 0x3A800000 * 2 ^ 128)))
    (fun t _ => getV t 4 == 0x18C47E7E && t.csr.fflags == 7) = true := by decide +kernel

/-- Chapter 2: the cell of anchor 2 after 3.0, -1.25, 2^-170 and -2^-170, read as FP32 under RNE and RDN. -/
def exampleCell (anchor : Int) (xs : List FVal) : BitVec 256 := xs.foldl cellAdd (mkCell 0 anchor 0)
theorem test_cell : (let c := exampleCell 2 [decodeNum .fp64 0x4008000000000000, decodeNum .fp64 0xBFF4000000000000,
      decodeNum .fp64 0x3550000000000000, decodeNum .fp64 0xB550000000000000];
    fieldOf c 0 192 = 0x6FFFFFFFFFFFFFFFFFFFFFFFFFFFFFFFFFFFFFFF ∧ (cellRead .fp32 (nextRounding (Thread.initial .run)) c).1 = 0x3FE00000) := by
  decide +kernel

/-- Chapter 12: the sum whose order does not matter, read by XRD.S; and XMAXE of an empty cell. -/
theorem test_xrd : after (.xrdS 5 1) (withX [(1, addrIn 1 0)]) (fun t _ => getX t 5 == 0x40B20000 && t.csr.fflags == 0)
    (fun c => poolStore c 0 0 (valBytes 32 (cellAddBlock (exampleCell 3 [decodeNum .fp64 0x401A000000000000, decodeNum .fp32 0xBF400000])
      (BitVec.ofInt 64 (-3)) (BitVec.ofInt 16 (-4))))) = true := by decide +kernel
theorem test_xmaxe : after (.xmaxe 5 1 2) (withX [(1, addrIn 1 0), (2, 3)])
    (fun t c => getX t 5 == 0x8000 && cellAnchor (bytesVal 256 (poolBytes c 0 32)) == 3)
    (fun c => poolStore c 0 0 (valBytes 32 (mkCell 0 (-32768) 0))) = true := by decide +kernel

/-- Chapter 5: CSRW RND gives the old mode. -/
theorem test_csrw : after (.csrw 9 7 0x001) (fun t => { withX [(7, 2), (9, 77)] t with csr := { t.csr with rnd := 1 } })
    (fun t _ => getX t 9 == 1 && t.csr.rnd == 2) = true := by decide +kernel

/-- R412: TRAP saves the pc after it and the mode, and goes to TVEC in system mode with TM set. -/
theorem test_trap : after (.trap 10 3) (fun t => { withX [(10, 5)] (userMode t) with csr := { (userMode t).csr with tvec := 0x2000 } })
    (fun t _ => t.pc == 0x2000 && t.csr.tm && t.csr.trapval == 5 && t.csr.trappc == 0x10004) = true := by decide +kernel
end Sys2Proof.Machine
end

/-!
SUPPORT. Which CSR instructions trap and which complete (R89, R90), what the halfword forms decode to (R81 to R83), and
what a step does in which a slot runs an instruction (R99).
-/

namespace Sys2Proof

/-! ## Halfwords -/

/-- A field that the decoder reads of a bit vector's number is the vector's own slice. -/
theorem bits_toNat {m : Nat} (h : BitVec m) (lo n : Nat) : bits h.toNat lo n = h.extractLsb' lo n := by
  rw [bits, ← Nat.shiftRight_eq_div_pow]
  rfl

theorem fld_eq_toNat_bits (w lo n : Nat) : fld w lo n = (bits w lo n).toNat := rfl

theorem fld_eq_zero_iff (w lo n : Nat) : fld w lo n = 0 ↔ bits w lo n = 0 := by
  rw [fld_eq_toNat_bits, ← BitVec.toNat_inj]
  rfl

theorem fld_toNat_one {m : Nat} (h : BitVec m) (lo : Nat) : fld h.toNat lo 1 = (h.getLsbD lo).toNat := by
  rw [BitVec.getLsbD, Nat.toNat_testBit]
  rfl

/-- A word with bit 0 clear is one halfword (R74). -/
theorem decode_even (h : BitVec 16) (heven : h.getLsbD 0 = false) :
    decode h.toNat = (decode16 h.toNat).map (·.build h.toNat) := by
  have he : ¬ h.toNat % 2 = 1 := by simpa [BitVec.getLsbD, Nat.testBit_zero] using heven
  have hb : instrBits h.toNat = h.toNat := by rw [instrBits, if_neg he, Nat.mod_eq_of_lt h.isLt]
  rw [decode, hb, decodeOp, if_neg he]
  cases decode16 h.toNat <;> rfl

/-- The compact row that a halfword's op and variant bit name, with its fields, is its form of R82; row 15 alone looks at
further bits, which must be zero. -/
theorem decode16_build (h : BitVec 16) (hne : h ≠ 0) :
    (decode16 h.toNat).map (·.build h.toNat) = Machine.halfwordForm h := by
  have hz : h.toNat ≠ 0 := fun e => hne (BitVec.eq_of_toNat_eq e)
  have hop : (bits h.toNat 1 4).toNat < 16 := (bits h.toNat 1 4).isLt
  simp only [decode16, Machine.halfwordForm, ← bits_toNat, fld_toNat_one, fld_eq_zero_iff, fld_eq_toNat_bits _ 1 4, if_pos hz]
  generalize (bits h.toNat 1 4).toNat = op at hop
  by_cases hq : bits h.toNat 7 3 = 0 ∧ bits h.toNat 13 2 = 0
  · simp only [if_pos hq]
    cases h.getLsbD 15 <;> interval_cases op <;> rfl
  · simp only [if_neg hq]
    cases h.getLsbD 15 <;> interval_cases op <;> rfl

theorem decodeOp_zero : decodeOp 0 = .error .opcode := rfl

theorem decode_zero : decode 0 = .error .opcode := rfl

end Sys2Proof

namespace Sys2Proof.Machine

/-! ## The CSR table -/

theorem csrAssigned_iff (n : Nat) : csrAssigned n = true ↔ n ∈ csrTable := by
  simp only [csrAssigned, csrTable, Bool.or_eq_true, Bool.and_eq_true, decide_eq_true_eq, List.mem_cons, List.not_mem_nil,
    or_false]
  constructor
  · rintro (((h | ⟨h, h'⟩) | ⟨h, h'⟩) | ⟨h, h'⟩) <;> omega
  · omega

theorem csrCause_of_not_mem (s : State) {n : Nat} (write : Bool) (h : n ∉ csrTable) : csrCause s n write = some causeBadCsr := by
  have hp : n ≠ 0x013 ∧ n ≠ 0x030 := by constructor <;> rintro rfl <;> exact h (by decide)
  have ha : csrAssigned n = false := Bool.eq_false_iff.2 fun e => h ((csrAssigned_iff n).1 e)
  simp [csrCause, hp, ha]

theorem csrCause_of_readOnly (s : State) {n : Nat} (hlo : 0x020 ≤ n) (hhi : n ≤ 0x025) :
    csrCause s n true = some causeBadCsr := by
  have hp : n ≠ 0x013 ∧ n ≠ 0x030 := by omega
  simp [csrCause, hp, hlo, hhi]

theorem csrCause_of_open {s : State} {n : Nat} {write : Bool} (hn : n ∈ csrTable) (hw : write = true → n < 0x020 ∨ 0x025 < n)
    (hs : n = 0x013 ∨ n = 0x030 → (curThread s).csr.sys = true) : csrCause s n write = none := by
  have hp : ¬ ((n == 0x013 || n == 0x030) && !(curThread s).csr.sys) = true := by
    simpa using hs
  have hb : ¬ (!csrAssigned n || (write && 0x020 ≤ n && n ≤ 0x025)) = true := by
    simpa [(csrAssigned_iff n).2 hn] using fun e h => by have := hw e; omega
  rw [csrCause, if_neg hp, if_neg hb]

/-! ## The CSR instructions -/

/-- An instruction that a CSR number stops takes that trap before any other check but the mode's (R91). -/
theorem run_csr_trap {s : State} {u : Uses} {cause : BitVec 8} (len : Nat) (body : State → Res) (hp : u.priv = false)
    (hc : u.csr = some cause) :
    run len u s body = .next (takeTrap s (curRef s) (curThread s).pc cause (instrWord s)) := by
  simp [run, runRes, checkUses, hp, hc, finish, stopCur]

theorem csrExchange_traps {s : State} {a : Option (BitVec 5)} {c : BitVec 12} {cause : BitVec 8} (d : BitVec 5)
    (f : Word → Word → Word) (h : csrCause s c.toNat a.isSome = some cause) :
    csrExchange d a c f s = .next (takeTrap s (curRef s) (curThread s).pc cause (instrWord s)) :=
  run_csr_trap 4 _ rfl h

theorem csrExchange_reads {s : State} {d : BitVec 5} {c : BitVec 12} (f : Word → Word → Word)
    (hc : csrCause s c.toNat false = none) (h : Runs s { xw := some d }) :
    csrExchange d none c f s = .next (moved s 4 (setX (curThread s) d (csrRead s c.toNat))) := by
  simp only [csrExchange, Option.isSome_none, hc, Option.toList_none]
  rw [run_of_runs h, modCur, finish_ok_zero]

theorem csrExchange_writes {s : State} {d a : BitVec 5} {c : BitVec 12} (f : Word → Word → Word)
    (hc : csrCause s c.toNat true = none) (h : Runs s { xr := [a], xw := some d }) :
    csrExchange d (some a) c f s = .next (moved s 4 (setX { curThread s with
      csr := csrWrite (inMsgSlot s) c.toNat (f (csrRead s c.toNat) (getX (curThread s) a)) (curThread s).csr }
      d (csrRead s c.toNat))) := by
  simp only [csrExchange, Option.isSome_some, hc, Option.toList_some]
  rw [run_of_runs h, modCur, finish_ok_zero]

theorem exec_csrr (d : BitVec 5) (c : BitVec 12) (s : State) : exec (.csrr d c) s = csrExchange d none c (fun old _ => old) s := rfl

theorem exec_csrw (d a : BitVec 5) (c : BitVec 12) (s : State) :
    exec (.csrw d a c) s = csrExchange d (some a) c (fun _ v => v) s := rfl

theorem exec_csrs (d a : BitVec 5) (c : BitVec 12) (s : State) :
    exec (.csrs d a c) s = csrExchange d (some a) c (fun old v => old ||| v) s := rfl

theorem exec_csrc (d a : BitVec 5) (c : BitVec 12) (s : State) :
    exec (.csrc d a c) s = csrExchange d (some a) c (fun old v => old &&& ~~~v) s := rfl

/-- Settles O11: the cause of the number decides (`csrCause`); where it has none, the exchange completes. -/
theorem csrTraps : Obligations.CsrTraps := by
  unfold Obligations.CsrTraps
  intro d a c s
  simp only [exec_csrr, exec_csrw, exec_csrs, exec_csrc]
  refine ⟨fun hn => ?unassigned, fun hlo hhi => ?readOnly, fun hn hs hr => ?reads, fun hn hw hs hr => ?writes⟩
  case unassigned =>
    have hc := fun write => csrCause_of_not_mem s write hn
    exact ⟨csrExchange_traps d _ (hc _), csrExchange_traps d _ (hc _), csrExchange_traps d _ (hc _), csrExchange_traps d _ (hc _)⟩
  case readOnly =>
    have hc := csrCause_of_readOnly s hlo hhi
    exact ⟨csrExchange_traps d _ hc, csrExchange_traps d _ hc, csrExchange_traps d _ hc⟩
  case reads => exact csrExchange_reads _ (csrCause_of_open hn (by simp) hs) hr
  case writes =>
    have hc : csrCause s c.toNat true = none := csrCause_of_open hn (fun _ => hw) hs
    exact ⟨csrExchange_writes _ hc hr, csrExchange_writes _ hc hr, csrExchange_writes _ hc hr⟩

/-! ## A step in which a slot runs an instruction -/

/-- A thread that is about neither to retire nor to fault a second time: where it issues, it runs the instruction at its pc (R99, R412). -/
def RunsAtPc (t : Thread) : Prop := t.retiring = false ∧ t.doubling = false

/-- A change of one thread that keeps a property of threads keeps it of every thread. -/
theorem getThread_modThread_of {P : Thread → Prop} {s : State} {j : Nat} {n : Fin 16} (k : Nat) (i : Fin 16) {f : Thread → Thread}
    (hf : ∀ t, P t → P (f t)) (h : P (getThread s j n)) : P (getThread (modThread s k i f) j n) := by
  by_cases he : j = k ∧ n = i
  · obtain ⟨rfl, rfl⟩ := he
    rw [getThread_modThread]
    exact hf _ h
  · rw [modThread, getThread_setThread_ne _ _ _ _ _ _ (by tauto)]
    exact h

theorem getThread_modCore_donated (s : State) (k j i : Nat) (n : Fin 16) :
    getThread (modCore s k fun c => { c with donated := some i }) j n = getThread s j n := by
  by_cases hj : j = k
  · subst hj; simp [getThread, coreSlot]
  · simp [getThread, getCore_modCore_ne _ _ _ _ hj]

theorem passCore_runsAtPc {s : State} {r : Ref} (k : Nat) (h : RunsAtPc (refThread s r)) :
    RunsAtPc (refThread (passCore s k) r) :=
  getThread_modThread_of (P := RunsAtPc) k _ (fun _ ht => ht) h

theorem markIssue_runsAtPc {s : State} {r : Ref} (k i : Nat) (donated : Bool) (h : RunsAtPc (refThread s r)) :
    RunsAtPc (refThread (markIssue s k i donated) r) := by
  have hm := getThread_modThread_of (P := RunsAtPc) (f := fun t => { t with lastIssue := some s.cycle }) k (slotOf i) (fun _ ht => ht) h
  cases donated with
  | false => exact hm
  | true =>
    rw [markIssue, if_pos rfl, refThread, getThread_modCore_donated]
    exact hm

theorem curThread_enterSlot_runsAtPc {s : State} {r : Ref} (h : RunsAtPc (refThread s r)) :
    RunsAtPc (curThread (enterSlot s r)) := by
  refine getThread_modThread_of (P := RunsAtPc) r.core (slotOf r.slot) (fun t ht => ?_) h
  split
  · exact ht
  · split <;> exact ht

theorem inMsgSlot_enterSlot {s : State} {r : Ref} (h : r.slot < 15) : inMsgSlot (enterSlot s r) = false := by
  have hv : (enterSlot s r).cur.2.val = r.slot := Nat.mod_eq_of_lt (by omega)
  simp only [inMsgSlot, hv, beq_eq_false_iff_ne]
  omega

theorem runSlot_user {s : State} (hg : RunsAtPc (curThread s)) (hm : inMsgSlot s = false) : runSlot s = runFetched s := by
  obtain ⟨hr, hd⟩ := hg
  simp [runSlot, hr, hd, hm]

/-- In a step in which a slot issues, the slot runs the instruction at its pc. -/
theorem step_of_issues {s : State} {k slot : Nat} {donated : Bool} (h : Issues s k slot donated) :
    step s = runRef (markIssue (passCore { s with agenda := s.agenda.tail } k) k slot donated) ⟨k, slot⟩ := by
  obtain ⟨⟨rest, ha⟩, hpow, ⟨c, hfoc⟩, hpick, hidle, htrap, -, -⟩ := h
  have ht : s.agenda.tail = rest := by rw [ha, List.tail_cons]
  rw [ht] at hpick ⊢
  have hnot : ¬ (slot ≠ 15 ∧ asyncPending (refThread s ⟨k, slot⟩) ∧ !(refThread s ⟨k, slot⟩).csr.tm
      ∧ !(refThread s ⟨k, slot⟩).doubling) := by
    rintro ⟨h15, hp, htm, -⟩
    rcases htrap with h | h | h
    · exact h15 h
    · simp [h] at hp
    · simp [h] at htm
  have hissue : step s = issueCore { s with agenda := rest } k := by
    simp [step, ha, issueNext, hpow, hfoc]
  rw [hissue, issueCore, hpick]
  exact (if_neg hidle).trans (if_neg hnot)

/-- What the instruction of the slot that issues answers, the step answers, without the mark of poll mode. -/
theorem step_of_runFetched {s t : State} {k slot : Nat} {donated : Bool} (h : Issues s k slot donated)
    (hf : runFetched (enterSlot (markIssue (passCore { s with agenda := s.agenda.tail } k) k slot donated) ⟨k, slot⟩) = .next t) :
    step s = .next (modRef t ⟨k, slot⟩ leavePoll) := by
  have hg := curThread_enterSlot_runsAtPc (markIssue_runsAtPc k slot donated
    (passCore_runsAtPc (s := { s with agenda := s.agenda.tail }) (r := ⟨k, slot⟩) k h.goes))
  rw [step_of_issues h, runRef, runSlot_user hg (inMsgSlot_enterSlot h.user), hf]

theorem runBits_illegal {w : Nat} {e : Illegal} (s : State) (h : decodeOp w = .error e) :
    let s' := { s with iword := BitVec.ofNat 32 w }
    runBits w s = .next (takeTrap s' (curRef s') (curThread s').pc (illegalCause e) (instrWord s')) := by
  simp only [runBits, h]
  rfl

/-- R83: the zero halfword traps with its own bits, all zero, as the value. -/
theorem runBits_zero (s : State) :
    let s' := { s with iword := 0 }
    runBits 0 s = .next (takeTrap s' (curRef s') (curThread s').pc causeIllegalOpcode 0) := by
  intro s'
  rw [runBits_illegal s decodeOp_zero]
  rfl

/-- Settles O57: the compact rows are the forms of R82, and the zero halfword names none, so its fetch ends in the trap. -/
theorem halfwordForms : Obligations.HalfwordForms := by
  unfold Obligations.HalfwordForms
  refine ⟨fun h heven hne => ?forms, decode_zero, fun s s₁ k slot donated hi hfetch => ?traps⟩
  case forms => rw [decode_even h heven, decode16_build h hne]
  case traps =>
    refine step_of_runFetched hi ?_
    rw [runFetched, hfetch]
    exact runBits_zero s₁

/-! ## A zero halfword at the pc of a slot that issues -/

/-- The placed program with the zero halfword as its first. -/
def zeroHalfword : State := placeWord State.reset 16 0

/-- The slot of the placed program, as its issue enters it. -/
def zeroHalfwordEntered : State :=
  enterSlot (markIssue (passCore { zeroHalfword with agenda := zeroHalfword.agenda.tail } programCore) programCore 0 false)
    ⟨programCore, 0⟩

theorem issues_zeroHalfword : Issues zeroHalfword programCore 0 false where
  agenda := ⟨[], rfl⟩
  power := rfl
  focus := ⟨_, rfl⟩
  pick := by decide +kernel
  notIdle := by decide +kernel
  noTrap := .inr (.inl (by decide +kernel))
  goes := by decide +kernel
  user := by decide

theorem fetchWord_zeroHalfword : ∃ s₁, fetchWord zeroHalfwordEntered (curThread zeroHalfwordEntered).pc = .ok (s₁, 0) := by
  have hw : (fetchWord zeroHalfwordEntered (curThread zeroHalfwordEntered).pc).toOption.map (·.2) = some 0 := by decide +kernel
  cases hf : fetchWord zeroHalfwordEntered (curThread zeroHalfwordEntered).pc with
  | error e => simp [hf, Except.toOption] at hw
  | ok p =>
    obtain ⟨s₁, w⟩ := p
    have h0 : w = 0 := by simpa [hf, Except.toOption] using hw
    exact ⟨s₁, by rw [h0]⟩

/-- The hypotheses of the trap of R83 hold together: the placed zero halfword traps. -/
theorem witness_halfwordForms : ∃ s₁ : State,
    let s₂ := { s₁ with iword := 0 }
    step zeroHalfword = .next (modRef (takeTrap s₂ (curRef s₂) (curThread s₂).pc causeIllegalOpcode 0) ⟨programCore, 0⟩ leavePoll) :=
  let ⟨_, _, htrap⟩ := halfwordForms
  fetchWord_zeroHalfword.imp fun s₁ hf => htrap _ s₁ _ _ _ issues_zeroHalfword hf

end Sys2Proof.Machine

/-!
SUPPORT. Words written field by field, and what the decoder reads of them (R77, R85); the branches and jumps, their effects, waits
and traps (R115 to R118).
-/

namespace Sys2Proof.Machine

/-! ## Words written field by field -/

/-- Every value of the fields lies within its width. -/
def FieldsFit (fs : List (Nat × Nat)) : Prop := ∀ f ∈ fs, f.1 < 2 ^ f.2

@[simp] theorem fieldsFit_nil : FieldsFit [] := by simp [FieldsFit]

theorem fieldsFit_cons (f : Nat × Nat) (fs : List (Nat × Nat)) : FieldsFit (f :: fs) ↔ f.1 < 2 ^ f.2 ∧ FieldsFit fs := by
  simp [FieldsFit]

@[simp] theorem fieldsFit_pair_cons (v n : Nat) (fs : List (Nat × Nat)) : FieldsFit ((v, n) :: fs) ↔ v < 2 ^ n ∧ FieldsFit fs :=
  fieldsFit_cons (v, n) fs

@[simp] theorem fieldsFit_field_cons {w : Nat} (v : BitVec w) (fs : List (Nat × Nat)) : FieldsFit (field v :: fs) ↔ FieldsFit fs :=
  (fieldsFit_cons (field v) fs).trans (and_iff_right v.isLt)

@[simp] theorem field_fst {w : Nat} (v : BitVec w) : (field v).1 = v.toNat := rfl

@[simp] theorem field_snd {w : Nat} (v : BitVec w) : (field v).2 = w := rfl

theorem wordFrom_cons (f : Nat × Nat) (fs : List (Nat × Nat)) : wordFrom (f :: fs) = f.1 + 2 ^ f.2 * wordFrom fs := rfl

theorem wordFrom_lt {fs : List (Nat × Nat)} (h : FieldsFit fs) : wordFrom fs < 2 ^ (fs.map (·.2)).sum := by
  induction fs with
  | nil => simp [wordFrom]
  | cons f fs ih =>
    obtain ⟨hf, hfs⟩ := (fieldsFit_cons f fs).1 h
    rw [wordFrom_cons, List.map_cons, List.sum_cons, pow_add]
    have hle := Nat.mul_le_mul_left (2 ^ f.2) (Nat.succ_le_of_lt (ih hfs))
    rw [Nat.mul_succ] at hle
    omega

/-- Above the first field the word reads as the word of the rest. -/
theorem wordFrom_cons_div {f : Nat × Nat} {fs : List (Nat × Nat)} {lo : Nat} (hf : f.1 < 2 ^ f.2) (h : f.2 ≤ lo) :
    wordFrom (f :: fs) / 2 ^ lo = wordFrom fs / 2 ^ (lo - f.2) := by
  obtain ⟨k, rfl⟩ := Nat.exists_eq_add_of_le h
  rw [wordFrom_cons, pow_add, ← Nat.div_div_eq_div_mul, Nat.add_mul_div_left _ _ (Nat.two_pow_pos _), Nat.div_eq_of_lt hf,
    Nat.zero_add, Nat.add_sub_cancel_left]

theorem fld_wordFrom_cons {f : Nat × Nat} {fs : List (Nat × Nat)} {lo n : Nat} (hf : f.1 < 2 ^ f.2) (h : f.2 ≤ lo) :
    fld (wordFrom (f :: fs)) lo n = fld (wordFrom fs) (lo - f.2) n := by
  rw [fld, wordFrom_cons_div hf h, fld]

theorem bits_wordFrom_cons {f : Nat × Nat} {fs : List (Nat × Nat)} {lo n : Nat} (hf : f.1 < 2 ^ f.2) (h : f.2 ≤ lo) :
    bits (wordFrom (f :: fs)) lo n = bits (wordFrom fs) (lo - f.2) n := by
  rw [bits, wordFrom_cons_div hf h, bits]

@[simp] theorem fld_field_cons {w : Nat} (v : BitVec w) (fs : List (Nat × Nat)) {lo n : Nat} (h : w ≤ lo) :
    fld (wordFrom (field v :: fs)) lo n = fld (wordFrom fs) (lo - w) n :=
  fld_wordFrom_cons v.isLt h

@[simp] theorem bits_field_cons {w : Nat} (v : BitVec w) (fs : List (Nat × Nat)) {lo n : Nat} (h : w ≤ lo) :
    bits (wordFrom (field v :: fs)) lo n = bits (wordFrom fs) (lo - w) n :=
  bits_wordFrom_cons v.isLt h

@[simp] theorem bits_pair_cons {v m : Nat} (fs : List (Nat × Nat)) {lo n : Nat} (hv : v < 2 ^ m) (h : m ≤ lo) :
    bits (wordFrom ((v, m) :: fs)) lo n = bits (wordFrom fs) (lo - m) n :=
  bits_wordFrom_cons hv h

@[simp] theorem fld_wordFrom_head {v n : Nat} (fs : List (Nat × Nat)) (h : v < 2 ^ n) : fld (wordFrom ((v, n) :: fs)) 0 n = v := by
  rw [fld, pow_zero, Nat.div_one, wordFrom_cons, Nat.add_mul_mod_self_left, Nat.mod_eq_of_lt h]

theorem fld_field_head {n : Nat} (v : BitVec n) (fs : List (Nat × Nat)) : fld (wordFrom (field v :: fs)) 0 n = v.toNat :=
  fld_wordFrom_head fs v.isLt

@[simp] theorem bits_field_head {n : Nat} (v : BitVec n) (fs : List (Nat × Nat)) : bits (wordFrom (field v :: fs)) 0 n = v :=
  BitVec.eq_of_toNat_eq (fld_field_head v fs)

/-- A field that spans the first field and more is zero where all of them are. -/
@[simp] theorem fld_field_eq_zero_iff {w n : Nat} (v : BitVec w) (fs : List (Nat × Nat)) (h : w ≤ n) :
    fld (wordFrom (field v :: fs)) 0 n = 0 ↔ v = 0 ∧ fld (wordFrom fs) 0 (n - w) = 0 := by
  obtain ⟨k, rfl⟩ := Nat.exists_eq_add_of_le h
  have hz : v = 0 ↔ v.toNat = 0 := by rw [← BitVec.toNat_inj]; rfl
  rw [hz, fld, fld, pow_zero, Nat.div_one, Nat.div_one, Nat.add_sub_cancel_left, wordFrom_cons, field_fst, field_snd,
    pow_add, Nat.mod_mul, Nat.add_mul_mod_self_left, Nat.mod_eq_of_lt v.isLt, Nat.add_mul_div_left _ _ (Nat.two_pow_pos _),
    Nat.div_eq_of_lt v.isLt, Nat.zero_add]
  simp [Nat.add_eq_zero_iff]

@[simp] theorem fld_width_zero (w lo : Nat) : fld w lo 0 = 0 := by simp [fld, Nat.mod_one]

/-! ## Words of four bytes -/

/-- The word of four bytes of the major opcode `op` with the fields `fs` above it (R77). -/
def opWord (op : Nat) (fs : List (Nat × Nat)) : Nat := wordFrom ((1, 1) :: (op, 6) :: fs)

/-- Where the opcode's family decodes words by `family`, a word of the opcode whose fields fill it is the row that `family` names, with
its fields. -/
theorem decode_opWord {op : Nat} {fs : List (Nat × Nat)} {family : Nat → Except Illegal Op} (hop : op < 64)
    (hfam : ∀ w, fld w 1 6 = op → decode32 w = family w) (hfit : FieldsFit fs) (hsum : (fs.map (·.2)).sum = 25) :
    decode (opWord op fs) = (family (opWord op fs)).map (·.build (opWord op fs)) := by
  have hodd : opWord op fs % 2 = 1 := Nat.add_mul_mod_self_left 1 2 _
  have hlt : opWord op fs < 2 ^ 32 := by
    have h := wordFrom_lt (fs := (1, 1) :: (op, 6) :: fs) (by simp [hop, hfit])
    rwa [List.map_cons, List.map_cons, List.sum_cons, List.sum_cons, hsum] at h
  have hrow : decode32 (opWord op fs) = family (opWord op fs) := by
    apply hfam
    rw [opWord, fld_wordFrom_cons (by decide) (by decide)]
    exact fld_wordFrom_head fs hop
  have hb : instrBits (opWord op fs) = opWord op fs := by rw [instrBits, if_pos hodd, Nat.mod_eq_of_lt hlt]
  rw [decode, hb, decodeOp, if_pos hodd, hrow]
  cases family (opWord op fs) <;> rfl

/-- Above bit 6 a word of the opcode reads as its fields. -/
theorem opWord_div {op : Nat} {fs : List (Nat × Nat)} {lo : Nat} (hop : op < 64) (h : 7 ≤ lo) :
    opWord op fs / 2 ^ lo = wordFrom fs / 2 ^ (lo - 7) := by
  have h₁ : 1 ≤ lo := by omega
  have h₆ : 6 ≤ lo - 1 := by omega
  rw [opWord, wordFrom_cons_div (by decide) h₁, wordFrom_cons_div hop h₆, Nat.sub_sub]
  rfl

@[simp] theorem fld_opWord {op : Nat} {fs : List (Nat × Nat)} {lo n : Nat} (hop : op < 64) (h : 7 ≤ lo) :
    fld (opWord op fs) lo n = fld (wordFrom fs) (lo - 7) n := by
  rw [fld, opWord_div hop h, fld]

@[simp] theorem bits_opWord {op : Nat} {fs : List (Nat × Nat)} {lo n : Nat} (hop : op < 64) (h : 7 ≤ lo) :
    bits (opWord op fs) lo n = bits (wordFrom fs) (lo - 7) n := by
  rw [bits, opWord_div hop h, bits]

/-- A row that asks some bits to be zero is the instruction where they are, and ILLEGAL_FIELD where they are not (R91). -/
theorem map_zeroFields {p q : Prop} [Decidable p] [Decidable q] (op : Op) (w : Nat) {i : Instr} (hp : q ↔ p) (hi : op.build w = i) :
    (if q then Except.ok op else .error Illegal.field).map (·.build w) = if p then .ok i else .error .field := by
  by_cases h : p
  · rw [if_pos h, if_pos (hp.2 h), ← hi]; rfl
  · rw [if_neg h, if_neg (mt hp.1 h)]; rfl

/-! ## The words of branches and jumps -/

/-- The row of BC that the condition field `cc` names (R115). -/
noncomputable def bcRow (cc : Nat) (a b : BitVec 5) (o : BitVec 12) : Except Illegal Instr :=
  match cc with
  | 0 => .ok (.bcEq a b o)
  | 1 => .ok (.bcNe a b o)
  | 2 => .ok (.bcLt a b o)
  | 3 => .ok (.bcGe a b o)
  | 4 => .ok (.bcLtu a b o)
  | 5 => .ok (.bcGeu a b o)
  | _ => .error .func

theorem decode_bcWord {cc : Nat} (hcc : cc < 8) (a b : BitVec 5) (o : BitVec 12) :
    decode (opWord 0x0F [field a, field b, (cc, 3), field o]) = bcRow cc a b o := by
  rw [decode_opWord (family := decodeBc) (by decide) (fun w h => by simp only [decode32, h]) (by simp [hcc]) rfl]
  have hc : fld (opWord 0x0F [field a, field b, (cc, 3), field o]) 17 3 = cc := by simp [hcc]
  rw [decodeBc, hc]
  interval_cases cc <;> simp [Except.map, Op.build, bcRow]

theorem decode_jalWord (d : BitVec 5) (o : BitVec 20) : decode (opWord 0x10 [field d, field o]) = .ok (.jal d o) := by
  rw [decode_opWord (family := decodeJal) (by decide) (fun w h => by simp only [decode32, h]) (by simp) rfl]
  simp [decodeJal, Except.map, Op.build]

theorem decode_jalrWord (d a : BitVec 5) (i : BitVec 15) : decode (opWord 0x11 [field d, field a, field i]) = .ok (.jalr d a i) := by
  rw [decode_opWord (family := decodeJalr) (by decide) (fun w h => by simp only [decode32, h]) (by simp) rfl]
  simp [decodeJalr, Except.map, Op.build]

theorem decode_ptbWord (tb : BitVec 2) (z : BitVec 3) (o : BitVec 20) :
    decode (opWord 0x12 [field tb, field z, field o]) = if z = 0 then .ok (.ptb tb o) else .error .field := by
  rw [decode_opWord (family := decodePtb) (by decide) (fun w h => by simp only [decode32, h]) (by simp) rfl, decodePtb]
  exact map_zeroFields _ _ (by simp) (by simp [Op.build])

/-! The rows of BR by its function field (R118). -/

section
variable {w : Nat}

theorem decodeBr_bt (h : fld w 22 10 = 0) :
    decodeBr w = if fld w 9 3 = 0 ∧ fld w 15 7 = 0 then .ok .bt else .error .field := by
  simp only [decodeBr, h]

theorem decodeBr_btn (h : fld w 22 10 = 1) :
    decodeBr w = if fld w 9 3 = 0 ∧ fld w 15 7 = 0 then .ok .btn else .error .field := by
  simp only [decodeBr, h]

theorem decodeBr_bta (h : fld w 22 10 = 2) : decodeBr w = if fld w 9 13 = 0 then .ok .bta else .error .field := by
  simp only [decodeBr, h]

theorem decodeBr_ptbr (h : fld w 22 10 = 3) :
    decodeBr w = if fld w 9 3 = 0 ∧ fld w 17 5 = 0 then .ok .ptbr else .error .field := by
  simp only [decodeBr, h]

theorem decodeBr_callt (h : fld w 22 10 = 4) : decodeBr w = if fld w 14 8 = 0 then .ok .callt else .error .field := by
  simp only [decodeBr, h]

theorem decodeBr_reserved (h : 5 ≤ fld w 22 10) : decodeBr w = .error .func := by
  unfold decodeBr
  split
  case h_6 => rfl
  all_goals omega

end

/-- A word of BR whose fields fill it is the row of its function field, with its fields (R118). -/
theorem decode_brWord {fs : List (Nat × Nat)} (hfit : FieldsFit fs) (hsum : (fs.map (·.2)).sum = 25) :
    decode (opWord 0x13 fs) = (decodeBr (opWord 0x13 fs)).map (·.build (opWord 0x13 fs)) :=
  decode_opWord (by decide) (fun w h => by simp only [decode32, h]) hfit hsum

theorem decode_btWord (tb zz : BitVec 2) (g zzz : BitVec 3) (b : BitVec 5) :
    decode (opWord 0x13 [field tb, field zzz, field g, field zz, field b, (0, 10)]) =
      if zzz = 0 ∧ zz = 0 ∧ b = 0 then .ok (.bt tb g) else .error .field := by
  rw [decode_brWord (by simp) rfl, decodeBr_bt (by simp)]
  exact map_zeroFields _ _ (by simp) (by simp [Op.build])

theorem decode_btnWord (tb zz : BitVec 2) (g zzz : BitVec 3) (b : BitVec 5) :
    decode (opWord 0x13 [field tb, field zzz, field g, field zz, field b, (1, 10)]) =
      if zzz = 0 ∧ zz = 0 ∧ b = 0 then .ok (.btn tb g) else .error .field := by
  rw [decode_brWord (by simp) rfl, decodeBr_btn (by simp)]
  exact map_zeroFields _ _ (by simp) (by simp [Op.build])

theorem decode_btaWord (tb : BitVec 2) (zzz : BitVec 3) (a b : BitVec 5) :
    decode (opWord 0x13 [field tb, field zzz, field a, field b, (2, 10)]) =
      if zzz = 0 ∧ a = 0 ∧ b = 0 then .ok (.bta tb) else .error .field := by
  rw [decode_brWord (by simp) rfl, decodeBr_bta (by simp)]
  exact map_zeroFields _ _ (by simp) (by simp [Op.build])

theorem decode_ptbrWord (tb : BitVec 2) (zzz : BitVec 3) (a b : BitVec 5) :
    decode (opWord 0x13 [field tb, field zzz, field a, field b, (3, 10)]) =
      if zzz = 0 ∧ b = 0 then .ok (.ptbr tb a) else .error .field := by
  rw [decode_brWord (by simp) rfl, decodeBr_ptbr (by simp)]
  exact map_zeroFields _ _ (by simp) (by simp [Op.build])

theorem decode_calltWord (d b : BitVec 5) (tb : BitVec 2) (zzz : BitVec 3) :
    decode (opWord 0x13 [field d, field tb, field zzz, field b, (4, 10)]) =
      if zzz = 0 ∧ b = 0 then .ok (.callt d tb) else .error .field := by
  rw [decode_brWord (by simp) rfl, decodeBr_callt (by simp)]
  exact map_zeroFields _ _ (by simp) (by simp [Op.build])

theorem decode_brWord_reserved (d a b : BitVec 5) {fn : BitVec 10} (h : 5 ≤ fn.toNat) :
    decode (opWord 0x13 [field d, field a, field b, field fn]) = .error .func := by
  have hf : fld (opWord 0x13 [field d, field a, field b, field fn]) 22 10 = fn.toNat := by
    simp [fld_field_head]
  rw [decode_brWord (by simp) rfl, decodeBr_reserved (by rwa [hf])]
  rfl

theorem controlWords : ControlWords := fun a b d o o' n tb zz g zzz _ =>
  have bc (cc : Nat) (hcc : cc < 8) := decode_bcWord hcc a b o
  ⟨bc 0 (by decide), bc 1 (by decide), bc 2 (by decide), bc 3 (by decide), bc 4 (by decide), bc 5 (by decide), bc 6 (by decide),
    bc 7 (by decide), decode_jalWord d o', decode_jalrWord d a n, decode_ptbWord tb zzz o', decode_btWord tb zz g zzz b,
    decode_btnWord tb zz g zzz b, decode_btaWord tb zzz a b, decode_ptbrWord tb zzz a b, decode_calltWord d b tb zzz,
    decode_brWord_reserved d a b⟩

/-! ## The ends of an instruction before its effect -/

/-- An instruction that names an undeclared register traps before its effect, where neither the mode nor a CSR number stops it (R91). -/
theorem run_undeclared {s : State} {u : Uses} (len : Nat) (body : State → Res) (hp : u.priv = false) (hc : u.csr = none)
    (hd : usesDeclared s u = false) :
    run len u s body = .next (takeTrap s (curRef s) (curThread s).pc causeUndeclaredReg (instrWord s)) := by
  simp [run, runRes, checkUses, hp, hc, hd, finish, stopCur]

/-- An instruction that names a guard alone parks while it is PENDING, to be issued again (R108). -/
theorem run_guard_pending {s : State} {g : BitVec 3} (len : Nat) (body : State → Res) (hm : inMsgSlot s = false)
    (hg : (getG (curThread s) g).pending = true) :
    run len { gs := [g] } s body = .next (putThread s (parkThread (curThread s) .retry len)) := by
  have hc : checkUses s { gs := [g] } = none := by simp [checkUses, usesDeclared]
  have hports : chainPorts s { gs := [g] } = .go false false := by simp [chainPorts]
  simp [run, runRes, hc, hports, hg, finish, stopCur, hm, parkCur, modCur]

/-! ## Branches on a condition (R115) -/

theorem not_slt_eq (x y : Word) : (!x.slt y) = decide (y.toInt ≤ x.toInt) := by
  rw [BitVec.slt, ← decide_not, decide_eq_decide, not_lt]

theorem not_ult_eq (x y : Word) : (!x.ult y) = decide (y.toNat ≤ x.toNat) := by
  rw [BitVec.ult, ← decide_not, decide_eq_decide, not_lt]

theorem exec_of_branchOf {i : Instr} {a b : BitVec 5} {o : BitVec 12} {c : Word → Word → Bool} (h : branchOf i = some (a, b, o, c)) :
    ∃ fn, intCond fn = c ∧ ∀ s, exec i s = branchOn fn a b o s := by
  unfold branchOf at h
  split at h <;> cases h
  case h_1 => exact ⟨0, rfl, fun _ => rfl⟩
  case h_2 => exact ⟨1, rfl, fun _ => rfl⟩
  case h_3 => exact ⟨2, rfl, fun _ => rfl⟩
  case h_4 => exact ⟨3, funext₂ not_slt_eq, fun _ => rfl⟩
  case h_5 => exact ⟨4, rfl, fun _ => rfl⟩
  case h_6 => exact ⟨5, funext₂ not_ult_eq, fun _ => rfl⟩

theorem branchOn_runs {s : State} {a b : BitVec 5} (fn : Nat) (o : BitVec 12) (h : Runs s { xr := [a, b] }) :
    branchOn fn a b o s = .next (if intCond fn (getX (curThread s) a) (getX (curThread s) b)
      then jumped s (curThread s) (pcTarget (curThread s) o) else moved s 4 (curThread s)) := by
  by_cases hc : intCond fn (getX (curThread s) a) (getX (curThread s) b) = true
  · rw [if_pos hc]
    exact runT_goto h 4 _ _ _ (if_pos hc)
  · rw [if_neg hc]
    exact runT_ok h 4 _ _ (if_neg hc)

theorem branchResult : BranchResult := by
  intro i a b o c s hi hr
  obtain ⟨fn, rfl, hexec⟩ := exec_of_branchOf hi
  rw [hexec]
  exact branchOn_runs fn o hr

/-! ## Jumps (R116 to R118) -/

section
variable (d a : BitVec 5) (tb : BitVec 2) (o : BitVec 20) (i : BitVec 15) (s : State)

theorem exec_jal : exec (.jal d o) s =
    runT 4 { xw := some d } s fun t => .goto (setX t d (t.pc + 4)) (evenPc (pcTarget t o)) := rfl

theorem exec_jalr : exec (.jalr d a i) s =
    runT 4 { xr := [a], xw := some d } s fun t => .goto (setX t d (t.pc + 4)) (evenPc (getX t a + immWord i)) := rfl

theorem exec_ptb : exec (.ptb tb o) s = runT 4 {} s fun t => .ok (setTb t tb (evenPc (pcTarget t o))) 0 := rfl

theorem exec_ptbr : exec (.ptbr tb a) s = runT 4 { xr := [a] } s fun t => .ok (setTb t tb (evenPc (getX t a))) 0 := rfl

theorem exec_bta : exec (.bta tb) s = runT 4 {} s fun t => .goto t (getTb t tb) := rfl

theorem exec_callt : exec (.callt d tb) s = runT 4 { xw := some d } s fun t => .goto (setX t d (t.pc + 4)) (getTb t tb) := rfl

end

theorem jumpResult : JumpResult := by
  intro s d a tb o i
  refine ⟨fun h => ?jal, fun h => ?jalr, ?ptb, fun h => ?ptbr, ?bta, fun h => ?callt⟩
  case jal => rw [exec_jal, runT_goto h 4 _ _ _ rfl]; rfl
  case jalr => rw [exec_jalr, runT_goto h 4 _ _ _ rfl]; rfl
  case ptb => rw [exec_ptb, runT_ok (runs_none s) 4 _ _ rfl]; rfl
  case ptbr => rw [exec_ptbr, runT_ok h 4 _ _ rfl]
  case bta => rw [exec_bta, runT_goto (runs_none s) 4 _ _ _ rfl]
  case callt => rw [exec_callt, runT_goto h 4 _ _ _ rfl]

/-! ## Branches on a guard (R118, R82) -/

section
variable (tb : BitVec 2) (g : BitVec 3) (s : State)

theorem exec_bt : exec (.bt tb g) s = branchThrough 4 tb g true s := rfl

theorem exec_btn : exec (.btn tb g) s = branchThrough 4 tb g false s := rfl

theorem exec_btC : exec (.btC tb g) s = branchThrough 2 tb g true s := rfl

theorem exec_btnC : exec (.btnC tb g) s = branchThrough 2 tb g false s := rfl

end

theorem branchThrough_resolved {s : State} {g : BitVec 3} (len : Nat) (tb : BitVec 2) (taken : Bool)
    (h : (getG (curThread s) g).pending = false) :
    branchThrough len tb g taken s = .next (if (mask (curThread s) g).getLsbD 0 = taken
      then jumped s (curThread s) (getTb (curThread s) tb) else moved s len (curThread s)) := by
  by_cases hb : (mask (curThread s) g).getLsbD 0 = taken
  · rw [if_pos hb]
    exact runT_goto (runs_guard h) len _ _ _ (if_pos hb)
  · rw [if_neg hb]
    exact runT_ok (runs_guard h) len _ _ (if_neg hb)

theorem branchThrough_pending {s : State} {g : BitVec 3} (len : Nat) (tb : BitVec 2) (taken : Bool) (hm : inMsgSlot s = false)
    (hg : (getG (curThread s) g).pending = true) :
    branchThrough len tb g taken s = .next (putThread s (parkThread (curThread s) .retry len)) :=
  run_guard_pending len _ hm hg

theorem guardedBranch : GuardedBranch := by
  intro s tb g h t on
  have untaken (len : Nat) : branchThrough len tb g false s = .next (if (mask (curThread s) g).getLsbD 0 = true
      then moved s len (curThread s) else jumped s (curThread s) (getTb (curThread s) tb)) := by
    simp only [branchThrough_resolved len tb false h, ← Bool.not_eq_true, ite_not]
  rw [exec_bt, exec_btn, exec_btC, exec_btnC]
  exact ⟨branchThrough_resolved 4 tb true h, untaken 4, branchThrough_resolved 2 tb true h, untaken 2⟩

theorem branchWaits : BranchWaits := by
  intro s tb g hm hg waits
  have parks (len : Nat) (taken : Bool) : branchThrough len tb g taken s = waits len := branchThrough_pending len tb taken hm hg
  rw [exec_bt, exec_btn, exec_btC, exec_btnC]
  exact ⟨parks 4 true, parks 4 false, parks 2 true, parks 2 false⟩

/-! ## Undeclared registers (R91) -/

theorem branchUndeclared : BranchUndeclared := by
  intro s i d a b tb o o' n c
  refine ⟨fun hi hd => ?branch, fun hd => ⟨?jal, ?callt⟩, fun hd => ?jalr, fun hd => ?ptbr⟩
  case branch =>
    obtain ⟨fn, -, hexec⟩ := exec_of_branchOf hi
    rw [hexec]
    exact run_undeclared 4 _ rfl rfl hd
  case jal => rw [exec_jal]; exact run_undeclared 4 _ rfl rfl hd
  case callt => rw [exec_callt]; exact run_undeclared 4 _ rfl rfl hd
  case jalr => rw [exec_jalr]; exact run_undeclared 4 _ rfl rfl hd
  case ptbr => rw [exec_ptbr]; exact run_undeclared 4 _ rfl rfl hd

/-- Settles O6: its six parts, the words read field by field and the effects, waits and traps through the shell of an instruction
(`run`). -/
theorem controlResult : Obligations.ControlResult := by
  unfold Obligations.ControlResult
  exact ⟨controlWords, branchResult, jumpResult, guardedBranch, branchWaits, branchUndeclared⟩

end Sys2Proof.Machine

/-!
SUPPORT. The integer instructions (R114, R129 to R138, R146): the values of their rows as the model computes them and as the rules
state them, and what one such instruction does within the shell of an instruction.
-/

namespace Sys2Proof.Machine

/-! ## Values that the rules state in other words than the model (R131 to R133) -/

section
variable (x y : Word)

theorem minSigned_eq : minSigned x y = if x.toInt < y.toInt then x else y := by
  simp only [minSigned, BitVec.slt, decide_eq_true_eq]

theorem maxSigned_eq : maxSigned x y = if x.toInt < y.toInt then y else x := by
  simp only [maxSigned, BitVec.slt, decide_eq_true_eq]

theorem minUnsigned_eq : minUnsigned x y = if x.toNat < y.toNat then x else y := by
  simp only [minUnsigned, BitVec.ult, decide_eq_true_eq]

theorem maxUnsigned_eq : maxUnsigned x y = if x.toNat < y.toNat then y else x := by
  simp only [maxUnsigned, BitVec.ult, decide_eq_true_eq]

theorem narrow_eq : narrow x = signed32 (x.setWidth 32) := rfl

/-! The W forms compute on 64 bits and then narrow; the low half of a sum, difference or product is that of the low halves. -/

theorem narrow_add : narrow (x + y) = signed32 (x.setWidth 32 + y.setWidth 32) := by
  rw [narrow_eq, BitVec.setWidth_add x y (by decide)]

theorem narrow_sub : narrow (x - y) = signed32 (x.setWidth 32 - y.setWidth 32) := by
  rw [BitVec.sub_eq_add_neg, narrow_add, BitVec.setWidth_neg_of_le (by decide), BitVec.sub_eq_add_neg]

theorem narrow_mul : narrow (x * y) = signed32 (x.setWidth 32 * y.setWidth 32) := by
  rw [narrow_eq, BitVec.setWidth_mul x y (by decide)]

end

theorem extWidth_eq (w : BitVec 5) : extWidth w = if w = 0 then 8 else if w = 1 then 16 else 32 := by
  revert w; decide

/-- What depends on the width of SEXT and ZEXT depends on its code (R132). -/
theorem apply_extWidth {α : Type} (f : Nat → α) (w : BitVec 5) :
    f (extWidth w) = if w = 0 then f 8 else if w = 1 then f 16 else f 32 := by
  rw [extWidth_eq, apply_ite f, apply_ite f]

/-! ## Operand forms with equal values -/

section
variable (len : Nat) (d a b : BitVec 5) (s : State)

theorem regReg_congr {f g : Word → Word → Word} (h : ∀ x y, f x y = g x y) : regReg len d a b f s = regReg len d a b g s := by
  rw [funext₂ h]

theorem regOne_congr {f g : Word → Word} (h : ∀ x, f x = g x) : regOne len d a f s = regOne len d a g s := by
  rw [funext h]

/-- The OR of a register with itself moves it: MOV.C (R82). -/
theorem regReg_or_self : regReg len d a a (fun x y => x ||| y) s = regReg len d a a (fun x _ => x) s := by
  simp only [regReg, BitVec.or_self]

end

/-! ## The instructions of the table -/

/-- Within the shell of an instruction, one of the table sets its register to the value of its row. Most rows state the value in
the model's own words; the others go through the lemmas above. -/
theorem exec_of_scalarOf {i : Instr} {c : Scalar} (h : scalarOf i = some c) (s : State) :
    exec i s = runT c.len c.uses s fun t => .ok (setX t c.dest (c.value t)) 0 := by
  cases i <;> cases h
  case min d a b => exact (regReg_congr 4 d a b s minSigned_eq :)
  case max d a b => exact (regReg_congr 4 d a b s maxSigned_eq :)
  case minu d a b => exact (regReg_congr 4 d a b s minUnsigned_eq :)
  case maxu d a b => exact (regReg_congr 4 d a b s maxUnsigned_eq :)
  case addw d a b => exact (regReg_congr 4 d a b s narrow_add :)
  case subw d a b => exact (regReg_congr 4 d a b s narrow_sub :)
  case mulw d a b => exact (regReg_congr 4 d a b s narrow_mul :)
  case sext d a w => exact (regOne_congr 4 d a s fun x => apply_extWidth (sextW x) w :)
  case zext d a w => exact (regOne_congr 4 d a s fun x => apply_extWidth (zextW x) w :)
  case movC d a => exact regReg_or_self 2 d a s
  all_goals rfl

/-- Settles O1: where nothing stands before an instruction of the table, its shell completes it with the value of its row. -/
theorem scalarResult : Obligations.ScalarResult := by
  unfold Obligations.ScalarResult
  intro i c s hi hr
  rw [exec_of_scalarOf hi]
  exact runT_ok hr c.len _ _ rfl

end Sys2Proof.Machine

/-!
SUPPORT. The merges of R365 and R366, element by element: what `byElement` puts into each element of a granule, the merge of an exact
cell in bit vectors, and what two merges in turn leave.
-/

namespace Sys2Proof.Machine

/-! ## Fields laid one after another -/

/-- The number that `byElement` builds: the fields `d 0` to `d (n - 1)` of `w` bits, the first one lowest. -/
def laid (w : Nat) (d : Nat → Nat) (n : Nat) : Nat := (List.range n).foldl (fun acc i => acc + d i * 2 ^ (w * i)) 0

theorem laid_succ (w : Nat) (d : Nat → Nat) (n : Nat) : laid w d (n + 1) = laid w d n + d n * 2 ^ (w * n) := by
  simp [laid, List.range_succ]

section
variable {w : Nat} {d : Nat → Nat} (hd : ∀ i, d i < 2 ^ w)
include hd

theorem laid_lt (n : Nat) : laid w d n < 2 ^ (w * n) := by
  induction n with
  | zero => exact Nat.one_pos
  | succ n ih =>
    calc laid w d (n + 1) = laid w d n + d n * 2 ^ (w * n) := laid_succ w d n
      _ < (d n + 1) * 2 ^ (w * n) := by rw [Nat.add_one_mul]; omega
      _ ≤ 2 ^ w * 2 ^ (w * n) := Nat.mul_le_mul_right _ (hd n)
      _ = 2 ^ (w * (n + 1)) := by rw [← pow_add, Nat.mul_succ, Nat.add_comm]

theorem laid_field {i n : Nat} (hi : i < n) : laid w d n / 2 ^ (w * i) % 2 ^ w = d i := by
  induction n with
  | zero => exact absurd hi i.not_lt_zero
  | succ n ih =>
    rw [laid_succ]
    obtain rfl | hlt := Nat.eq_or_lt_of_le (Nat.le_of_lt_succ hi)
    · rw [Nat.add_mul_div_right _ _ (Nat.two_pow_pos _), Nat.div_eq_of_lt (laid_lt hd i), Nat.zero_add, Nat.mod_eq_of_lt (hd i)]
    · obtain ⟨k, rfl⟩ := Nat.exists_eq_add_of_lt hlt
      have above : d (i + k + 1) * 2 ^ (w * (i + k + 1)) = d (i + k + 1) * 2 ^ (w * k) * 2 ^ w * 2 ^ (w * i) := by ring
      rw [above, Nat.add_mul_div_right _ _ (Nat.two_pow_pos _), Nat.add_mul_mod_self_right, ih hlt]

theorem fieldOf_laid {i m n : Nat} (hm : w * n = m) (hi : i < n) : fieldOf (BitVec.ofNat m (laid w d n)) (w * i) w = d i := by
  subst hm
  rw [fieldOf, BitVec.toNat_ofNat, Nat.mod_eq_of_lt (laid_lt hd n), laid_field hd hi]

end

/-! ## Elements of a granule -/

theorem toNat_elem (w i : Nat) (v : BitVec 512) : (elem w i v).toNat = fieldOf v (w * i) w := by
  rw [elem, BitVec.extractLsb'_toNat, Nat.shiftRight_eq_div_pow, fieldOf]

/-- A granule is its elements. -/
theorem eq_of_elem {w : Nat} (n : Nat) (hn : w * n = 512) {x y : BitVec 512} (h : ∀ i < n, elem w i x = elem w i y) : x = y := by
  refine BitVec.eq_of_getLsbD_eq fun j hj => ?_
  have hw : 0 < w := Nat.pos_of_ne_zero fun hz => by simp [hz] at hn
  have key := congrArg (·.getLsbD (j % w)) (h (j / w) (Nat.div_lt_of_lt_mul (hn ▸ hj)))
  simpa [elem, Nat.mod_lt j hw, Nat.div_add_mod] using key

/-- The number that `byElement` puts into element `i`, of `n` bytes. -/
def mergedField (n : Nat) (f : Nat → Nat → Nat → Nat) (p c a : BitVec 512) (i : Nat) : Nat :=
  f (fieldOf p (8 * n * i) (8 * n)) (fieldOf c (8 * n * i) (8 * n)) (fieldOf a (8 * n * i) (8 * n))

theorem byElement_eq_laid (n : Nat) (f : Nat → Nat → Nat → Nat) (p c a : BitVec 512) :
    byElement n f p c a = BitVec.ofNat 512 (laid (8 * n) (mergedField n f p c a) (64 / n)) := rfl

/-- `byElement` merges each element by itself: `g` is the merge `f` of numbers as one of bit vectors. -/
theorem elem_byElement {w n : Nat} (hw : 8 * n = w) (hn : n ∣ 64) {f : Nat → Nat → Nat → Nat}
    {g : BitVec w → BitVec w → BitVec w → BitVec w} (hfg : ∀ x y z, f x.toNat y.toNat z.toNat = (g x y z).toNat)
    (p c a : BitVec 512) {i : Nat} (hi : i < 64 / n) : elem w i (byElement n f p c a) = g (elem w i p) (elem w i c) (elem w i a) := by
  subst hw
  have value (i : Nat) : mergedField n f p c a i = (g (elem (8 * n) i p) (elem (8 * n) i c) (elem (8 * n) i a)).toNat := by
    rw [← hfg, toNat_elem, toNat_elem, toNat_elem, mergedField]
  have small (i : Nat) : mergedField n f p c a i < 2 ^ (8 * n) := value i ▸ BitVec.isLt _
  have whole : 8 * n * (64 / n) = 512 := by rw [Nat.mul_assoc, Nat.mul_div_cancel' hn]
  apply BitVec.eq_of_toNat_eq
  rw [toNat_elem, ← value, byElement_eq_laid, fieldOf_laid small whole hi]

/-! ## Merges of one element (R365) -/

theorem toSigned_toNat {w : Nat} (hw : 0 < w) (x : BitVec w) : toSigned w x.toNat = x.toInt := by
  have half : 2 ^ w = 2 * 2 ^ (w - 1) := by rw [← Nat.pow_succ', Nat.succ_eq_add_one, Nat.sub_add_cancel hw]
  have same : 2 * x.toNat < 2 ^ w ↔ x.toNat < 2 ^ (w - 1) := by omega
  rw [toSigned, BitVec.toInt_eq_toNat_cond, if_congr same rfl rfl]
  push_cast
  rfl

/-- A choice by two's complement order (MIN.I, MAX.I). -/
theorem signedChoice_toNat {w : Nat} (hw : 0 < w) (x y u v : BitVec w) :
    (if toSigned w x.toNat < toSigned w y.toNat then u.toNat else v.toNat) = (if x.toInt < y.toInt then u else v).toNat := by
  rw [toSigned_toNat hw, toSigned_toNat hw, apply_ite BitVec.toNat]

theorem sum_toNat {w : Nat} (x y z : BitVec w) : (x.toNat + y.toNat + (2 ^ w - z.toNat)) % 2 ^ w = (x + y - z).toNat := by
  rw [BitVec.toNat_sub, BitVec.toNat_add, Nat.add_mod_mod, Nat.add_comm]

/-- FMIN and FMAX select one of the operands, or give the canonical NaN. -/
theorem minMaxNum_mem (F : Fmt) (isMax : Bool) (a b : Nat) : (minMaxNum F isMax a b).1 ∈ [fmtCanon F, a, b] := by
  simp only [minMaxNum]
  split_ifs <;> simp

theorem minMaxNum_fp32_lt (isMax : Bool) (x y : BitVec 32) : (minMaxNum .fp32 isMax x.toNat y.toNat).1 < 2 ^ 32 := by
  have all : ∀ n ∈ [fmtCanon .fp32, x.toNat, y.toNat], n < 2 ^ 32 :=
    List.forall_mem_cons.2 ⟨by decide, List.forall_mem_cons.2 ⟨x.isLt, List.forall_mem_singleton.2 y.isLt⟩⟩
  exact all _ (minMaxNum_mem .fp32 isMax x.toNat y.toNat)

theorem minMaxNum_fp32_toNat (isMax : Bool) (x y : BitVec 32) :
    (minMaxNum .fp32 isMax x.toNat y.toNat).1 = (BitVec.ofNat 32 (minMaxNum .fp32 isMax x.toNat y.toNat).1).toNat := by
  rw [BitVec.toNat_ofNat, Nat.mod_eq_of_lt (minMaxNum_fp32_lt isMax x y)]

/-! ## The merge of a cell (R366) -/

theorem toNat_append_eq_add {m n : Nat} (x : BitVec m) (y : BitVec n) : (x ++ y).toNat = x.toNat * 2 ^ n + y.toNat := by
  rw [BitVec.toNat_append, ← Nat.shiftLeft_add_eq_or_of_lt y.isLt, Nat.shiftLeft_eq]

theorem toNat_or_bit {w k : Nat} (hk : k < w) (x : BitVec w) :
    (x ||| 1#w <<< k).toNat = if x.toNat / 2 ^ k % 2 = 1 then x.toNat else x.toNat + 2 ^ k := by
  have hbit : x.toNat / 2 ^ k % 2 = (x.getLsbD k).toNat := (Nat.toNat_testBit ..).symm
  rw [← BitVec.twoPow_eq, hbit]
  cases hx : x.getLsbD k
  case true =>
    have absorbed : x ||| BitVec.twoPow w k = x := by
      ext j hj
      by_cases h : j = k
      · subst h
        simp [← BitVec.getLsbD_eq_getElem, hx]
      · simp [h]
    simp [absorbed]
  case false =>
    have apart : x &&& BitVec.twoPow w k = 0#w := by rw [BitVec.and_twoPow, hx]; rfl
    simp [← BitVec.add_eq_or_of_and_eq_zero _ _ apart, BitVec.toNat_add_of_and_eq_zero apart, BitVec.toNat_twoPow_of_lt hk]

/-- The four flags of a merged cell, where `f` and `g` read those of the two cells: each is the OR of the two, and OVF is raised also where
`out` says so. -/
theorem flags_toNat {f g : Nat → Nat} {p c : BitVec 4} (hf : ∀ i, i < 4 → f i = (p.getLsbD i).toNat)
    (hg : ∀ i, i < 4 → g i = (c.getLsbD i).toNat) (out : Bool) :
    (if f 0 = 1 ∨ g 0 = 1 ∨ out then 1 else 0) + 2 * (f 1 ||| g 1) + 4 * (f 2 ||| g 2) + 8 * (f 3 ||| g 3)
      = (p ||| c ||| if out then 1 else 0).toNat := by
  simp only [hf 0 (by decide), hf 1 (by decide), hf 2 (by decide), hf 3 (by decide),
    hg 0 (by decide), hg 1 (by decide), hg 2 (by decide), hg 3 (by decide)]
  clear hf hg
  revert p c out
  decide

theorem anchorOf_eq_iff (p c : BitVec 256) : anchorOf p = anchorOf c ↔ p.toNat / 2 ^ 192 % 2 ^ 16 = c.toNat / 2 ^ 192 % 2 ^ 16 := by
  rw [anchorOf, anchorOf, BitVec.toInt_inj, ← BitVec.toNat_inj, BitVec.extractLsb'_toNat, BitVec.extractLsb'_toNat,
    Nat.shiftRight_eq_div_pow, Nat.shiftRight_eq_div_pow]

theorem toSigned_val (p : BitVec 256) : toSigned 192 (p.toNat % 2 ^ 192) = valOf p :=
  toSigned_toNat (by decide) (p.extractLsb' 0 192)

theorem flag_eq (p : BitVec 256) (i : Nat) (hi : i < 4) : p.toNat / 2 ^ (208 + i) % 2 = ((p.extractLsb' 208 4).getLsbD i).toNat := by
  rw [BitVec.getLsbD_extractLsb', decide_eq_true hi, Bool.true_and, BitVec.getLsbD, Nat.toNat_testBit]

theorem cellMerged_of_anchors {p c a : BitVec 256} (h : anchorOf p = anchorOf c ∧ anchorOf c = anchorOf a) : cellMerged p c a =
    let sum := valOf p + valOf c - valOf a
    let ovf : BitVec 4 := if sum < -2 ^ 191 ∨ 2 ^ 191 ≤ sum then 1 else 0
    0#44 ++ (p.extractLsb' 208 4 ||| c.extractLsb' 208 4 ||| ovf) ++ p.extractLsb' 192 16 ++ BitVec.ofInt 192 sum := if_pos h

theorem cellMerged_of_not_anchors {p c a : BitVec 256} (h : ¬(anchorOf p = anchorOf c ∧ anchorOf c = anchorOf a)) :
    cellMerged p c a = p ||| 1#256 <<< 209 := if_neg h

theorem mergeCell_toNat (p c a : BitVec 256) : mergeCell p.toNat c.toNat a.toNat = (cellMerged p c a).toNat := by
  by_cases h : anchorOf p = anchorOf c ∧ anchorOf c = anchorOf a
  · have hn := h
    rw [anchorOf_eq_iff, anchorOf_eq_iff] at hn
    rw [mergeCell, if_pos hn, cellMerged_of_anchors h]
    dsimp only
    rw [toSigned_val, toSigned_val, toSigned_val, flags_toNat (flag_eq p) (flag_eq c)]
    simp only [toNat_append_eq_add, BitVec.toNat_ofInt, Nat.cast_pow, Nat.cast_ofNat, BitVec.toNat_zero, BitVec.extractLsb'_toNat,
      Nat.shiftRight_eq_div_pow, Bool.or_eq_true, decide_eq_true_eq, ge_iff_le]
    ring
  · have hn := h
    rw [anchorOf_eq_iff, anchorOf_eq_iff] at hn
    rw [mergeCell, if_neg hn, cellMerged_of_not_anchors h, toNat_or_bit (by decide)]

@[simp] theorem anchorOf_cellMerged (p c a : BitVec 256) : anchorOf (cellMerged p c a) = anchorOf p := by
  by_cases h : anchorOf p = anchorOf c ∧ anchorOf c = anchorOf a
  · rw [cellMerged_of_anchors h, anchorOf, BitVec.extractLsb'_append_eq_of_le (by decide)]
    exact congrArg BitVec.toInt BitVec.extractLsb'_append_eq_right
  · rw [cellMerged_of_not_anchors h, anchorOf, BitVec.extractLsb'_or]
    exact congrArg BitVec.toInt BitVec.or_zero

/-- The VAL of a merged cell: the sum modulo 2^192, or the parent's where the anchors differ. -/
theorem valOf_cellMerged (p c a : BitVec 256) : valOf (cellMerged p c a) =
    if anchorOf p = anchorOf c ∧ anchorOf c = anchorOf a then (valOf p + valOf c - valOf a).bmod (2 ^ 192) else valOf p := by
  by_cases h : anchorOf p = anchorOf c ∧ anchorOf c = anchorOf a
  · rw [cellMerged_of_anchors h, if_pos h, valOf, BitVec.extractLsb'_append_eq_right, BitVec.toInt_ofInt]
  · rw [cellMerged_of_not_anchors h, if_neg h, valOf, BitVec.extractLsb'_or]
    exact congrArg BitVec.toInt BitVec.or_zero

/-! ## Elements of bitwise merges -/

theorem elem_or (w i : Nat) (x y : BitVec 512) : elem w i (x ||| y) = elem w i x ||| elem w i y := BitVec.extractLsb'_or
theorem elem_and (w i : Nat) (x y : BitVec 512) : elem w i (x &&& y) = elem w i x &&& elem w i y := BitVec.extractLsb'_and
theorem elem_xor (w i : Nat) (x y : BitVec 512) : elem w i (x ^^^ y) = elem w i x ^^^ elem w i y := BitVec.extractLsb'_xor

theorem elem_not {i : Nat} (hi : i < 64) (x : BitVec 512) : elem 8 i (~~~x) = ~~~elem 8 i x := by
  ext j hj
  have inside : 8 * i + j < 512 := by omega
  simp [elem, inside]

/-! ## The merges of a granule, by type (R365) -/

section
variable (p c a : BitVec 512) {wrote : Bool} {sc sp : Word} {i : Nat}

theorem elem_mergeGranule_sum64 (hi : i < 8) :
    elem 64 i (mergeGranule 2 p c a wrote sc sp) = elem 64 i p + elem 64 i c - elem 64 i a := by
  rw [mergeGranule]
  exact elem_byElement (w := 64) (n := 8) (g := fun p c a => p + c - a) rfl (by decide) sum_toNat p c a hi

theorem elem_mergeGranule_sum32 (hi : i < 16) :
    elem 32 i (mergeGranule 3 p c a wrote sc sp) = elem 32 i p + elem 32 i c - elem 32 i a := by
  rw [mergeGranule]
  exact elem_byElement (w := 32) (n := 4) (g := fun p c a => p + c - a) rfl (by decide) sum_toNat p c a hi

theorem elem_mergeGranule_cell (hi : i < 2) :
    elem 256 i (mergeGranule 4 p c a wrote sc sp) = cellMerged (elem 256 i p) (elem 256 i c) (elem 256 i a) := by
  rw [mergeGranule]
  exact elem_byElement (w := 256) (n := 32) rfl (by decide) mergeCell_toNat p c a hi

theorem elem_mergeGranule_min64 (hi : i < 8) : elem 64 i (mergeGranule 5 p c a wrote sc sp) =
    if (elem 64 i c).toInt < (elem 64 i p).toInt then elem 64 i c else elem 64 i p := by
  rw [mergeGranule]
  exact elem_byElement (w := 64) (n := 8) (g := fun p c _ => if c.toInt < p.toInt then c else p) rfl (by decide)
    (fun p c _ => signedChoice_toNat (by decide) c p c p) p c a hi

theorem elem_mergeGranule_max64 (hi : i < 8) : elem 64 i (mergeGranule 6 p c a wrote sc sp) =
    if (elem 64 i p).toInt < (elem 64 i c).toInt then elem 64 i c else elem 64 i p := by
  rw [mergeGranule]
  exact elem_byElement (w := 64) (n := 8) (g := fun p c _ => if p.toInt < c.toInt then c else p) rfl (by decide)
    (fun p c _ => signedChoice_toNat (by decide) p c c p) p c a hi

/-- The toggled bits of a granule are those in which the child differs from the ancestor. -/
theorem mergeGranule_toggled : mergeGranule 11 p c a wrote sc sp = p ^^^ (a ^^^ c) := BitVec.xor_assoc p a c

/-- FMIN and FMAX of each FP32 element (types 7 and 8). -/
theorem elem_byElement_minMax (isMax : Bool) (hi : i < 16) :
    (elem 32 i (byElement 4 (fun p c _ => (minMaxNum .fp32 isMax p c).1) p c a)).toNat =
      (minMaxNum .fp32 isMax (elem 32 i p).toNat (elem 32 i c).toNat).1 := by
  rw [elem_byElement (w := 32) (n := 4) (g := fun p c _ => BitVec.ofNat 32 (minMaxNum .fp32 isMax p.toNat c.toNat).1) rfl (by decide)
    (fun p c _ => minMaxNum_fp32_toNat isMax p c) p c a hi, ← minMaxNum_fp32_toNat]

end

theorem mergeValues : MergeValues := by
  intro p c a wrote sc sp i m
  refine ⟨rfl, rfl, fun hi => ⟨?sum64, ?min64, ?max64⟩, fun hi => ⟨?sum32, ?min32, ?max32⟩, fun hi => ?cell,
    fun hi => ⟨?set, ?cleared, ?toggled⟩, ?stamp⟩
  case sum64 => exact elem_mergeGranule_sum64 p c a hi
  case min64 => exact elem_mergeGranule_min64 p c a hi
  case max64 => exact elem_mergeGranule_max64 p c a hi
  case sum32 => exact elem_mergeGranule_sum32 p c a hi
  case min32 => exact elem_byElement_minMax p c a false hi
  case max32 => exact elem_byElement_minMax p c a true hi
  case cell => exact elem_mergeGranule_cell p c a hi
  case set => exact (elem_or ..).trans (by rw [elem_and, elem_not hi])
  case cleared => exact (elem_and ..).trans (by rw [elem_not hi, elem_and, elem_not hi])
  case toggled => exact (elem_xor ..).trans (by rw [elem_xor])
  case stamp => simp only [m, mergeGranule, Bool.or_eq_true, decide_eq_true_eq, Bool.not_eq_true']

/-! ## Two merges in turn (R365, R366) -/

/-- Where a child's anchors agree with the parent's, its merge adds to VAL modulo 2^192, and sums commute; where they do not, it leaves VAL,
and neither merge changes the ANCHOR that the other one sees. -/
theorem cellMergeOrder : CellMergeOrder := by
  intro p x a y b
  simp only [valOf_cellMerged, anchorOf_cellMerged]
  by_cases hx : anchorOf p = anchorOf x ∧ anchorOf x = anchorOf a <;>
    by_cases hy : anchorOf p = anchorOf y ∧ anchorOf y = anchorOf b
  · simp only [if_pos hx, if_pos hy, add_sub_assoc, Int.bmod_add_bmod, add_right_comm]
  · simp only [if_pos hx, if_neg hy]
  · simp only [if_neg hx, if_pos hy]
  · simp only [if_neg hx, if_neg hy]

/-- A merge adds, sets, clears or toggles what the child and the ancestor alone determine, and of each type these commute. -/
theorem granuleMergeOrder : GranuleMergeOrder := by
  intro type p x a y b w v sx sy sp h
  obtain rfl | rfl | rfl | rfl | rfl := h
  · refine eq_of_elem (w := 64) 8 rfl fun i (hi : i < 8) => ?_
    simp only [elem_mergeGranule_sum64 _ _ _ hi]
    ring
  · refine eq_of_elem (w := 32) 16 rfl fun i (hi : i < 16) => ?_
    simp only [elem_mergeGranule_sum32 _ _ _ hi]
    ring
  · exact RightCommutative.right_comm (op := (· ||| ·)) p (x &&& ~~~a) (y &&& ~~~b)
  · exact RightCommutative.right_comm (op := (· &&& ·)) p (~~~(a &&& ~~~x)) (~~~(b &&& ~~~y))
  · simp only [mergeGranule_toggled]
    exact RightCommutative.right_comm (op := (· ^^^ ·)) p (a ^^^ x) (b ^^^ y)

/-- Settles O39: the values of the types element by element, and the two merges in turn. -/
theorem mergeResult : Obligations.MergeResult := by
  unfold Obligations.MergeResult
  exact ⟨mergeValues, cellMergeOrder, granuleMergeOrder⟩

end Sys2Proof.Machine
